-- ==== Sys2Proof/Word.lean ====
section
/-! DEFINITION. Words, bytes and their plainest arithmetic: what every other file of the model counts in. -/

namespace Sys2Proof

/-- One byte. -/
abbrev Byte := BitVec 8
/-- One 32-bit word. -/
abbrev W32 := BitVec 32
/-- One 64-bit word. -/
abbrev W64 := BitVec 64
/-- A sequence of bytes, the first at the lowest address. -/
abbrev Bytes := List Byte

/-- A table with few entries: pairs of a key and a value, keys strictly rising. -/
abbrev Tab (α : Type) := List (Nat × α)

end Sys2Proof
end

