-- ==== Sys2Proof/Machine/Types/Cmd.lean ====
section
/-! DEFINITION. Storage commands in flight: NVMe commands, the write path, the read path, journal groups and staging (04, 05, 12). -/

namespace Sys2Proof.Machine

/-- A 64-byte NVMe submission entry, field by field. `dptr` is the 16 bytes of the data pointer as a little-endian number. -/
structure Sqe where
  opc : Nat
  fuse : Nat
  psdt : Nat
  cid : Nat
  nsid : Nat
  cdw2 : Nat
  cdw3 : Nat
  mptr : Nat
  dptr : Nat
  cdw10 : Nat
  cdw11 : Nat
  cdw12 : Nat
  cdw13 : Nat
  cdw14 : Nat
  cdw15 : Nat
  deriving DecidableEq, Repr

/-- Where a command came from: a fabric controller's queue, a host-side slice's queue, the peer (a forwarded command by ARG0
of its FWD_CMD), a replication stream's received chunk, the head itself (a partial chunk of Write Zeroes by its parent command), or a queue that is there no more. -/
inductive Origin where
  | fabric (cntl qid cid : Nat)
  | slice (slice queue cid : Nat)
  | peer (arg : Nat)
  | stream (unit seq chunk : Nat)
  | internal (parent : Nat)
  | gone
  deriving DecidableEq, Repr

/-- What every command carries from accept to completion (S1, E1): its number in order of acceptance, where it came from,
its entry and the data its capsule carried (of a slice, the descriptor list it pointed to; of a forwarded command, the data landed for it),
namespace, instance and that instance's generation, when it was accepted, and the queue's slice generation. -/
structure CHead where
  id : Nat
  origin : Origin
  sqe : Sqe
  cap : Bytes
  admin : Bool
  nsg : Nat
  inst : Nat
  gen : Nat
  sgen : Nat
  start : Nat
  deriving DecidableEq, Repr

/-- What the Pantry answered for a chunk (R136, R195): zero chunk, HIT, DEPENDENT HIT on a command and chunk still in
flight, MISS with a reserved handle, MISS without one; a chunk a stream sets to LOST (R454). -/
inductive ChunkKind where
  | zero
  | hit (handle : Nat)
  | depHit (handle : Nat)
  | miss (handle : Nat)
  | missNone
  | lost
  deriving DecidableEq, Repr

/-- How far a chunk of a write has come (R119, R120). -/
inductive WStage where
  | landing | cutting | fingerprint | probe | probeWait | squeeze | ready | sealing | mapwalk | place | committed
  | durable | abandoned
  deriving DecidableEq, Repr

/-- A crumb range in staging (R142): page, first crumb, crumbs in that page; a copy lies in one or two of them. -/
structure CrumbRange where
  page : Nat
  first : Nat
  count : Nat
  deriving DecidableEq, Repr

/-- One copy of a miss (R142): module, crumb index of its first crumb, the staging ranges that hold it. -/
structure Copy where
  module : Nat
  crumb : Nat
  ranges : List CrumbRange
  deriving DecidableEq, Repr

/-- One chunk of a write. `off` and `len` place the new bytes inside the chunk, `src` places them in the command's data. `jsn` is its
group's first JSN, `jcount` is not 0 while its MAPWALK has not committed, `old` the entry its MAPWALK read, `tries` the control phases that failed. -/
structure WChunk where
  idx : Nat
  off : Nat
  len : Nat
  src : Nat
  stage : WStage
  before : Option Bytes
  data : Bytes
  fp : Bytes
  kind : Option ChunkKind
  comp : Bytes
  crumbs : Nat
  raw : Bool
  copies : List Copy
  jsn : Nat
  jcount : Nat
  old : Nat
  tries : Nat
  deriving DecidableEq, Repr

/-- A write command in flight (R119): epoch at accept, first block and blocks, whether its whole chunks become ZERO
without data, what it has reserved (R125, R127), its landed data, how far it is. -/
structure WCmd where
  h : CHead
  dom : Nat
  epoch : Nat
  slba : Nat
  nlb : Nat
  zero : Bool
  mirror2 : Bool
  queued : Bool
  admitted : Bool
  adm : Nat
  credits : Nat
  charge : Nat
  landed : Bytes
  landedOk : Bool
  gated : Bool
  failed : Nat
  chunks : List WChunk
  deriving DecidableEq, Repr

/-- A journal record's content (R145); JSN, flags, count and CRC come from its group. -/
structure JRec where
  type : Nat
  nsg : Nat
  subject : Nat
  a : Nat
  b : Nat
  c : Nat
  deriving DecidableEq, Repr

/-- How far a journal group has come: reserved at a gate, committed, sent to the mirror, durable. -/
inductive GrpStage where
  | reserved | committed | sent | durable
  deriving DecidableEq, Repr

/-- A journal group (R144, R145): first JSN, reserved count, records, time of its control commit, instance, whether under the
solo rule, the command and chunk it belongs to with the map entry it sets, whether its crumbs are sealed into staging, the
staging pages its crumbs lie in. -/
structure Grp where
  jsn : Nat
  count : Nat
  recs : List JRec
  time : Nat
  inst : Nat
  solo : Bool
  stage : GrpStage
  cmd : Nat
  chunk : Nat
  nsg : Nat
  sealed : Bool
  pages : List Nat
  deriving DecidableEq, Repr

/-- One journal record held in the ring (R148): its 64 bytes, the record, whether a journal page has taken it, page copies
programmed, whether the peer has been asked to release it. -/
structure RingRec where
  bytes : Bytes
  rec' : JRec
  paged : Bool
  programmed : Nat
  relSent : Bool
  deriving DecidableEq, Repr

/-- A staging page (R140): descriptor fields and the page's bytes by crumb; holds by reads (R161). -/
structure StagePage where
  state : Nat
  stream : Nat
  module : Nat
  fill : Nat
  flash : Nat
  openJsn : Nat
  lastJsn : Nat
  crumbs : Tab Bytes
  holds : Nat
  releaseSent : Bool
  deriving DecidableEq, Repr

/-- A solo batch on its way (R152, R306, R307): sequence, first and last JSN, its flash pages, the modules it is written to,
programs still outstanding, whether one has failed or it is still to be written; HEAD is the writer whose records it holds (R509). -/
structure SoloBatch where
  head : Nat
  seq : Nat
  first : Nat
  last : Nat
  body : List Bytes
  modules : Nat × Nat
  left : Nat
  failed : Bool
  deriving DecidableEq, Repr

/-- A command's landing buffer (R131): declared length, bytes landed, the status an error left, reads still outstanding. -/
structure Landing where
  cmd : Nat
  want : Nat
  data : Bytes
  err : Nat
  left : Nat
  deriving DecidableEq, Repr

/-- The write path's own tables. -/
structure WriteState where
  cmds : List WCmd
  queue : List Nat
  waitSince : Option Nat
  interlock : List (Nat × Nat × Nat)
  groups : List Grp
  ring : Tab RingRec
  pages : Tab StagePage
  flushJsn : Option Nat
  batches : List SoloBatch
  peerBudget : Option Nat
  lands : List Landing
  deriving DecidableEq, Repr

/-- How far a chunk of a read has come (R158). -/
inductive RStage where
  | lookup | pageIn | locate | held | fetching | unseal | unsqueeze | ready | done
  deriving DecidableEq, Repr

/-- One chunk of a read: wanted blocks, map entry, content record, fetched crumbs, lost crumbs, holds taken. -/
structure RChunk where
  idx : Nat
  firstBlk : Nat
  nBlks : Nat
  stage : RStage
  entry : Nat
  handle : Nat
  w0 : Nat
  w1 : Nat
  stagePages : List Nat
  blocks : List Nat
  parts : List (Nat × Nat × Nat)
  fetched : Tab Bytes
  lostCrumbs : List Nat
  altTried : Bool
  data : Bytes
  lostBlks : List Nat
  scope : Nat
  slot : Bool
  sent : Bool
  deriving DecidableEq, Repr

/-- Why a read runs: a client command, a before-image (R132), a chunk for a stream (R453), or what is left of a completed read. -/
inductive RPurpose where
  | client | before (cmd : Nat) (chunk : Nat) | stream (unit : Nat) | internal
  deriving DecidableEq, Repr

/-- A read in flight (R157): domain, first block and blocks, egress slots it holds, the status it will end with and the lowest
lost block. -/
structure RCmd where
  h : CHead
  purpose : RPurpose
  dom : Nat
  slba : Nat
  nlb : Nat
  queued : Bool
  admitted : Bool
  chunks : List RChunk
  status : Nat
  lostLba : Option Nat
  deriving DecidableEq, Repr

/-- The read path's own tables: reads in flight, the egress admission queue, hold counts of mirror pages and erase blocks
(staging pages keep their own, R161). -/
structure ReadState where
  cmds : List RCmd
  queue : List Nat
  waitSince : Option Nat
  mirrorHolds : Tab Nat
  blockHolds : Tab Nat
  deriving DecidableEq, Repr

end Sys2Proof.Machine
end

