-- ==== Sys2Proof/Machine/Types/Evt.lean ====
section
/-! DEFINITION. The state of the event recorder, the SMBus interface and the JTAG port (19_events_counters, 20_balls_electrical). -/

namespace Sys2Proof.Machine

/-- An event on its way to the ring: code, time of the cause, source SA and the four parameters (R563). -/
structure Ev where
  code : Nat
  time : Nat
  src : Nat
  p0 : Nat
  p1 : Nat
  p2 : Nat
  p3 : Nat
  deriving DecidableEq, Repr

/-- An event record of the ring (R563); its CRC is computed when its bytes are read. -/
structure EvRec where
  seq : Nat
  ev : Ev
  repeats : Nat
  repeatSat : Bool
  delta : Nat
  deltaSat : Bool
  deriving DecidableEq, Repr

/-- The event recorder: the ring by slot, the input queue (oldest first), the events dropped since the last 0301h
record, and the SMBus read pointer (R564 to R566, R577). -/
structure EvtState where
  ring : Tab EvRec
  queue : List Ev
  dropped : Nat
  ptr : Nat
  deriving DecidableEq, Repr

/-- JTAG instructions (R593). -/
inductive JtagInstr where
  | bypass | samplePreload | idcode | extest | extestPulse | extestTrain | clamp | highz
  deriving DecidableEq, Repr

/-- What the boundary outputs do (R593): the mission function, values of the boundary register, held values, floating. -/
inductive BallDrive where
  | mission | boundary | held | floating
  deriving DecidableEq, Repr

/-- The test access port (R593): the instruction in force, the boundary register's cells (shift and update stages by cell)
and what drives the balls. -/
structure JtagState where
  instr : JtagInstr
  shift : Tab Bool
  update : Tab Bool
  drive : BallDrive
  serdesTest : Bool
  deriving DecidableEq, Repr

end Sys2Proof.Machine
end

