-- ==== Sys2Proof/Machine/Types/Hep.lean ====
section
/-! DEFINITION. The state of the host endpoint (17_host_endpoint). -/

namespace Sys2Proof.Machine

/-- One MSI-X table entry (R530); the vector mask is set at reset, as the PCIe standard has it. -/
structure MsixEnt where
  addr : Nat
  data : Nat
  masked : Bool
  deriving DecidableEq, Repr

/-- The work that a DMA read was issued for (R533). -/
inductive DmaWork where
  | imagePush
  | sqFetch (slice : Nat) (queue : Nat)
  | sliceData (cmd off : Nat)
  | sliceSgl (slice queue : Nat) (sqe : Sqe)
  | downRing
  | cipher (ctx : Nat)
  | cert
  deriving DecidableEq, Repr

/-- A DMA read outstanding: its tag, its work, its length, and whether its completion will be discarded (R535). -/
structure DmaRd where
  tag : Nat
  work : DmaWork
  len : Nat
  discard : Bool
  deriving DecidableEq, Repr

/-- The message state of one slice (R531): hold-off running, entries written since the last message. -/
structure SliceMsg where
  holdoff : Bool
  entries : Nat
  deriving DecidableEq, Repr

/-- A completion entry held while host DMA is stopped (R535): slice, queue, slice generation and the 16 bytes. -/
structure HeldCqe where
  slice : Nat
  queue : Nat
  gen : Nat
  cqe : Bytes
  deriving DecidableEq, Repr

/-- AER errors of R532, in the table's order. -/
inductive AerErr where
  | receiverError | replay | correctedInternal | advisoryNonFatal | headerLogOverflow
  | poisonedTlp | completionTimeout | unexpectedCompletion | unsupportedRequest | tlpPrefixBlocked
  | linkProtocol | malformedTlp | uncorrectableInternal
  deriving DecidableEq, Repr

/-- AER classes (R532). -/
inductive AerClass where
  | correctable | nonFatal | fatal
  deriving DecidableEq, Repr

/-- What a received TLP asks (R532): a memory read or write of a size in bytes; a configuration read or write of a doubleword of the header;
the capability registers, whose places the PCIe standard gives: MSI-X enable and function mask, an AER error's severity bit, its mask bit, its
status bit written 1, ATS enable; a request of a kind the Graold does not support; an ATS translated request; a request with a prefix or OHC it
does not accept; a poisoned write; a completion; an error of the link layer or a malformed TLP. -/
inductive Tlp where
  | memRead (addr size : Nat)
  | memWrite (addr size data : Nat)
  | cfgRead (reg : Nat)
  | cfgWrite (reg data : Nat)
  | msixControl (enable mask : Bool)
  | aerSeverity (e : AerErr) (fatal : Bool)
  | aerMask (e : AerErr) (mask : Bool)
  | aerClear (e : AerErr)
  | atsControl (enable : Bool)
  | otherRequest
  | translated (addr size : Nat)
  | prefixed
  | poisonedWrite
  | completion (tag status : Nat) (hdr b : Bytes)
  | error (e : AerErr)
  deriving DecidableEq, Repr

/-- The host endpoint: configuration space (memory space, ROM, function mask, AER severity, mask and status bits, the logged header with
its error, BAR bases), the MSI-X table and pending bits, per-slice message state, outstanding reads and those that wait for a tag, held
completion entries, times of recent internal errors, the link held back from training, in training, down until PERST (R534), the structure table the host sees. -/
structure HepState where
  memEn : Bool
  romEn : Bool
  funcMask : Bool
  fatalMade : List AerErr
  nonFatalMade : List AerErr
  aerMask : List AerErr
  aerStatus : List AerErr
  hdrLog : Option (AerErr × Bytes)
  bar : Tab Nat
  romBar : Nat
  vectors : Tab MsixEnt
  pba : Tab Bool
  slices : Tab SliceMsg
  reads : List DmaRd
  waiting : List (DmaWork × Nat × Nat × Option Nat)
  held : List HeldCqe
  ieTimes : List Nat
  linkHeld : Bool
  training : Bool
  linkFailed : Bool
  table : Bytes
  deriving DecidableEq, Repr

end Sys2Proof.Machine
end

