-- ==== Sys2Proof/Machine/Types/Map.lean ====
section
/-! DEFINITION. Map pages, the map cache and anchors (08_map_and_cache). A page's data is a table of its non-zero 64-bit words. -/

namespace Sys2Proof.Machine

/-- The 64-bit words of a page by word index; unlisted words are zero. -/
abbrev PageData := Tab Nat

/-- Work that waits for a page or a record and starts again when it is there: a chunk of a read at its lookup, a probe,
a command at its gate, a chunk at its control phase, durable mutations, the re-point of an eviction slot, a record request
of the peer, work of the Snapshots steward, of the Media steward. -/
inductive Waiter where
  | read (rd chunk : Nat)
  | probe (cmd chunk : Nat)
  | gate (cmd : Nat)
  | control (cmd chunk : Nat)
  | apply
  | repoint (slot : Nat)
  | peer (tag handle mode dom : Nat)
  | snap (nsg : Nat)
  | media
  | index
  deriving DecidableEq, Repr

/-- A line of the map cache (R250), kept under set × 16 + way: page key (R233), data, state bits, first JSN, prefetched,
version epoch (R443), heat time (R276). -/
structure MapLine where
  key : Nat
  data : PageData
  dirty : Bool
  locked : Bool
  firstJsn : Nat
  prefetched : Bool
  epoch : Nat
  heat : Option Nat
  deriving DecidableEq, Repr

/-- An eviction slot (R245): page key, data, whether it has locations on flash, copies programmed, the locations, whether its
re-point has been issued, first JSN, version epoch, and the epoch of the snapshot that owns a frozen version (R444). -/
structure EvSlot where
  key : Nat
  data : PageData
  placed : Bool
  programmed : Nat
  locA : Nat
  locB : Nat
  repointing : Bool
  firstJsn : Nat
  epoch : Nat
  snap : Option Nat
  deriving DecidableEq, Repr

/-- A pointer (R236): locations of the two copies, page CRC, version epoch, level, the LOST flag. -/
structure PagePtr where
  a : Nat
  b : Nat
  crc : Nat
  epoch : Nat
  level : Nat
  lost : Bool
  deriving DecidableEq, Repr

/-- A page-in outstanding (R253): key, the pointer followed, demand or prefetch, whether copy B is being read, what the read gave, whether
it waits for a way, who waits. -/
structure PageIn where
  key : Nat
  ptr : PagePtr
  demand : Bool
  copyB : Bool
  got : Option (Bool × Bytes)
  full : Bool
  waiters : List Waiter
  deriving DecidableEq, Repr

/-- An anchor being cut (R248): sequence, REDO, NEXT and PEER_REDO; the stage (0 directories level by level, 1 block-table pages
being programmed, 2 anchors being programmed), the level reached with its dirty pages (copied to a slot or not yet), block-table
page copies still outstanding, programs of the map anchor and of the media anchor, their locations and bytes. -/
structure AnchorCut where
  seq : Nat
  redo : Nat
  next : Nat
  peerRedo : Nat
  stage : Nat
  level : Nat
  keys : List (Nat × Bool)
  btLeft : Nat
  programmed : Nat
  mediaProgrammed : Nat
  mapLocs : List Nat
  medLocs : List Nat
  bytes : Bytes
  deriving DecidableEq, Repr

/-- A lease (R242): the record's handle, whether this head gave it to the peer, and for one taken, the command and chunk. -/
structure Lease where
  handle : Nat
  given : Bool
  cmd : Nat
  chunk : Nat
  deriving DecidableEq, Repr

/-- A peer-owned record as the owner last answered (R242): status, the record's two words, its companion's. -/
structure RemoteRec where
  status : Nat
  w0 : Nat
  w1 : Nat
  c0 : Nat
  c1 : Nat
  deriving DecidableEq, Repr

/-- A durable mutation not yet applied: JSN, the page it changes, the record and its TIME, whether the peer wrote it. -/
structure Mutation where
  jsn : Nat
  key : Nat
  rec' : JRec
  time : Nat
  peer : Bool
  deriving DecidableEq, Repr

/-- A line of a tree that has been handed to the peer (R430), marked HANDOFF: page key, data, whether it is dirty, first JSN, version epoch. -/
structure HandLine where
  key : Nat
  data : PageData
  dirty : Bool
  jsn : Nat
  epoch : Nat
  deriving DecidableEq, Repr

/-- The Map and cache steward: lines and tree pseudo-LRU bits by set, eviction slots, the dirty FIFO, the re-point log, page-ins, root
pointers kept on die by tree and level, the anchor, work stalled, pages to rebuild, durable mutations not applied, leases, answers of the peer, the
start of a walk, holds by page key (R244), lowest peer JSN whose change to a page is not on flash (R248), locations that a frozen version has
replaced while the live tree still names them. Of trees handed over (R430): HANDOFF lines, dirty lines handed and not reported written back
(key and first JSN), trees being taken over and until when, pages asked of the peer, pages it did not hold, dirty lines taken and not yet
written back. -/
structure MapState where
  lines : Tab MapLine
  plru : Tab Nat
  evb : Tab EvSlot
  fifo : List (Nat × Nat)
  repoints : List (Nat × PagePtr)
  pageIns : List PageIn
  roots : Tab PagePtr
  cut : Option AnchorCut
  anchorSeq : Nat
  stalled : List Waiter
  rebuild : List Nat
  deferred : List Mutation
  leases : List Lease
  remote : Tab RemoteRec
  walkSince : Nat
  holds : Tab Nat
  peerFirst : Tab Nat
  replaced : List Nat
  handLines : List HandLine
  handed : List (Nat × Nat)
  handIn : List (Nat × Nat)
  asked : List Nat
  answered : List Nat
  wbDue : List Nat
  deriving DecidableEq, Repr

end Sys2Proof.Machine
end

