-- ==== Sys2Proof/Machine/Types/Med.lean ====
section
/-! DEFINITION. Flash management and the media links (09_media_management, 10_media_link). Erase blocks are keyed by
module × 2^32 + EBN. -/

namespace Sys2Proof.Machine

/-- A content summary entry of an erase block (R273). -/
structure SumEnt where
  handle : Nat
  off : Nat
  len : Nat
  dom : Nat
  deriving DecidableEq, Repr

/-- What a 4 KiB unit of stream M is for (R279); a block-table page by module and level × 2^24 + page (R272); a
proxy anchor, kind 0 of the map, 1 of the media (R509). -/
inductive MUse where
  | journal (first last : Nat)
  | page (key : Nat) (copy : Nat)
  | anchor (seq : Nat) (copy : Nat)
  | mediaAnchor (seq : Nat) (copy : Nat)
  | blockTable (m page : Nat)
  | summary (blk : Nat) (idx : Nat)
  | keyStore (kseq : Nat) (idx : Nat)
  | proxy (kind : Nat) (copy : Nat)
  deriving DecidableEq, Repr

/-- An erase block (R270, R271): the block-table entry and what the steward keeps beside it: the read-disturb counter, the
summary while it is in DRAM (R273), flash pages programmed with success, parity by row and plane (R280), no further programs after a
failure (R282), the units of stream M in use (R279, R289). -/
structure EBlock where
  state : Nat
  stream : Nat
  dieMask : Nat
  erases : Nat
  fill : Nat
  valid : Nat
  sealTime : Nat
  openJsn : Nat
  sumA : Nat
  sumB : Nat
  sumPages : Nat
  domains : Nat
  disturb : Nat
  summary : List SumEnt
  written : List Nat
  parity : Tab Bytes
  closed : Bool
  bare : Bool
  units : Tab MUse
  deriving DecidableEq, Repr

/-- The flash page of stream M being filled on a module (R279): crumb index of the page, units assigned so far. -/
structure MPage where
  addr : Nat
  units : List (MUse × Bytes)
  deriving DecidableEq, Repr

/-- A page of a garbage-collection stream being gathered (R286): crumbs assigned, their bytes by place, state (0 filling, 1 full, 2
programming, 3 programmed). -/
structure GPage where
  fill : Nat
  crumbs : Tab Bytes
  state : Nat
  deriving DecidableEq, Repr

/-- A module (R266, R296, R297, R300): geometry from its superblock, identity, since when it is unavailable, open
blocks by stream, the pages of streams M and G1 to G3 being filled, queued programs, the victim, the scrub's place. -/
structure Module where
  id : Nat
  dies : Nat
  planes : Nat
  pages : Nat
  blocks : Nat
  slcPages : Nat
  eraseLimit : Nat
  readLimit : Nat
  spare : Nat
  known : Bool
  unavail : Option Nat
  openBlk : Tab Nat
  mPage : Option MPage
  gPages : Tab GPage
  queued : Nat
  victim : Option Nat
  collecting : Bool
  scrub : Nat
  deriving DecidableEq, Repr

/-- A copy on its way to another place (R283, R286 to R288, R299): handle and domain of its slot, where the slot's record
names it, its length, the copy its bytes are read from, the parts read, the place it has taken, stage (0 reading, 1 gathering, 2 placed,
3 its RELOCATE issued with this JSN), stream, whether it repairs a lost copy. -/
structure Move where
  handle : Nat
  dom : Nat
  sm : Nat
  src : Nat
  len : Nat
  rm : Nat
  rsrc : Nat
  parts : Tab Bytes
  dm : Nat
  dst : Nat
  stage : Nat
  jsn : Nat
  stream : Nat
  repair : Bool
  deriving DecidableEq, Repr

/-- An offer of a live primary for merging (R202): victim's handle, domain, location word, flags; its fingerprint once known; the
candidate and its two words; parts read; the record under way (0 victim, 1 candidate). -/
structure Merge where
  handle : Nat
  dom : Nat
  w0 : Nat
  w1 : Nat
  fp : Bytes
  cand : Nat
  c0 : Nat
  c1 : Nat
  parts : Tab Bytes
  side : Nat
  deriving DecidableEq, Repr

/-- A Secure Deallocate sweep (R302, R303): domain, phase, whether it runs for the peer, the commands it
completes, the first command number after it, the peer's holds and leases at that point, whether the peer's part has ended. -/
structure Sweep where
  domain : Nat
  phase : Nat
  forPeer : Bool
  cmds : List Nat
  mark : Nat
  waits : List Nat
  peerDone : Bool
  deriving DecidableEq, Repr

/-- The power-loss area writer (R308): phase (0 none, 1 stop and settle, 2 sections and trailers, 3 done), FLUSH_SEQ, the time of
the flush, the modules by copy, the trailers that are
still to be programmed by copy with the flash page they take, section programs outstanding by copy, trailers programmed. -/
structure Pla where
  phase : Nat
  seq : Nat
  time : Nat
  mods : List Nat
  units : List Bytes
  trailPage : Nat
  left : Tab Nat
  trailers : List Nat
  deriving DecidableEq, Repr

/-- What a media command was sent for; its response is handled accordingly. -/
inductive MedWork where
  | readChunk (rd : Nat) (chunk : Nat) (part : Nat)
  | pageIn (key : Nat)
  | staging (pages : List Nat)
  | mUnits (m : Nat) (addr : Nat) (uses : List MUse)
  | gc (m : Nat) (pages : List Nat)
  | solo (batch : Nat)
  | verify (blk : Nat) (page : Nat)
  | summary (blk : Nat) (page : Nat)
  | erase (blk : Nat)
  | slcErase (blk : Nat)
  | superblock (page : Nat)
  | witness (index : Nat)
  | claim (word : Nat)
  | plaSection (copy : Nat)
  | plaTrailer (copy : Nat)
  | plaRead
  | scrub (blk : Nat) (page : Nat)
  | moveRead (m : Nat) (src : Nat) (part : Nat)
  | mergeRead (handle : Nat) (part : Nat)
  | snapRead (loc : Nat)
  | ksCas (kseq : Nat) (m : Nat)
  | adopted (page : Nat)
  | peerRead (tag arg key va : Nat)
  | none
  deriving DecidableEq, Repr

/-- A read that has been answered, for the work it was made for: page status (255 where the copy is unavailable) and bytes. -/
structure ReadResult where
  work : MedWork
  status : Nat
  data : Bytes
  deriving DecidableEq, Repr

/-- The Media steward: blocks, modules, copies on their way, merges, queues of refresh (and repair and sweep victims), of dead records and
of copies found lost, tallies (module, EBN, count), crumbs reserved at gates, solo log, sweeps, power-loss writer, pages
the loss walk has yet to see, parity slots in use, answered reads, superseded stream M locations, block-table pointers by module,
level and page with the leaves changed, blocks of failed modules whose copies are still to be handled (R300), victims of the sweep, the blocks of
the SLC regions that hold something with the last JSN written to each (R307). -/
structure MedState where
  blocks : Tab EBlock
  modules : Tab Module
  moves : List Move
  merges : List Merge
  refresh : List Nat
  dead : List Nat
  lost : List (Nat × Nat)
  tallies : List (Nat × Nat × Nat)
  reserved : Nat
  batchSeq : Nat
  soloBlk : List (Nat × Nat)
  sweep : Option Sweep
  sweepQ : List Sweep
  pla : Pla
  lossWalk : List Nat
  parityUsed : Nat
  results : List ReadResult
  superseded : List Nat
  btPtrs : Tab PagePtr
  btDirty : List Nat
  failWalk : List Nat
  sweepVictims : List Nat
  slcUsed : Tab Nat
  deriving DecidableEq, Repr

/-- A media command (R317, R321): tag (while outstanding), opcode, FLAGS, arguments, payload and its work. -/
structure LinkCmd where
  tag : Nat
  opcode : Nat
  flags : Nat
  arg0 : Nat
  arg1 : Nat
  payload : Bytes
  work : MedWork
  deriving DecidableEq, Repr

/-- A response (R317, R318, R322): tag, FLAGS, status, page statuses of planes 0 to 3, ARG1, payload. -/
structure MedResp where
  tag : Nat
  flags : Nat
  status : Nat
  pages : List Nat
  arg1 : Nat
  payload : Bytes
  deriving DecidableEq, Repr

/-- One media link (R315 to R338): whether the host took it down, the next LSEQ in each direction, frames not yet acknowledged,
replays of the oldest one, discarding until SOF, credits, failed trainings in a row, times of failed retrains, valid
IDLE blocks in a row, outstanding commands by tag, commands waiting to be sent, superblock pages and witness values read, commands
answered FENCED that wait for the word (R501), a module on the wrong lane (R25). -/
structure Link where
  hostDown : Bool
  lseqTx : Nat
  lseqRx : Nat
  replay : List (Nat × LinkCmd)
  replays : Nat
  discard : Bool
  cmdCred : Nat
  dataCred : Nat
  trainFails : Nat
  retrainTimes : List Nat
  idleRun : Nat
  tags : List LinkCmd
  queue : List LinkCmd
  sb : Tab Bytes
  witness : Tab Nat
  fenced : List LinkCmd
  barred : Bool
  deriving DecidableEq, Repr

end Sys2Proof.Machine
end

