-- ==== Sys2Proof/Machine/Types/Net.lean ====
section
/-! DEFINITION. Front ports and the RDMA transport (11_fabric_transport); the four queue pairs of the Thagrait link (R493) stand in the same
table from 10000h on. -/

namespace Sys2Proof.Machine

/-- A front port beside its registers (R339 to R350): the host took it down, bring-up is running, priorities paused by PFC, the rank of
the master last announced on it, the PTP exchange in progress: sequence of the Sync, when it was sent and received, when the Delay_Req was sent. -/
structure Port where
  hostDown : Bool
  bringUp : Bool
  pause : List Nat
  master : Option Nat
  syncSeq : Option Nat
  t1 : Option Nat
  t2 : Nat
  t3 : Nat
  deriving DecidableEq, Repr

/-- What a received Ethernet frame carries (R341): an ARP request, a Neighbor Solicitation or an Echo Request for an address, a PTP
message (which has rows of its own), a RoCEv2 packet with what the transport checks of it (R351), or anything else. -/
inductive FrameKind where
  | arp (ip : Nat)
  | neighbor (ip : Nat)
  | echo4 (ip : Nat) (data : Bytes)
  | echo6 (ip : Nat) (data : Bytes)
  | ptp
  | roce (icrcOk supported ce : Bool) (qpn : Nat)
  | other
  deriving DecidableEq, Repr

/-- Transport states of a queue pair (R353, R381). -/
inductive QpState where
  | reset | init | rtr | rts | err
  deriving DecidableEq, Repr

/-- What a queue pair serves. -/
inductive QpUse where
  | none
  | admin (cntl : Nat)
  | io (cntl : Nat) (qid : Nat)
  | stream (unit : Nat)
  | peer (k : Nat)
  deriving DecidableEq, Repr

/-- Kinds of message a requester sends (R351, R366). -/
inductive MsgKind where
  | send | write | readReq | flush
  deriving DecidableEq, Repr

/-- A packet sent and not yet covered (R355, R373): PSN, message, place in the message, path and time of its last sending,
number of sendings. -/
structure TxPkt where
  psn : Nat
  msn : Nat
  off : Nat
  path : Nat
  time : Nat
  sends : Nat
  deriving DecidableEq, Repr

/-- What a message is for: nothing further, a chunk of read data, write data to land at an offset, the mirror FLUSH up
to a JSN. -/
inductive MsgWork where
  | none
  | readData (cmd chunk : Nat)
  | writeLand (cmd off : Nat)
  | mirrorFlush (jsn : Nat)
  deriving DecidableEq, Repr

/-- A message at a requester: its number, kind, work, first PSN and count of PSNs once sent, the bytes of its source (of a READ:
those that have arrived) and its length, target key and address, send sequence number. -/
structure TxMsg where
  msn : Nat
  kind : MsgKind
  work : MsgWork
  sent : Bool
  first : Nat
  count : Nat
  data : Bytes
  len : Nat
  key : Nat
  va : Nat
  ssn : Nat
  deriving DecidableEq, Repr

/-- A message being received in Spread mode (R371): MSN, kind, first PSN and count of PSNs, length, the VA of a FLUSH, failed (R376). -/
structure RxMsg where
  msn : Nat
  kind : MsgKind
  first : Nat
  count : Nat
  len : Nat
  va : Nat
  failed : Bool
  deriving DecidableEq, Repr

/-- A Spread path (R374): suspended, times of recent losses. -/
structure Path where
  suspended : Bool
  losses : List Nat
  deriving DecidableEq, Repr

/-- A queue pair (R348, R353 to R376). As requester: next PSN and MSN and SSN, oldest uncovered PSN or newest BASE_PSN received, timeouts without progress, RNR waits, messages (oldest
first) and uncovered packets, RECV_LIMIT received, paths. As responder: ePSN or BASE_PSN, whether the gap's NAK has been sent,
packets not yet acknowledged, receive buffers free, bytes of the message being received and what remains of a WRITE, messages
in progress, PSNs received beyond BASE_PSN, MSN_DONE, FLUSH_MSN, time of the last SACK and path it goes to, time of the last CNP.
`rate` is R in bit/s (log entry 14). -/
structure Qp where
  st : QpState
  spread : Bool
  gen : Nat
  dest : Nat
  port : Nat
  inst : Nat
  pmtu : Nat
  use : QpUse
  peerFlush : Bool
  sendPsn : Nat
  nextMsn : Nat
  nextSsn : Nat
  timeouts : Nat
  rnrCount : Nat
  rnrWait : Bool
  msgs : List TxMsg
  pkts : List TxPkt
  ackPsn : Nat
  recvLimit : Nat
  doneRx : Nat
  paths : Tab Path
  nextPath : Nat
  recvPsn : Nat
  nakSent : Bool
  ackPending : Nat
  recvFree : Nat
  recvLen : Option Nat
  writeVa : Nat
  writeKey : Nat
  writeLeft : Nat
  rx : List RxMsg
  seen : List Nat
  msnDone : Nat
  ssnDone : Nat
  flushMsn : Nat
  lastSack : Nat
  sackPath : Nat
  lastCnp : Option Nat
  rate : Nat
  calm : Nat
  cnps : Nat
  txBytes : Nat
  rxBytes : Nat
  retx : Nat
  deriving DecidableEq, Repr

/-- A memory window (R377 to R379): tag, base, length, rights (bit 0 write, 1 read, 2 flush), queue pair and its generation. -/
structure MemWin where
  tag : Nat
  base : Nat
  len : Nat
  rights : Nat
  qpn : Nat
  qpGen : Nat
  valid : Bool
  rewriting : Bool
  deriving DecidableEq, Repr

/-- A connection being made or taken down by the connection manager (R352): identifiers, the local queue pair, who opened it, for
a connection to a stream its unit. -/
structure CmConn where
  localId : Nat
  remoteId : Nat
  qpn : Nat
  passive : Bool
  closing : Bool
  deriving DecidableEq, Repr

/-- Front ports and transport. `erred` holds queue pairs that entered ERR with the work of their flushed messages, until their issuers
have taken it (R363). -/
structure NetState where
  ports : Tab Port
  ptpPort : Option Nat
  qps : Tab Qp
  windows : Tab MemWin
  conns : List CmConn
  nextCm : Nat
  erred : List (Nat × List MsgWork)
  deriving DecidableEq, Repr

end Sys2Proof.Machine
end

