-- ==== Sys2Proof/Machine/Types/Nvm.lean ====
section
/-! DEFINITION. Controllers, instances, slices, migration, snapshots and streams (12, 13, 14). -/

namespace Sys2Proof.Machine

/-- A command between accept and completion that is neither a write nor a read of the data path: what it waits for
(commands by number), how far it has come (`prog` 1 past the rate limits, 2 landing or deallocating, 3 sent to the peer or sweeping), `aux` 1
where it is forwarded, the error it will end with, its landed data; of a deallocation the range and chunk reached and the
handles released that keep references (R302). -/
structure NCmd where
  h : CHead
  wait : List Nat
  prog : Nat
  aux : Nat
  status : Nat
  data : Bytes
  landed : Bool
  held : Bool
  range : Nat
  chunk : Nat
  kept : List Nat
  deriving DecidableEq, Repr

/-- An Error Information entry (R402): SQID, CID, status, LBA, NSID. -/
structure ErrEnt where
  count : Nat
  sqid : Nat
  cid : Nat
  status : Nat
  lba : Nat
  nsid : Nat
  deriving DecidableEq, Repr

/-- A controller (R386, R387, R400, R413): instance, host, CC and CSTS, its admin queue pair, its I/O queues with their queue
pairs, granted queues, outstanding event requests (commands by number), log pages whose event has been posted and not read
(R407), features, namespaces changed since the list was read, Error Information entries (newest first), keep-alive timeout and when its timer
last started. -/
structure Ctrl where
  inst : Nat
  host : Bytes
  cc : Nat
  csts : Nat
  qpn : Nat
  qids : List (Nat × Nat)
  granted : Option Nat
  aers : List Nat
  maskedEv : List Nat
  feats : Tab Nat
  changed : List Nat
  errors : List ErrEnt
  errCount : Nat
  kato : Nat
  deriving DecidableEq, Repr

/-- A loss record (R406): the namespace stands for the NSID its readers see. -/
structure LossRec where
  lseq : Nat
  nsg : Nat
  chunk : Nat
  lost : Nat
  cause : Nat
  module : Nat
  flags : Nat
  page : Nat
  handle : Nat
  time : Nat
  deriving DecidableEq, Repr

/-- A snapshot slot of a namespace (R438 to R440). -/
structure Snap where
  id : Nat
  slot : Nat
  label : Nat
  epoch : Nat
  state : Nat
  boundary : Nat
  time : Nat
  root : PagePtr
  deriving DecidableEq, Repr

/-- A namespace (R409 to R412, R438). -/
structure Ns where
  nsg : Nat
  nsid : Nat
  inst : Nat
  mirror2 : Bool
  chunks : Nat
  nuse : Nat
  nuseShown : Nat
  deleting : Bool
  epoch : Nat
  snaps : List Snap
  deriving DecidableEq, Repr

/-- An instance beside its registers (R409, R415): the bucket levels in millionths of a command and thousandths of a byte, when they were
last brought up to date, the rate queue and since when it has not been empty, migrations that have failed in a row, changes of its ANA state. -/
structure Inst where
  subsys : Bytes
  hosts : List Bytes
  bucketCmds : Nat
  bucketBytes : Nat
  rateTime : Nat
  rateQueue : List Nat
  rateSince : Option Nat
  migFails : Nat
  created : Nat
  anaCount : Nat
  deriving DecidableEq, Repr

/-- One queue pair of a slice (R416, R417): an entry is being fetched; completions (status, Dword 0, CID) that wait while the queue in host
memory is full. -/
structure SliceQ where
  sqBase : Nat
  cqBase : Nat
  sqHead : Nat
  sqTail : Nat
  cqHead : Nat
  cqTail : Nat
  phase : Bool
  fetching : Bool
  cqWait : List (Nat × Nat × Nat)
  deriving DecidableEq, Repr

/-- A host-side slice (R416). -/
structure Slice where
  bound : Bool
  inst : Nat
  pasid : Nat
  queues : Tab SliceQ
  nq : Nat
  depth : Nat
  vector : Nat
  gen : Nat
  deriving DecidableEq, Repr

/-- A Fabrics Connect that waits for the host's answer (R413, R423): its queue pair and that context's generation, CID, host NQN, keep-alive
timeout. -/
structure ConnReq where
  qpn : Nat
  qpGen : Nat
  cid : Nat
  host : Bytes
  kato : Nat
  deriving DecidableEq, Repr

/-- A mediated request not yet answered (R421 to R423): its REQ_ID, the admin command by number or the Connect it came from, instance and
generation when it was posted. -/
structure MedReq where
  reqId : Nat
  cmd : Nat
  connect : Option ConnReq
  inst : Nat
  gen : Nat
  deriving DecidableEq, Repr

/-- An entry for the up ring (R421 to R423): type, TAG or REQ_ID, BODY; 0 in the store, 1 in the ring, 2 consumed by the host; answered. -/
structure UpEnt where
  typ : Nat
  tag : Nat
  body : Bytes
  place : Nat
  done : Bool
  deriving DecidableEq, Repr

/-- A set-up command that waits for a number from head 0 (R410): kind as in NUM_REQ, OP, TAG, BODY. -/
structure SetupWait where
  kind : Nat
  op : Nat
  tag : Nat
  body : Bytes
  deriving DecidableEq, Repr

/-- The mediation rings (R418 to R423): up entries in their original order, requests not answered, the next REQ_ID, the phase of the next up
entry, a down entry being fetched, set-up commands that wait for a number. -/
structure Rings where
  ents : List UpEnt
  reqs : List MedReq
  nextReq : Nat
  phase : Bool
  fetching : Bool
  waits : List SetupWait
  deriving DecidableEq, Repr

/-- A command held while its instance's path is in Change (R405, R428, R507), as it arrived; of one restarted, the data that had landed. -/
structure Frozen where
  inst : Nat
  origin : Origin
  sqe : Sqe
  cap : Bytes
  data : Option Bytes
  deriving DecidableEq, Repr

/-- A migration (R427 to R435): instance, whether this head is the source, phase as in `INS_MIG`, reason, when the pause began. -/
structure Migration where
  inst : Nat
  outbound : Bool
  phase : Nat
  reason : Nat
  start : Nat
  deriving DecidableEq, Repr

/-- A frame at the receiver (R454): its number and FLAGS, and of its descriptors (chunk, count, kind) those not yet offered, those offered as
writes, those to be offered again. `datas` are the chunks its DATA descriptors carry, by chunk. -/
structure RxFrame where
  seq : Nat
  todo : List (Nat × Nat × Nat)
  live : List (Nat × Nat × Nat)
  failed : List (Nat × Nat × Nat)
  datas : Tab Bytes
  chunks : Nat
  deriving DecidableEq, Repr

/-- A replication stream (R449 to R457). Of a sender: positions of the two trees still to compare (level, page, both pointers), chunks of the
difference not yet packed (chunk, entry), chunks read (none where lost), the frame being packed, its number, a STREAMSEAL out, numbers of READY and COMMIT, newest
frame sent, sealed frames kept with the chunks and DATA chunks of each, whether D has ended, the receive window. Of a receiver: frames in
progress, frames committed beyond the first gap, END's number, the target LABEL, whether a COMMIT is due and when the last one went. -/
structure Stream where
  qpn : Nat
  begun : Bool
  resumed : Bool
  todo : List (Nat × Nat × PagePtr × PagePtr)
  items : List (Nat × Nat)
  data : Tab (Option Bytes)
  descs : List (Nat × Nat × Nat)
  datas : List Bytes
  seq : Nat
  sealing : Bool
  walked : Bool
  ready : Nat
  commit : Nat
  sent : Nat
  frames : Tab Bytes
  counts : Tab (Nat × Nat)
  key : Nat
  va : Nat
  rx : List RxFrame
  ahead : List Nat
  endSeq : Option Nat
  label : Nat
  commitDue : Bool
  lastCommit : Nat
  deriving DecidableEq, Repr

/-- A reference split of a leaf (R443): namespace, leaf page, epoch it was reserved in, epoch of the snapshot split for, first of its
513 JSNs, whether its handles have been read, the handles still to count (of eight entries each), the records made so far, whether a ticket is out,
control phases that failed, whether it has committed. -/
structure Split where
  nsg : Nat
  leaf : Nat
  epoch : Nat
  snap : Nat
  jsn : Nat
  ready : Bool
  todo : List (List Nat)
  recs : List JRec
  asked : Bool
  tries : Nat
  committed : Bool
  deriving DecidableEq, Repr

/-- A deletion walk of a snapshot (R448): namespace, epoch, whether it has begun, positions still to visit with the snapshot's pointer to
each, the leaf in progress with what is left of its handles, eight at a time, whether
its SNAP_FREED has been emitted. -/
structure DelWalk where
  nsg : Nat
  snap : Nat
  started : Bool
  todo : List (Nat × PagePtr)
  leaf : Option (Nat × PagePtr)
  handles : List (List Nat)
  freed : Bool
  deriving DecidableEq, Repr

/-- Controllers, instances and what belongs to them; `snapAsked` lists the copies of snapshot pages being read (R446),
`given` the numbers head 0 has assigned to head 1 and not seen in use (R410). Of migrations: the count of blobs built here, instances to be
migrated away in turn, bytes moved as of the last balance tick by instance, successive periods of imbalance, the MIG_SEQ expected next, when the
last one ended. -/
structure NvmState where
  cmds : List NCmd
  nextCmd : Nat
  ctrls : Tab Ctrl
  loss : List LossRec
  lseq : Nat
  frozen : List Frozen
  insts : Tab Inst
  namespaces : Tab Ns
  slices : Tab Slice
  rings : Rings
  mig : Option Migration
  migSeq : Nat
  handoff : List Nat
  loads : Tab Nat
  hotPeriods : Nat
  migExpect : Nat
  lastMig : Option Nat
  streams : Tab Stream
  walks : List DelWalk
  splits : List Split
  snapAsked : List Nat
  given : List (Nat × Nat)
  deriving DecidableEq, Repr

end Sys2Proof.Machine
end

