-- ==== Sys2Proof/Machine/Types/Per.lean ====
section
/-! DEFINITION. The peer link, take-over and return (16_two_heads), the Hearth and clocks (18). -/

namespace Sys2Proof.Machine

/-- A heartbeat as received (R494). -/
structure Beat where
  seq : Nat
  gen : Nat
  state : Nat
  flags : Nat
  time : Nat
  durable : Nat
  kseq : Nat
  deriving DecidableEq, Repr

/-- A staging page of the peer's mirror (R498): descriptor bytes and crumbs. -/
structure MirrorPage where
  desc : Bytes
  crumbs : Tab Bytes
  deriving DecidableEq, Repr

/-- A contest (R502): its claim word; modules that took it, modules that hold the peer's claim, modules that returned another word this round,
modules that have answered this round, the round's number, when it began. -/
structure Contest where
  claim : Nat
  won : List Nat
  lost : List Nat
  again : List Nat
  answered : List Nat
  round : Nat
  start : Nat
  deriving DecidableEq, Repr

/-- A request to the peer in flight, by TAG (R497). -/
structure PeerReq where
  tag : Nat
  mtype : Nat
  a : Nat
  b : Nat
  work : MedWork
  deriving DecidableEq, Repr

/-- A joint word being written (R503): modules that are still to take the voter record that goes with it, then those still to take the
word. -/
structure JointWrite where
  word : Nat
  voters : Nat
  records : List Nat
  words : List Nat
  deriving DecidableEq, Repr

/-- Something that a start-up step has read from media (R246 to R249, R306, R309, R463): an anchor copy, a media anchor copy, a leaf of a
head's block table, a journal page of a head with the JSN of its first record, a solo batch with the page images after it and where it lies, one copy
of a power-loss area from a module, one copy of a key store. -/
inductive Found where
  | mapAnchor (b : Bytes)
  | mediaAnchor (b : Bytes)
  | blockLeaf (head m leaf : Nat) (b : Bytes)
  | journal (head first : Nat) (b : Bytes)
  | batch (m crumb : Nat) (b : Bytes)
  | area (m : Nat) (b : Bytes)
  | keyStore (b : Bytes)
  deriving DecidableEq, Repr

/-- The Peer link steward: the head number, the sequence of heartbeats, the last heartbeat and when it came, the mirror of the peer's staging and
journal, whether mirror receive is open, the contest, the voters with the GEN they belong to, a proposal of others, the fence word
presented, a joint word being written; when the peer was found gone and when the present phase of a take-over began, whether this head holds
the peer's tables, namespaces whose root pointers stand in the peer's tree, the peer's last anchors, the sequence of proxy anchors and
the witness values they ask for (module, index, value); the step of a join (R510), the hold-off running, instances to be reclaimed;
requests to the peer in flight, the next TAG, the peer's window keys, the peer's DEVICE_ID, mirror pages that go once
no read holds them (with the JSN field of the RELEASE to be answered, where one asked), what the start found of the other head (R512),
block-table pages to be read in with their head and key (R271, R506), and
the highest JSN that a filled mirror's FLUSH covers (R510). -/
structure PerState where
  head : Option Nat
  hbSeq : Nat
  last : Option Beat
  lastTime : Nat
  mirror : Tab MirrorPage
  journal : Tab Bytes
  mirrorOpen : Bool
  contest : Option Contest
  voters : Nat
  propose : Option (Nat × Nat)
  fenceWord : Nat
  joint : Option JointWrite
  detectAt : Nat
  phaseAt : Nat
  adopted : Bool
  adoptedNs : List Nat
  anchor : Option Bytes
  proxySeq : Nat
  wanted : List (Nat × Nat × Nat)
  joinStep : Nat
  holdoff : Bool
  reclaim : List Nat
  reqs : List PeerReq
  nextTag : Nat
  windows : Tab Nat
  peerDevice : Nat
  releasing : List (Nat × Option Nat)
  found : List Found
  tables : List (Nat × Nat × PagePtr)
  filled : Nat
  deriving DecidableEq, Repr

/-- A calibration request or run (R560): kind, index, phase (0 none, 1 draining, 2 running), asked for by the host. -/
structure Cal where
  kind : Nat
  index : Nat
  phase : Nat
  host : Bool
  deriving DecidableEq, Repr

/-- The Hearth, clocks and pins (18_hearth_power_start); `frac` is the part of a nanosecond the time base has counted beyond its register, in units of
10^-9 ns; `restore` how far the restore of a power-loss area has come (R310): 1 staging being programmed, 2 anchor, 3 erase. -/
structure HthState where
  pwrGood : Bool
  sysResetL : Bool
  pwrFailL : Bool
  perstL : Bool
  dbgReturnL : Bool
  faultL : Bool
  straps : Nat
  strapsSampled : Nat
  resetHold : Bool
  tripHold : Bool
  stwTimes : Tab (List Nat)
  fenceTimes : List Nat
  offsets : List Int
  frac : Nat
  restore : Nat
  cal : Cal
  calFails : Tab Nat
  calDown : List Nat
  calTemp : Tab Nat
  avsBusy : Option Nat
  flushStart : Nat
  fenceCause : Nat
  deriving DecidableEq, Repr

end Sys2Proof.Machine
end

