-- ==== Sys2Proof/Machine/Types/Tray.lean ====
section
/-! DEFINITION. Tickets, rings, rolls and issuers (03_trays_and_rolls). -/

namespace Sys2Proof.Machine

/-- A ticket (R94). `args` is the 16 bytes of ARGS as a little-endian number; `crc` is the field as it stands. -/
structure Ticket where
  pers : Nat
  plane : Nat
  issuer : Nat
  flags : Nat
  seq : Nat
  inst : Nat
  instGen : Nat
  job : Nat
  inAddr : Nat
  outAddr : Nat
  inLen : Nat
  outLimit : Nat
  args : Nat
  issueNs : Nat
  crc : Nat
  deriving DecidableEq, Repr

/-- State of a used ticket slot (R100): unstarted, retry, running on a roll (with its twin partner as tray × 16 + roll) since a time. -/
inductive SlotState where
  | unstarted
  | retry
  | running (roll : Nat) (partner : Option Nat) (since : Nat)
  deriving DecidableEq, Repr

/-- A used ticket slot with its metadata (R100): state, STOLEN, re-issued after a fault (R102), attempts made, excluded
rolls (tray × 16 + roll), twin signatures waiting for their pair. -/
structure Slot where
  tk : Ticket
  st : SlotState
  stolen : Bool
  reissued : Bool
  attempts : Nat
  excluded : List Nat
  deriving DecidableEq, Repr

/-- What a ticket works for, kept by its issuer: the job that its completion moves on. -/
inductive TkWork where
  | ext
  | chunker (cmd : Nat) (first : Nat) (n : Nat)
  | digest (cmd : Nat) (chunk : Nat)
  | squeeze (cmd : Nat) (chunk : Nat)
  | seal (cmd : Nat) (chunk : Nat)
  | mapwalk (cmd : Nat) (chunk : Nat)
  | place (cmd : Nat) (chunk : Nat)
  | group (jsn : Nat)
  | repoint (slot : Nat)
  | split (nsg : Nat) (leaf : Nat)
  | merge (handle : Nat) (step : Nat)
  | unseal (rd : Nat) (chunk : Nat)
  | unsqueeze (rd : Nat) (chunk : Nat)
  | mover (module : Nat) (handle : Nat)
  | streamSeal (stream : Nat) (seq : Nat)
  | streamOpen (stream : Nat) (seq : Nat)
  deriving DecidableEq, Repr

/-- A ticket its issuer holds outstanding (R98, R101, R104): last known tray, whether it has been issued again after a
CRC failure (R96), its work. -/
structure Outst where
  tk : Ticket
  tray : Option Nat
  crcReissued : Bool
  reissued : Bool
  work : TkWork
  deriving DecidableEq, Repr

/-- A ticket completion (R97). -/
structure Completion where
  issuer : Nat
  seq : Nat
  job : Nat
  inst : Nat
  instGen : Nat
  status : Nat
  tray : Nat
  roll : Nat
  outLen : Nat
  result : Nat
  deriving DecidableEq, Repr

/-- Tickets of one steal on the on-die network (R104). -/
structure Steal where
  src : Nat
  dst : Nat
  slots : List Slot
  deriving DecidableEq, Repr

/-- A move notice (R104): the issuer, the ticket's SEQ and the tray that now holds it. -/
structure MoveNotice where
  issuer : Nat
  seq : Nat
  tray : Nat
  deriving DecidableEq, Repr

/-- What a tray controller keeps beside its registers: ring, TWIN_MASK, PLL locked, polls missed, times of ring CRC failures,
time of the last tray fault, a fence in progress, time it reached Bake, restart wanted (R118). -/
structure TrayX where
  ring : List Slot
  twinMask : Nat
  pll : Bool
  missed : Nat
  crcTimes : List Nat
  lastFault : Option Nat
  fencing : Bool
  bakeSince : Nat
  restart : Bool
  stuck : Bool
  deriving DecidableEq, Repr

/-- What is kept for one roll beside its registers: fences since the start, whether LAST_MM holds a time, blocks since the
last reseed, the twin signature received and not yet paired, by ticket slot sequence. -/
structure RollX where
  fences : Nat
  mmValid : Bool
  blocks : Nat
  sigs : List Nat
  deriving DecidableEq, Repr

/-- The self-test (R114, R115): the roll under test, whether the host asked, the phase (0 none, 1 wait, 2 test, 3 reload), rolls
waiting for a fencing test, and the rotation's place. -/
structure SelfTest where
  phase : Nat
  roll : Nat
  host : Bool
  waiting : List Nat
  rotation : Nat
  deriving DecidableEq, Repr

/-- A group's own state (R113): successive periods at or above HI_PCT. -/
structure Group where
  hot : Nat
  deriving DecidableEq, Repr

/-- What the last 1 ms showed of a group (R113): plane, personality, busy roll time in ns and mean run time in ns. -/
structure GroupTime where
  plane : Nat
  pers : Nat
  busy : Nat
  mean : Nat
  deriving DecidableEq, Repr

/-- Trays, rolls and issuers: trays by number, rolls by tray × 16 + roll, groups by plane × 256 + personality, tickets waiting
to be offered, outstanding tickets of every issuer, completions sent, steals in flight, move notices, times of compare
faults, next SEQ by issuer, the next buffer for a ticket's data. -/
structure TrayState where
  trays : Tab TrayX
  rolls : Tab RollX
  groups : Tab Group
  offers : List Ticket
  outst : List Outst
  cpls : List Completion
  steals : List Steal
  notices : List MoveNotice
  cmpTimes : List Nat
  seqs : Tab Nat
  buf : Nat
  test : SelfTest
  deriving DecidableEq, Repr

end Sys2Proof.Machine
end

