-- ==== Sys2Proof/Syntax.lean ====
section
/-! DEFINITION. The commands of the head: one constructor per row of the opcode table, in its order, with the row's operands. The
mnemonic and the rule of each stand before it. -/

namespace Sys2Proof

open Machine

/-- A command, as it is sent to the head. -/
inductive Instr where
  /-- REGISTER_WRITE (R15). -/
  | registerWrite (a : Nat) (size : Nat) (v : Nat)
  /-- MISALIGNED_ACCESS (R16). -/
  | misalignedAccess (wr : Bool) (a : Nat) (size : Nat) (v : Nat)
  /-- LOW_HALF_READ (R17). -/
  | lowHalfRead (a : Nat)
  /-- HIGH_HALF_READ (R17). -/
  | highHalfRead (a : Nat)
  /-- LOW_HALF_WRITE (R18). -/
  | lowHalfWrite (a : Nat) (v : Nat)
  /-- HIGH_HALF_WRITE (R18). -/
  | highHalfWrite (a : Nat) (v : Nat)
  /-- RW1C_WRITE (R19). -/
  | rw1cWrite (a : Nat) (v : Nat)
  /-- RC_READ (R20). -/
  | rcRead (a : Nat) (size : Nat)
  /-- CLR (R573). -/
  | clr (a : Nat)
  /-- VERIFY (R62). -/
  | verify
  /-- WRITE_SLOT (R63). -/
  | writeSlot (slot : Nat)
  /-- APPLY (R62). -/
  | apply
  /-- APPLY_SLOT (R62). -/
  | applySlot (slot : Nat)
  /-- IMAGE_ABORT (R86). -/
  | imageAbort
  /-- RAISE_SVN (R87). -/
  | raiseSvn
  /-- REAPPLY (R87). -/
  | reapply (region : Nat)
  /-- REVOKE (R87). -/
  | revoke (key : Nat)
  /-- APPLY_OOS (R81). -/
  | applyOos
  /-- IMAGE_FETCH_DONE (R62). -/
  | imageFetchDone (bytes : Bytes)
  /-- QSPI_OPERATION_DONE (R63). -/
  | qspiOperationDone (ok : Bool) (bytes : Bytes)
  /-- SLOT_RECORD_REREAD_DONE (R66). -/
  | slotRecordRereadDone (bytes : Bytes)
  /-- APPLY_RESUME (R84). -/
  | applyResume
  /-- TRAY_REBAKE_SPACING_EXPIRY (R46). -/
  | trayRebakeSpacingExpiry
  /-- REGION_DRAIN_END (R73). -/
  | regionDrainEnd
  /-- REGION_RESTART (R68). -/
  | regionRestart (ok : Bool)
  /-- HEARTH_BANK_LOAD_DONE (R80). -/
  | hearthBankLoadDone
  /-- HEARTH_BANK_SWAP (R80). -/
  | hearthBankSwap
  /-- OOS_PHASE_DONE (R81). -/
  | oosPhaseDone
  /-- TICKET_OFFER (R101). -/
  | ticketOffer (tk : Ticket)
  /-- TICKET_REOFFER (R101). -/
  | ticketReoffer (issuer : Nat) (seq : Nat)
  /-- TICKET_DISPATCH (R102). -/
  | ticketDispatch (t : Nat)
  /-- TICKET_COMPLETE (R97). -/
  | ticketComplete (t : Nat) (r : Nat) (agree : Bool)
  /-- ISSUER_COMPLETION (R98). -/
  | issuerCompletion (issuer : Nat) (seq : Nat)
  /-- TRAY_STEAL (R103). -/
  | traySteal (t : Nat)
  /-- STEAL_RETRY_TIMER (R103). -/
  | stealRetryTimer (t : Nat)
  /-- STEAL_ARRIVAL (R104). -/
  | stealArrival (t : Nat)
  /-- MOVE_NOTICE (R104). -/
  | moveNotice (issuer : Nat) (seq : Nat)
  /-- DRAIN_BOUND_HANDOFF (R605). -/
  | drainBoundHandoff (t : Nat)
  /-- TWIN_RESERVE (R105). -/
  | twinReserve (t : Nat)
  /-- TWIN_SIGNATURE (R106). -/
  | twinSignature (t : Nat) (r : Nat) (sig : Nat)
  /-- TWIN_SIGNATURE_LATE (R106). -/
  | twinSignatureLate (t : Nat) (r : Nat)
  /-- WAKE_DECISION (R111). -/
  | wakeDecision (plane : Nat) (pers : Nat)
  /-- TRAY_PLL_LOCKED (R110). -/
  | trayPllLocked (t : Nat)
  /-- TRAY_CONTROLLER_RESUMED (R110). -/
  | trayControllerResumed (t : Nat)
  /-- SLEEP_DECISION (R111). -/
  | sleepDecision (plane : Nat) (pers : Nat)
  /-- TRAY_GOES_COLD (R110). -/
  | trayGoesCold (t : Nat)
  /-- GROUP_CLOSE (R111). -/
  | groupClose (plane : Nat) (pers : Nat)
  /-- REBALANCE_TICK (R113). -/
  | rebalanceTick (loads : List GroupTime)
  /-- TEST_PERIOD_EXPIRY (R114). -/
  | testPeriodExpiry
  /-- TEST_PERIOD_WRITE (R114). -/
  | testPeriodWrite (v : Nat)
  /-- TEST_REQUEST (R115). -/
  | testRequest (tray : Nat) (roll : Nat) (go : Bool)
  /-- ROLL_TEST_START (R115). -/
  | rollTestStart
  /-- ROLL_TEST_DONE (R115). -/
  | rollTestDone (pass : Bool)
  /-- ROLL_RELOAD_DONE (R115). -/
  | rollReloadDone
  /-- ROLL_WATCHDOG (R116). -/
  | rollWatchdog (t : Nat) (r : Nat)
  /-- SEQUENCER_PARITY_ERROR (R116). -/
  | sequencerParityError (t : Nat) (r : Nat)
  /-- TRAY_POLL (R116). -/
  | trayPoll (missed : Nat)
  /-- TRAY_SELF_CHECK_FAIL (R116). -/
  | traySelfCheckFail (t : Nat)
  /-- TRAY_FENCE_COMPLETE (R116). -/
  | trayFenceComplete (t : Nat)
  /-- MASK_RESEED (R477). -/
  | maskReseed (t : Nat) (r : Nat)
  /-- WRITE (R123). -/
  | write (o : Origin) (e : Sqe) (cap : Bytes)
  /-- WRITE_ADMIT (R127). -/
  | writeAdmit
  /-- DATA_LANDED (R131). -/
  | dataLanded (cmd : Nat)
  /-- BEFORE_IMAGE_DONE (R132). -/
  | beforeImageDone (cmd : Nat) (chunk : Nat)
  /-- COMMAND_GATE (R138). -/
  | commandGate (cmd : Nat)
  /-- MIRROR_FLUSH_ISSUE (R150). -/
  | mirrorFlushIssue
  /-- JOURNAL_PAGE_TIMER (R148). -/
  | journalPageTimer
  /-- SOLO_BATCH_DURABLE (R152). -/
  | soloBatchDurable
  /-- STAGING_PROGRAMMED (R151). -/
  | stagingProgrammed (page : Nat)
  /-- DIRTY_BUDGET_WRITE (R128). -/
  | dirtyBudgetWrite (v : Nat)
  /-- READ (R158). -/
  | read (o : Origin) (e : Sqe) (cap : Bytes)
  /-- READ_ADMIT (R168). -/
  | readAdmit
  /-- READ_LOCATE (R161). -/
  | readLocate (rd : Nat) (chunk : Nat)
  /-- PANTRY_PROBE (R191). -/
  | pantryProbe (cmd : Nat) (chunk : Nat) (bad : Bool)
  /-- PROBE_WAIT_END (R194). -/
  | probeWaitEnd (cmd : Nat) (chunk : Nat)
  /-- INDEX_APPEND_FLUSH (R201). -/
  | indexAppendFlush
  /-- LEARNING_END (R205). -/
  | learningEnd
  /-- WARMING_END (R205). -/
  | warmingEnd
  /-- PAGE_IN_DONE (R239). -/
  | pageInDone (key : Nat)
  /-- MAP_LOOKUP (R253). -/
  | mapLookup (rd : Nat) (chunk : Nat)
  /-- WRITEBACK_START (R245). -/
  | writebackStart
  /-- WRITEBACK_PROGRAMMED (R245). -/
  | writebackProgrammed (slot : Nat)
  /-- ANCHOR_TIMER (R248). -/
  | anchorTimer
  /-- MAP_ANCHOR_CMD (R248). -/
  | mapAnchorCmd
  /-- ANCHOR_DURABLE (R248). -/
  | anchorDurable
  /-- MAP_INVALIDATE (R261). -/
  | mapInvalidate
  /-- INVALIDATE_PHASE_END (R261). -/
  | invalidatePhaseEnd
  /-- RESET_WALK_END (R260). -/
  | resetWalkEnd
  /-- TAG_PARITY_ERROR (R263). -/
  | tagParityError (set : Nat)
  /-- PAGE_REBUILD_DONE (R263). -/
  | pageRebuildDone (key : Nat)
  /-- DRAM_UNCORRECTABLE (R264). -/
  | dramUncorrectable (slot : Bool) (index : Nat)
  /-- MAP_PIN_WRITE (R258). -/
  | mapPinWrite (pin : Nat) (key : Nat) (valid : Bool) (span : Nat)
  /-- BLOCK_SEAL (R270). -/
  | blockSeal (m : Nat) (ebn : Nat)
  /-- BLOCK_READBACK_DONE (R281). -/
  | blockReadbackDone (m : Nat) (ebn : Nat)
  /-- M_PAGE_TIMER (R279). -/
  | mPageTimer (m : Nat)
  /-- GC_START_TRIGGER (R284). -/
  | gcStartTrigger (m : Nat)
  /-- GC_VICTIM_EXAMINE (R286). -/
  | gcVictimExamine (m : Nat) (ebn : Nat)
  /-- VICTIM_ERASE (R289). -/
  | victimErase (m : Nat) (ebn : Nat)
  /-- RECLAIM (R290). -/
  | reclaim (handle : Nat)
  /-- SCRUB_TICK (R294). -/
  | scrubTick (m : Nat)
  /-- SCRUB_ALL (R294). -/
  | scrubAll
  /-- LOSS_WALK (R300). -/
  | lossWalk
  /-- MODULE_FAIL (R300). -/
  | moduleFail (m : Nat)
  /-- MODULE_FAIL_TIMEOUT (R300). -/
  | moduleFailTimeout (m : Nat)
  /-- TALLY_TIMER (R293). -/
  | tallyTimer (m : Nat) (ebn : Nat)
  /-- SWEEP_PHASE_END (R302). -/
  | sweepPhaseEnd
  /-- PLA_SETTLE_END (R308). -/
  | plaSettleEnd
  /-- PLA_SECTIONS_WRITTEN (R308). -/
  | plaSectionsWritten (copy : Nat)
  /-- PLA_FLUSHED (R308). -/
  | plaFlushed
  /-- IDLE_BLOCK (R315). -/
  | idleBlock (m : Nat) (ok : Bool)
  /-- ACK (R319). -/
  | ack (m : Nat) (lseq : Nat)
  /-- NAK (R319). -/
  | nak (m : Nat) (lseq : Nat)
  /-- CREDIT (R320). -/
  | credit (m : Nat) (cmds : Nat) (units : Nat)
  /-- MEDIA_FRAME_ERROR (R319). -/
  | mediaFrameError (m : Nat)
  /-- MEDIA_READ_RESPONSE (R323). -/
  | mediaReadResponse (m : Nat) (r : MedResp)
  /-- PROGRAM_RESPONSE (R322). -/
  | programResponse (m : Nat) (r : MedResp)
  /-- ERASE_RESPONSE (R322). -/
  | eraseResponse (m : Nat) (r : MedResp)
  /-- STATUS_RESPONSE (R324). -/
  | statusResponse (m : Nat) (r : MedResp)
  /-- SB_READ_RESPONSE (R329). -/
  | sbReadResponse (m : Nat) (r : MedResp)
  /-- SB_WRITE_RESPONSE (R329). -/
  | sbWriteResponse (m : Nat) (r : MedResp)
  /-- WITNESS_READ_RESPONSE (R330). -/
  | witnessReadResponse (m : Nat) (r : MedResp)
  /-- WITNESS_CAS_RESPONSE (R330). -/
  | witnessCasResponse (m : Nat) (r : MedResp)
  /-- FENCE_RESPONSE (R330). -/
  | fenceResponse (m : Nat) (r : MedResp)
  /-- PLW_RESPONSE (R333). -/
  | plwResponse (m : Nat) (r : MedResp)
  /-- ECHO_RESPONSE (R321). -/
  | echoResponse (m : Nat) (r : MedResp)
  /-- RESPONSE_TIMEOUT (R326). -/
  | responseTimeout (m : Nat) (tag : Nat)
  /-- STATUS_POLL (R324). -/
  | statusPoll (m : Nat)
  /-- LINK_DETECTED (R335). -/
  | linkDetected (m : Nat)
  /-- EQUALISE_DONE (R335). -/
  | equaliseDone (m : Nat)
  /-- BLOCK_LOCK (R335). -/
  | blockLock (m : Nat)
  /-- TRAIN (R334). -/
  | train (m : Nat) (role : Nat) (ver : Nat) (port : Nat) (id : Nat)
  /-- MEDIA_LINK_UP_DONE (R337). -/
  | mediaLinkUpDone (m : Nat)
  /-- MEDIA_SIGNAL_LOSS (R336). -/
  | mediaSignalLoss (m : Nat)
  /-- TRAINING_FAILED (R336). -/
  | trainingFailed (m : Nat)
  /-- LINK_RESTART_TIMER (R336). -/
  | linkRestartTimer (m : Nat)
  /-- MEDIA_BRINGUP_TIMEOUT (R337). -/
  | mediaBringupTimeout (m : Nat)
  /-- LINK_RETRAIN (R335). -/
  | linkRetrain (m : Nat)
  /-- MEDIA_LINK_DOWN (R336). -/
  | mediaLinkDown (m : Nat)
  /-- MEDIA_LINK_UP (R336). -/
  | mediaLinkUp (m : Nat)
  /-- FRAME_RECEIVE (R341). -/
  | frameReceive (p : Nat) (len : Nat) (tags : Nat) (prio : Nat) (fill : Nat) (fcsOk : Bool) (full : Bool) (ipBad : Bool) (k : FrameKind)
  /-- PFC_FRAME (R345). -/
  | pfcFrame (p : Nat) (prio : Nat) (pause : Bool)
  /-- PFC_STORM (R346). -/
  | pfcStorm (p : Nat)
  /-- PORT_LINK_DOWN (R343). -/
  | portLinkDown (p : Nat)
  /-- PORT_LINK_UP (R343). -/
  | portLinkUp (p : Nat)
  /-- PORT_RESTART_TIMER (R343). -/
  | portRestartTimer (p : Nat)
  /-- PORT_DOWN (R380). -/
  | portDown (p : Nat)
  /-- PORT_UP (R380). -/
  | portUp (p : Nat)
  /-- PTP_EVENT_MESSAGE (R349). -/
  | ptpEventMessage (p : Nat) (kind : Nat) (ptpSeq : Nat) (time : Nat)
  /-- PTP_ANNOUNCE (R350). -/
  | ptpAnnounce (p : Nat) (rank : Nat)
  /-- CNP_RECEIVE (R348). -/
  | cnpReceive (n : Nat)
  /-- CC_INTERVAL (R348). -/
  | ccInterval (n : Nat)
  /-- REQ (R352). -/
  | req (remote : Nat) (p : Nat) (dest : Nat) (psn : Nat) (tcp : Nat) (pmtu : Nat) (ip : Nat) (qid : Nat) (spread : Bool) (flush : Bool)
  /-- REP (R352). -/
  | rep (cm : Nat) (remote : Nat) (dest : Nat) (psn : Nat) (spread : Bool)
  /-- RTU (R352). -/
  | rtu (cm : Nat)
  /-- REJ (R352). -/
  | rej (cm : Nat)
  /-- MRA (R352). -/
  | mra (cm : Nat)
  /-- DREQ (R352). -/
  | dreq (cm : Nat)
  /-- DREP (R352). -/
  | drep (cm : Nat)
  /-- RC_SEND_PACKET (R358). -/
  | rcSendPacket (n : Nat) (psn : Nat) (first : Bool) (last : Bool) (len : Nat) (ackReq : Bool)
  /-- RC_WRITE_PACKET (R358). -/
  | rcWritePacket (n : Nat) (psn : Nat) (first : Bool) (last : Bool) (key : Nat) (va : Nat) (len : Nat) (b : Bytes) (ackReq : Bool)
  /-- RC_READ_REQUEST (R378). -/
  | rcReadRequest (n : Nat) (psn : Nat) (key : Nat) (va : Nat) (len : Nat)
  /-- RC_READ_RESPONSE (R355). -/
  | rcReadResponse (n : Nat) (psn : Nat) (last : Bool) (b : Bytes)
  /-- RC_ACK (R355). -/
  | rcAck (n : Nat) (psn : Nat)
  /-- RC_NAK (R360). -/
  | rcNak (n : Nat) (psn : Nat) (syn : Nat)
  /-- RNR_NAK (R361). -/
  | rnrNak (n : Nat) (psn : Nat)
  /-- RC_FLUSH (R357). -/
  | rcFlush (n : Nat) (psn : Nat) (key : Nat) (va : Nat) (len : Nat)
  /-- RC_ATOMIC (R351). -/
  | rcAtomic (n : Nat) (psn : Nat)
  /-- ACK_TIMER (R358). -/
  | ackTimer (n : Nat)
  /-- RETRANSMIT_TIMEOUT (R360). -/
  | retransmitTimeout (n : Nat)
  /-- RNR_TIMER (R361). -/
  | rnrTimer (n : Nat)
  /-- SP_WRITE (R370). -/
  | spWrite (n : Nat) (psn : Nat) (msn : Nat) (len : Nat) (off : Nat) (key : Nat) (va : Nat) (path : Nat) (b : Bytes)
  /-- SP_SEND (R370). -/
  | spSend (n : Nat) (psn : Nat) (msn : Nat) (len : Nat) (off : Nat) (ssn : Nat) (path : Nat) (b : Bytes)
  /-- SP_FLUSH (R375). -/
  | spFlush (n : Nat) (psn : Nat) (msn : Nat) (len : Nat) (off : Nat) (va : Nat) (path : Nat)
  /-- SP_SACK (R373). -/
  | spSack (n : Nat) (base : Nat) (msnDone : Nat) (flushMsn : Nat) (limit : Nat) (bits : Nat)
  /-- SP_NAK (R376). -/
  | spNak (n : Nat) (msn : Nat)
  /-- SACK_TIMER (R372). -/
  | sackTimer (n : Nat)
  /-- SPREAD_RTO (R373). -/
  | spreadRto (n : Nat) (psn : Nat)
  /-- PATH_RESUME (R374). -/
  | pathResume (n : Nat) (path : Nat)
  /-- MW_REWRITE_COMPLETE (R379). -/
  | mwRewriteComplete (w : Nat)
  /-- FLUSH (R395). -/
  | flush (o : Origin) (e : Sqe) (cap : Bytes)
  /-- WRITE_ZEROES (R397). -/
  | writeZeroes (o : Origin) (e : Sqe) (cap : Bytes)
  /-- DATASET_MANAGEMENT (R396). -/
  | datasetManagement (o : Origin) (e : Sqe) (cap : Bytes)
  /-- SECURE_DEALLOCATE (R398). -/
  | secureDeallocate (o : Origin) (e : Sqe) (cap : Bytes)
  /-- GET_LOG_PAGE (R401). -/
  | getLogPage (o : Origin) (e : Sqe) (cap : Bytes)
  /-- IDENTIFY (R400). -/
  | identify (o : Origin) (e : Sqe) (cap : Bytes)
  /-- ABORT (R604). -/
  | abortCommand (o : Origin) (e : Sqe) (cap : Bytes)
  /-- SET_FEATURES (R400). -/
  | setFeatures (o : Origin) (e : Sqe) (cap : Bytes)
  /-- GET_FEATURES (R400). -/
  | getFeatures (o : Origin) (e : Sqe) (cap : Bytes)
  /-- ASYNCHRONOUS_EVENT_REQUEST (R386). -/
  | asynchronousEventRequest (o : Origin) (e : Sqe) (cap : Bytes)
  /-- KEEP_ALIVE (R386). -/
  | keepAlive (o : Origin) (e : Sqe) (cap : Bytes)
  /-- KEEP_ALIVE_EXPIRY (R400). -/
  | keepAliveExpiry (c : Nat)
  /-- NAMESPACE_MANAGEMENT (R386). -/
  | namespaceManagement (o : Origin) (e : Sqe) (cap : Bytes)
  /-- NAMESPACE_ATTACHMENT (R386). -/
  | namespaceAttachment (o : Origin) (e : Sqe) (cap : Bytes)
  /-- CONNECT (R413). -/
  | connect (n : Nat) (e : Sqe) (b : Bytes)
  /-- PROPERTY_GET (R387). -/
  | propertyGet (o : Origin) (e : Sqe) (cap : Bytes)
  /-- PROPERTY_SET (R387). -/
  | propertySet (o : Origin) (e : Sqe) (cap : Bytes)
  /-- DISCONNECT (R387). -/
  | disconnect (o : Origin) (e : Sqe) (cap : Bytes)
  /-- UNSUPPORTED_COMMAND (R388). -/
  | unsupportedCommand (o : Origin) (e : Sqe) (cap : Bytes)
  /-- NUSE_UPDATE (R400). -/
  | nuseUpdate (nsg : Nat)
  /-- DN_TAIL_WRITE (R418). -/
  | dnTailWrite (v : Nat)
  /-- UP_HEAD_WRITE (R418). -/
  | upHeadWrite (v : Nat)
  /-- MQ_ENABLE (R423). -/
  | mqEnable
  /-- CREATE_INSTANCE (R420). -/
  | createInstance (tag : Nat) (b : Bytes)
  /-- DELETE_INSTANCE (R420). -/
  | deleteInstance (tag : Nat) (b : Bytes)
  /-- RESET_INSTANCE (R424). -/
  | resetInstance (tag : Nat) (b : Bytes)
  /-- SET_QOS (R420). -/
  | setQos (tag : Nat) (b : Bytes)
  /-- SET_HOSTS (R420). -/
  | setHosts (tag : Nat) (b : Bytes)
  /-- CREATE_NS (R412). -/
  | createNs (tag : Nat) (b : Bytes)
  /-- DELETE_NS (R412). -/
  | deleteNs (tag : Nat) (b : Bytes)
  /-- BIND_SLICE (R416). -/
  | bindSlice (tag : Nat) (b : Bytes)
  /-- UNBIND_SLICE (R420). -/
  | unbindSlice (tag : Nat) (b : Bytes)
  /-- ANSWER (R423). -/
  | answer (tag : Nat) (b : Bytes)
  /-- RATE_QUEUE_RELEASE (R415). -/
  | rateQueueRelease (inst : Nat)
  /-- SQ_TAIL_DOORBELL (R416). -/
  | sqTailDoorbell (sl : Nat) (queue : Nat) (v : Nat)
  /-- CQ_HEAD_DOORBELL (R416). -/
  | cqHeadDoorbell (sl : Nat) (queue : Nat) (v : Nat)
  /-- BALANCE_TICK (R427). -/
  | balanceTick (load : Nat)
  /-- MIGRATION_FREEZE (R428). -/
  | migrationFreeze (inst : Nat) (reason : Nat)
  /-- MIGRATION_DRAIN_END (R428). -/
  | migrationDrainEnd
  /-- MIGRATION_PHASE_TIMEOUT (R428). -/
  | migrationPhaseTimeout
  /-- MIG_BLOB (R434). -/
  | migBlob (inst : Nat) (b : Bytes)
  /-- MIG_ACK (R435). -/
  | migAck (inst : Nat) (code : Nat)
  /-- MIG_ABORT (R428). -/
  | migAbort (inst : Nat)
  /-- MIGRATION_THAW_END (R428). -/
  | migrationThawEnd
  /-- SNAPSHOT_CREATE (R441). -/
  | snapshotCreate (o : Origin) (e : Sqe) (cap : Bytes)
  /-- SNAPSHOT_DELETE (R448). -/
  | snapshotDelete (o : Origin) (e : Sqe) (cap : Bytes)
  /-- SNAPSHOT_SEAL (R446). -/
  | snapshotSeal (nsg : Nat) (id : Nat)
  /-- DELETION_WALK_END (R448). -/
  | deletionWalkEnd (nsg : Nat)
  /-- STREAM_START (R457). -/
  | streamStart (u : Nat)
  /-- STREAM_RESUME (R457). -/
  | streamResume (u : Nat)
  /-- STREAM_STOP (R457). -/
  | streamStop (u : Nat)
  /-- BEGIN (R456). -/
  | begin (u : Nat) (crcOk : Bool) (reason : Nat) (id : Nat) (arg : Nat)
  /-- READY (R457). -/
  | ready (u : Nat) (crcOk : Bool) (id : Nat) (seq : Nat) (arg : Nat) (arg2 : Nat)
  /-- COMMIT (R453). -/
  | commit (u : Nat) (crcOk : Bool) (id : Nat) (seq : Nat)
  /-- RESEND (R455). -/
  | resend (u : Nat) (crcOk : Bool) (id : Nat) (seq : Nat)
  /-- END (R456). -/
  | endStream (u : Nat) (crcOk : Bool) (id : Nat) (seq : Nat)
  /-- DONE (R457). -/
  | doneStream (u : Nat) (crcOk : Bool) (id : Nat)
  /-- HALT (R457). -/
  | haltMsg (u : Nat) (crcOk : Bool) (reason : Nat) (id : Nat)
  /-- REPLICATION_FRAME (R454). -/
  | replicationFrame (u : Nat) (slot : Nat)
  /-- FRAME_COMMITTED (R454). -/
  | frameCommitted (u : Nat) (seq : Nat)
  /-- CHUNK_RETRY_TIMER (R454). -/
  | chunkRetryTimer (u : Nat) (seq : Nat)
  /-- REPLICA_CREATED (R456). -/
  | replicaCreated (u : Nat)
  /-- PROVISION (R486). -/
  | provision (cfm : Nat)
  /-- ENROLL (R486). -/
  | enroll (cfm : Nat) (slot : Nat)
  /-- FIELD_LOCK (R486). -/
  | fieldLock (cfm : Nat)
  /-- RETURN (R487). -/
  | returnHead (cfm : Nat)
  /-- CHALLENGE (R488). -/
  | challenge
  /-- RESPOND (R488). -/
  | respond
  /-- RAISE (R473). -/
  | raise (dom : Nat)
  /-- RAISE_PHASE_END (R473). -/
  | raisePhaseEnd
  /-- REPL_SET (R489). -/
  | replSet (slot : Nat)
  /-- REPL_CLEAR (R489). -/
  | replClear (slot : Nat)
  /-- TRNG_TEST_FAIL (R477). -/
  | trngTestFail
  /-- TRNG_RESTART (R477). -/
  | trngRestart (ok : Bool)
  /-- CIPHER_GO (R479). -/
  | cipherGo (n : Nat)
  /-- CIPHER_ABORT (R480). -/
  | cipherAbort (n : Nat)
  /-- CIPHER_KEY_WRITE (R478). -/
  | cipherKeyWrite (n : Nat) (k : Nat) (hctx : Bool) (v : Nat)
  /-- CIPHER_BLOCK_DONE (R479). -/
  | cipherBlockDone (n : Nat)
  /-- DIGEST_INIT (R482). -/
  | digestInit (alg : Nat) (mac : Bool) (keyLen : Nat)
  /-- DIGEST_KEY_WRITE (R482). -/
  | digestKeyWrite (v : Nat)
  /-- DIGEST_DATA_WRITE (R482). -/
  | digestDataWrite (v : Nat)
  /-- DIGEST_FINAL (R483). -/
  | digestFinal (n : Nat) (v : Nat)
  /-- DIGEST_RESULT_READ (R483). -/
  | digestResultRead (k : Nat)
  /-- COMPRESSION_DONE (R481). -/
  | compressionDone (n : Nat)
  /-- HELLO (R464). -/
  | helloMsg (device : Nat) (array : Nat) (facts : Nat) (b : Bytes)
  /-- KEX (R464). -/
  | kexMsg (b : Bytes)
  /-- CONFIRM (R464). -/
  | confirmMsg (b : Bytes)
  /-- TRANSFER (R465). -/
  | transferMsg (b : Bytes)
  /-- PAIR_FAIL (R466). -/
  | pairFailMsg (cause : Nat)
  /-- PAIRING_RETRY (R496). -/
  | pairingRetry
  /-- HEARTBEAT_TIMER (R494). -/
  | heartbeatTimer
  /-- HEARTBEAT (R494). -/
  | heartbeatFrame (sub : Nat) (b : Bytes)
  /-- HEARTBEAT_LOSS (R499). -/
  | heartbeatLoss
  /-- SELF_FENCE (R499). -/
  | selfFenceFrame
  /-- PER_SELF_FENCE (R495). -/
  | perSelfFence
  /-- PAIRING_TIMEOUT (R499). -/
  | pairingTimeout
  /-- CONTEST_ROUND_END (R502). -/
  | contestRoundEnd
  /-- CONTEST_TIMEOUT (R502). -/
  | contestTimeout
  /-- ADOPT_END (R506). -/
  | adoptEnd
  /-- PUBLISH_END (R508). -/
  | publishEnd
  /-- SECURED (R509). -/
  | secured
  /-- JOIN (R510). -/
  | join (word : Nat) (jsn : Nat)
  /-- HANDBACK (R510). -/
  | handback (seq : Nat) (b : Bytes)
  /-- RESYNC_DONE (R510). -/
  | resyncDone (first : Nat) (word : Nat)
  /-- RETURN_HOLDOFF_EXPIRY (R511). -/
  | returnHoldoffExpiry
  /-- ANCHOR (R497). -/
  | anchor (b : Bytes)
  /-- BUDGET (R128). -/
  | budget (mib : Nat)
  /-- WINDOWS (R497). -/
  | windows (stg : Nat) (desc : Nat) (jrn : Nat) (fwd : Nat) (bulk : Nat)
  /-- VOTERS (R503). -/
  | voters (what : Nat) (gen : Nat) (kind : Nat)
  /-- RELEASE (R498). -/
  | release (what : Nat) (jsn : Nat)
  /-- RELEASE_ACK (R151). -/
  | releaseAck (what : Nat) (jsn : Nat)
  /-- REC_REQ (R242). -/
  | recReq (tag : Nat) (handle : Nat) (mode : Nat) (dom : Nat)
  /-- REC_RESP (R242). -/
  | recResp (tag : Nat) (status : Nat) (body : Bytes)
  /-- REC_END (R242). -/
  | recEnd (handle : Nat) (what : Nat)
  /-- DROP (R198). -/
  | drop (h : Nat)
  /-- DROP_ACK (R198). -/
  | dropAck (h : Nat)
  /-- READ_REQ (R164). -/
  | readReq (tag : Nat) (what : Nat) (key : Nat) (va : Nat)
  /-- READ_RESP (R164). -/
  | readResp (tag : Nat) (st : Nat)
  /-- TALLY (R293). -/
  | tally (what : Nat) (n : Nat)
  /-- SWEEP_REQ (R302). -/
  | sweepReq (dom : Nat)
  /-- SWEEP_DONE (R302). -/
  | sweepDone (dom : Nat)
  /-- FWD_CMD (R404). -/
  | fwdCmd (what : Nat) (off : Nat) (len : Nat) (b : Bytes)
  /-- FWD_CHUNK (R404). -/
  | fwdChunk (what : Nat) (k : Nat) (off : Nat) (mask : Nat)
  /-- FWD_CPL (R404). -/
  | fwdCpl (what : Nat) (b : Bytes)
  /-- NUM_REQ (R410). -/
  | numReq (kind : Nat)
  /-- NUM_RESP (R410). -/
  | numResp (kind : Nat) (num : Nat)
  /-- INST_SYNC (R409). -/
  | instSync (inst : Nat) (deleted : Bool) (b : Bytes)
  /-- LINE_REQ (R430). -/
  | lineReq (line : Nat)
  /-- LINE (R430). -/
  | lineMsg (line : Nat) (dirty : Bool) (jsn : Nat) (b : Bytes)
  /-- LINE_WB (R430). -/
  | lineWb (line : Nat)
  /-- PERST (R538). -/
  | perst (reset : Nat)
  /-- FUNCTION_LEVEL_RESET (R537). -/
  | functionLevelReset
  /-- ENDPOINT_READY (R537). -/
  | endpointReady
  /-- BUS_MASTER_DISABLE (R535). -/
  | busMasterDisable (d3 : Bool)
  /-- BUS_MASTER_ENABLE (R536). -/
  | busMasterEnable
  /-- MSIX_UNMASK (R530). -/
  | msixUnmask (vector : Nat)
  /-- MSIX_HOLDOFF_EXPIRY (R531). -/
  | msixHoldoffExpiry (sl : Nat)
  /-- DMA_READ_COMPLETION (R533). -/
  | dmaReadCompletion (tag : Nat) (status : Nat) (hdr : Bytes) (b : Bytes)
  /-- COMPLETION_TIMEOUT (R533). -/
  | completionTimeout (tag : Nat)
  /-- TLP_RECEIVE (R532). -/
  | tlpReceive (tlp : Tlp)
  /-- BAR2_ACCESS (R520). -/
  | bar2Access (wr : Bool) (off : Nat) (size : Nat) (v : Nat)
  /-- UNCORRECTABLE_INTERNAL_ERROR (R534). -/
  | uncorrectableInternalError
  /-- POWER_ON (R549). -/
  | powerOn
  /-- PWR_GOOD_FALL (R549). -/
  | pwrGoodFall
  /-- SYS_RESET (R549). -/
  | sysReset
  /-- POWER_FAIL (R554). -/
  | powerFail
  /-- POWER_RESTORED (R556). -/
  | powerRestored
  /-- PORT_HOLD_EXPIRY (R555). -/
  | portHoldExpiry
  /-- HEARTH_FAULT (R541). -/
  | hearthFault
  /-- RESET_HOLD_END (R541). -/
  | resetHoldEnd
  /-- STARTUP_STEP_DONE (R551). -/
  | startupStepDone (l : List Found)
  /-- TEMPERATURE_SAMPLE (R546). -/
  | temperatureSample (degrees : Nat)
  /-- TIME_DISAGREEMENT (R544). -/
  | timeDisagreement
  /-- STEWARD_FAILURE (R548). -/
  | stewardFailure (stw : Nat) (ok : Bool)
  /-- FENCE_RESTART (R559). -/
  | fenceRestart
  /-- RESTART (R559). -/
  | restart
  /-- CALIBRATION_REQUEST (R560). -/
  | calibrationRequest (calKind : Nat) (index : Nat) (go : Bool)
  /-- CALIBRATION_DRAIN_END (R560). -/
  | calibrationDrainEnd
  /-- CALIBRATION_DONE (R560). -/
  | calibrationDone (ok : Bool)
  /-- AVS_RESPONSE (R586). -/
  | avsResponse (ok : Bool)
  /-- EVENT_POST (R566). -/
  | eventPost (ev : Ev)
  /-- EVENT_WRITE (R566). -/
  | eventWrite
  /-- INFO (R577). -/
  | info (pecBad : Bool)
  /-- SET_PTR (R577). -/
  | setPtr (pecBad : Bool) (block : Bytes)
  /-- READ_REC (R577). -/
  | readRec (pecBad : Bool)
  /-- SMBUS_TIMEOUT (R592). -/
  | smbusTimeout
  /-- JTAG_TRST (R593). -/
  | jtagTrst
  /-- BYPASS (R593). -/
  | bypass
  /-- SAMPLE_PRELOAD (R593). -/
  | samplePreload (pins : List (Nat × Bool)) (cells : List (Nat × Bool))
  /-- IDCODE (R593). -/
  | idcode
  /-- EXTEST (R593). -/
  | extest
  /-- EXTEST_PULSE (R593). -/
  | extestPulse
  /-- EXTEST_TRAIN (R593). -/
  | extestTrain
  /-- CLAMP (R593). -/
  | clamp
  /-- HIGHZ (R593). -/
  | highz
  /-- THAGRAIT_SUBLINK_DOWN (R491). -/
  | thagraitSublinkDown (sub : Nat)
  /-- THAGRAIT_SUBLINK_UP (R491). -/
  | thagraitSublinkUp (sub : Nat)
  /-- SYS_RESET_RELEASE (R547). -/
  | sysResetRelease
  /-- PERST_RELEASE (R594). -/
  | perstRelease
  /-- PCIE_LINK_UP (R538). -/
  | pcieLinkUp (speed : Nat) (width : Nat) (flit : Bool)
  /-- FUSE_PROGRAMMING_DONE (R486). -/
  | fuseProgrammingDone (ok : Bool)
  /-- PFC_PAUSE_EXPIRY (R345). -/
  | pfcPauseExpiry (p : Nat) (prio : Nat)
  /-- D3HOT_EXIT (R535). -/
  | d3hotExit
  deriving DecidableEq, Repr

end Sys2Proof
end

