-- ==== Sys2Proof/Machine/Bits.lean ====
section
/-! DEFINITION. Bit fields, byte order and check codes. Little-endian throughout (R10), CRC-32C of R11. -/

namespace Sys2Proof.Machine

/-- The `n` bytes of `v`, least significant first. -/
def leBytes (n v : Nat) : Bytes :=
  match n with
  | 0 => []
  | k + 1 => BitVec.ofNat 8 v :: leBytes k (v / 256)

/-- The number that bytes spell, least significant first. -/
def leNat (b : Bytes) : Nat :=
  match b with
  | [] => 0
  | x :: r => x.toNat + 256 * leNat r

/-- The `n` bytes of `v`, most significant first (octet strings of R47 and the standards). -/
def beBytes (n v : Nat) : Bytes := (leBytes n v).reverse

/-- The number that an octet string spells, most significant first. -/
def beNat (b : Bytes) : Nat := leNat b.reverse

/-- `n` zero bytes. -/
def zeros (n : Nat) : Bytes := List.replicate n 0#8

/-- The `n` bytes at offset `o`; bytes past the end read as zero. -/
def slice (b : Bytes) (o n : Nat) : Bytes :=
  let c := (b.drop o).take n
  c ++ zeros (n - c.length)

/-- The little-endian number of `n` bytes at offset `o`. -/
def fieldAt (b : Bytes) (o n : Nat) : Nat := leNat (slice b o n)

/-- `b` with `d` written over it at offset `o`. -/
def overlay (b : Bytes) (o : Nat) (d : Bytes) : Bytes :=
  slice b 0 o ++ d ++ b.drop (o + d.length)

/-- Bits [lo+w-1:lo] of a number. -/
def bitsAt (v lo w : Nat) : Nat := v / 2 ^ lo % 2 ^ w

/-- A number with bits [lo+w-1:lo] replaced. -/
def setBitsAt (v lo w x : Nat) : Nat :=
  v % 2 ^ lo + (x % 2 ^ w) * 2 ^ lo + v / 2 ^ (lo + w) * 2 ^ (lo + w)

/-- One bit of a number. -/
def bitAt (v i : Nat) : Bool := v / 2 ^ i % 2 == 1

/-- A Bool as the bit 0 or 1. -/
def b2n (b : Bool) : Nat := if b then 1 else 0

/-- `a` is newer than `b` in a wrapping `w`-bit sequence: (a - b) mod 2^w lies in 1 to 2^(w-1) - 1 (R571). -/
def newerW (w a b : Nat) : Bool :=
  let d := (a + 2 ^ w - b % 2 ^ w) % 2 ^ w
  decide (1 ≤ d ∧ d < 2 ^ (w - 1))

/-- One step of the CRC-32C shift register, reflected polynomial 82F63B78h (R11). -/
def crcBit (c : W32) : W32 := if c.getLsbD 0 then (c >>> 1) ^^^ 0x82F63B78#32 else c >>> 1

/-- One byte through the CRC-32C register. -/
def crcByte (c : W32) (b : Byte) : W32 :=
  crcBit (crcBit (crcBit (crcBit (crcBit (crcBit (crcBit (crcBit (c ^^^ b.setWidth 32))))))))

/-- CRC-32C (R11): initial value and final XOR all ones, reflected; check value E3069283h. -/
def crc32c (b : Bytes) : W32 := (b.foldl crcByte 0xFFFFFFFF#32) ^^^ 0xFFFFFFFF#32

/-- CRC-32C of bytes as a number. -/
def crcNat (b : Bytes) : Nat := (crc32c b).toNat

end Sys2Proof.Machine
end

