-- ==== Sys2Proof/Machine/Crypto.lean ====
section
/-! DEFINITION. The published algorithms the spec names: SHA-256, SHA-384 and SHA-512 (FIPS 180-4), HMAC (FIPS 198-1), AES-256
(FIPS 197), AES-CMAC (SP 800-38B), GCM (SP 800-38D), XTS (SP 800-38E), the KDF of R467 (SP 800-108) and P-384 (FIPS 186-5). The
algorithms themselves stand in those standards: PRESUMED (log entry 4). -/

namespace Sys2Proof.Machine

/-- Round constants of SHA-512. -/
def shaK512 : List Nat :=
  [0x428A2F98D728AE22, 0x7137449123EF65CD, 0xB5C0FBCFEC4D3B2F, 0xE9B5DBA58189DBBC,
   0x3956C25BF348B538, 0x59F111F1B605D019, 0x923F82A4AF194F9B, 0xAB1C5ED5DA6D8118,
   0xD807AA98A3030242, 0x12835B0145706FBE, 0x243185BE4EE4B28C, 0x550C7DC3D5FFB4E2,
   0x72BE5D74F27B896F, 0x80DEB1FE3B1696B1, 0x9BDC06A725C71235, 0xC19BF174CF692694,
   0xE49B69C19EF14AD2, 0xEFBE4786384F25E3, 0x0FC19DC68B8CD5B5, 0x240CA1CC77AC9C65] ++
  [0x2DE92C6F592B0275, 0x4A7484AA6EA6E483, 0x5CB0A9DCBD41FBD4, 0x76F988DA831153B5,
   0x983E5152EE66DFAB, 0xA831C66D2DB43210, 0xB00327C898FB213F, 0xBF597FC7BEEF0EE4,
   0xC6E00BF33DA88FC2, 0xD5A79147930AA725, 0x06CA6351E003826F, 0x142929670A0E6E70,
   0x27B70A8546D22FFC, 0x2E1B21385C26C926, 0x4D2C6DFC5AC42AED, 0x53380D139D95B3DF,
   0x650A73548BAF63DE, 0x766A0ABB3C77B2A8, 0x81C2C92E47EDAEE6, 0x92722C851482353B] ++
  [0xA2BFE8A14CF10364, 0xA81A664BBC423001, 0xC24B8B70D0F89791, 0xC76C51A30654BE30,
   0xD192E819D6EF5218, 0xD69906245565A910, 0xF40E35855771202A, 0x106AA07032BBD1B8,
   0x19A4C116B8D2D0C8, 0x1E376C085141AB53, 0x2748774CDF8EEB99, 0x34B0BCB5E19B48A8,
   0x391C0CB3C5C95A63, 0x4ED8AA4AE3418ACB, 0x5B9CCA4F7763E373, 0x682E6FF3D6B2B8A3,
   0x748F82EE5DEFB2FC, 0x78A5636F43172F60, 0x84C87814A1F0AB72, 0x8CC702081A6439EC] ++
  [0x90BEFFFA23631E28, 0xA4506CEBDE82BDE9, 0xBEF9A3F7B2C67915, 0xC67178F2E372532B,
   0xCA273ECEEA26619C, 0xD186B8C721C0C207, 0xEADA7DD6CDE0EB1E, 0xF57D4F7FEE6ED178,
   0x06F067AA72176FBA, 0x0A637DC5A2C898A6, 0x113F9804BEF90DAE, 0x1B710B35131C471B,
   0x28DB77F523047D84, 0x32CAAB7B40C72493, 0x3C9EBE0A15C9BEBC, 0x431D67C49C100D4C,
   0x4CC5D4BECB3E42B6, 0x597F299CFC657E2A, 0x5FCB6FAB3AD6FAEC, 0x6C44198C4A475817]

/-- Round constants of SHA-256. -/
def shaK256 : List Nat :=
  [0x428A2F98, 0x71374491, 0xB5C0FBCF, 0xE9B5DBA5, 0x3956C25B, 0x59F111F1, 0x923F82A4, 0xAB1C5ED5,
   0xD807AA98, 0x12835B01, 0x243185BE, 0x550C7DC3, 0x72BE5D74, 0x80DEB1FE, 0x9BDC06A7, 0xC19BF174,
   0xE49B69C1, 0xEFBE4786, 0x0FC19DC6, 0x240CA1CC, 0x2DE92C6F, 0x4A7484AA, 0x5CB0A9DC, 0x76F988DA,
   0x983E5152, 0xA831C66D, 0xB00327C8, 0xBF597FC7, 0xC6E00BF3, 0xD5A79147, 0x06CA6351, 0x14292967] ++
  [0x27B70A85, 0x2E1B2138, 0x4D2C6DFC, 0x53380D13, 0x650A7354, 0x766A0ABB, 0x81C2C92E, 0x92722C85,
   0xA2BFE8A1, 0xA81A664B, 0xC24B8B70, 0xC76C51A3, 0xD192E819, 0xD6990624, 0xF40E3585, 0x106AA070,
   0x19A4C116, 0x1E376C08, 0x2748774C, 0x34B0BCB5, 0x391C0CB3, 0x4ED8AA4A, 0x5B9CCA4F, 0x682E6FF3,
   0x748F82EE, 0x78A5636F, 0x84C87814, 0x8CC70208, 0x90BEFFFA, 0xA4506CEB, 0xBEF9A3F7, 0xC67178F2]

/-- Initial state of SHA-512. -/
def shaH512 : List Nat :=
  [0x6A09E667F3BCC908, 0xBB67AE8584CAA73B, 0x3C6EF372FE94F82B, 0xA54FF53A5F1D36F1,
   0x510E527FADE682D1, 0x9B05688C2B3E6C1F, 0x1F83D9ABFB41BD6B, 0x5BE0CD19137E2179]

/-- Initial state of SHA-384. -/
def shaH384 : List Nat :=
  [0xCBBB9D5DC1059ED8, 0x629A292A367CD507, 0x9159015A3070DD17, 0x152FECD8F70E5939,
   0x67332667FFC00B31, 0x8EB44A8768581511, 0xDB0C2E0D64F98FA7, 0x47B5481DBEFA4FA4]

/-- Initial state of SHA-256. -/
def shaH256 : List Nat :=
  [0x6A09E667, 0xBB67AE85, 0x3C6EF372, 0xA54FF53A, 0x510E527F, 0x9B05688C, 0x1F83D9AB, 0x5BE0CD19]

/-- The AES substitution box. -/
def aesS : List Nat :=
  [0x63, 0x7C, 0x77, 0x7B, 0xF2, 0x6B, 0x6F, 0xC5, 0x30, 0x01, 0x67, 0x2B, 0xFE, 0xD7, 0xAB, 0x76,
   0xCA, 0x82, 0xC9, 0x7D, 0xFA, 0x59, 0x47, 0xF0, 0xAD, 0xD4, 0xA2, 0xAF, 0x9C, 0xA4, 0x72, 0xC0,
   0xB7, 0xFD, 0x93, 0x26, 0x36, 0x3F, 0xF7, 0xCC, 0x34, 0xA5, 0xE5, 0xF1, 0x71, 0xD8, 0x31, 0x15,
   0x04, 0xC7, 0x23, 0xC3, 0x18, 0x96, 0x05, 0x9A, 0x07, 0x12, 0x80, 0xE2, 0xEB, 0x27, 0xB2, 0x75] ++
  [0x09, 0x83, 0x2C, 0x1A, 0x1B, 0x6E, 0x5A, 0xA0, 0x52, 0x3B, 0xD6, 0xB3, 0x29, 0xE3, 0x2F, 0x84,
   0x53, 0xD1, 0x00, 0xED, 0x20, 0xFC, 0xB1, 0x5B, 0x6A, 0xCB, 0xBE, 0x39, 0x4A, 0x4C, 0x58, 0xCF,
   0xD0, 0xEF, 0xAA, 0xFB, 0x43, 0x4D, 0x33, 0x85, 0x45, 0xF9, 0x02, 0x7F, 0x50, 0x3C, 0x9F, 0xA8,
   0x51, 0xA3, 0x40, 0x8F, 0x92, 0x9D, 0x38, 0xF5, 0xBC, 0xB6, 0xDA, 0x21, 0x10, 0xFF, 0xF3, 0xD2] ++
  [0xCD, 0x0C, 0x13, 0xEC, 0x5F, 0x97, 0x44, 0x17, 0xC4, 0xA7, 0x7E, 0x3D, 0x64, 0x5D, 0x19, 0x73,
   0x60, 0x81, 0x4F, 0xDC, 0x22, 0x2A, 0x90, 0x88, 0x46, 0xEE, 0xB8, 0x14, 0xDE, 0x5E, 0x0B, 0xDB,
   0xE0, 0x32, 0x3A, 0x0A, 0x49, 0x06, 0x24, 0x5C, 0xC2, 0xD3, 0xAC, 0x62, 0x91, 0x95, 0xE4, 0x79,
   0xE7, 0xC8, 0x37, 0x6D, 0x8D, 0xD5, 0x4E, 0xA9, 0x6C, 0x56, 0xF4, 0xEA, 0x65, 0x7A, 0xAE, 0x08] ++
  [0xBA, 0x78, 0x25, 0x2E, 0x1C, 0xA6, 0xB4, 0xC6, 0xE8, 0xDD, 0x74, 0x1F, 0x4B, 0xBD, 0x8B, 0x8A,
   0x70, 0x3E, 0xB5, 0x66, 0x48, 0x03, 0xF6, 0x0E, 0x61, 0x35, 0x57, 0xB9, 0x86, 0xC1, 0x1D, 0x9E,
   0xE1, 0xF8, 0x98, 0x11, 0x69, 0xD9, 0x8E, 0x94, 0x9B, 0x1E, 0x87, 0xE9, 0xCE, 0x55, 0x28, 0xDF,
   0x8C, 0xA1, 0x89, 0x0D, 0xBF, 0xE6, 0x42, 0x68, 0x41, 0x99, 0x2D, 0x0F, 0xB0, 0x54, 0xBB, 0x16]

/-- The inverse AES substitution box. -/
def aesSI : List Nat :=
  [0x52, 0x09, 0x6A, 0xD5, 0x30, 0x36, 0xA5, 0x38, 0xBF, 0x40, 0xA3, 0x9E, 0x81, 0xF3, 0xD7, 0xFB,
   0x7C, 0xE3, 0x39, 0x82, 0x9B, 0x2F, 0xFF, 0x87, 0x34, 0x8E, 0x43, 0x44, 0xC4, 0xDE, 0xE9, 0xCB,
   0x54, 0x7B, 0x94, 0x32, 0xA6, 0xC2, 0x23, 0x3D, 0xEE, 0x4C, 0x95, 0x0B, 0x42, 0xFA, 0xC3, 0x4E,
   0x08, 0x2E, 0xA1, 0x66, 0x28, 0xD9, 0x24, 0xB2, 0x76, 0x5B, 0xA2, 0x49, 0x6D, 0x8B, 0xD1, 0x25] ++
  [0x72, 0xF8, 0xF6, 0x64, 0x86, 0x68, 0x98, 0x16, 0xD4, 0xA4, 0x5C, 0xCC, 0x5D, 0x65, 0xB6, 0x92,
   0x6C, 0x70, 0x48, 0x50, 0xFD, 0xED, 0xB9, 0xDA, 0x5E, 0x15, 0x46, 0x57, 0xA7, 0x8D, 0x9D, 0x84,
   0x90, 0xD8, 0xAB, 0x00, 0x8C, 0xBC, 0xD3, 0x0A, 0xF7, 0xE4, 0x58, 0x05, 0xB8, 0xB3, 0x45, 0x06,
   0xD0, 0x2C, 0x1E, 0x8F, 0xCA, 0x3F, 0x0F, 0x02, 0xC1, 0xAF, 0xBD, 0x03, 0x01, 0x13, 0x8A, 0x6B] ++
  [0x3A, 0x91, 0x11, 0x41, 0x4F, 0x67, 0xDC, 0xEA, 0x97, 0xF2, 0xCF, 0xCE, 0xF0, 0xB4, 0xE6, 0x73,
   0x96, 0xAC, 0x74, 0x22, 0xE7, 0xAD, 0x35, 0x85, 0xE2, 0xF9, 0x37, 0xE8, 0x1C, 0x75, 0xDF, 0x6E,
   0x47, 0xF1, 0x1A, 0x71, 0x1D, 0x29, 0xC5, 0x89, 0x6F, 0xB7, 0x62, 0x0E, 0xAA, 0x18, 0xBE, 0x1B,
   0xFC, 0x56, 0x3E, 0x4B, 0xC6, 0xD2, 0x79, 0x20, 0x9A, 0xDB, 0xC0, 0xFE, 0x78, 0xCD, 0x5A, 0xF4] ++
  [0x1F, 0xDD, 0xA8, 0x33, 0x88, 0x07, 0xC7, 0x31, 0xB1, 0x12, 0x10, 0x59, 0x27, 0x80, 0xEC, 0x5F,
   0x60, 0x51, 0x7F, 0xA9, 0x19, 0xB5, 0x4A, 0x0D, 0x2D, 0xE5, 0x7A, 0x9F, 0x93, 0xC9, 0x9C, 0xEF,
   0xA0, 0xE0, 0x3B, 0x4D, 0xAE, 0x2A, 0xF5, 0xB0, 0xC8, 0xEB, 0xBB, 0x3C, 0x83, 0x53, 0x99, 0x61,
   0x17, 0x2B, 0x04, 0x7E, 0xBA, 0x77, 0xD6, 0x26, 0xE1, 0x69, 0x14, 0x63, 0x55, 0x21, 0x0C, 0x7D]

/-- Rotate right within `w` bits. -/
def rotr (w x n : Nat) : Nat := (x >>> n) ||| ((x <<< (w - n)) % 2 ^ w)

/-- Parameters of one SHA-2 function: word width, the four sigma functions' amounts, constants, initial state, output bytes. -/
structure Sha2 where
  w : Nat
  bigS0 : Nat × Nat × Nat
  bigS1 : Nat × Nat × Nat
  smallS0 : Nat × Nat × Nat
  smallS1 : Nat × Nat × Nat
  k : List Nat
  init : List Nat
  out : Nat
  deriving DecidableEq, Repr

/-- SHA-256. -/
def sha256P : Sha2 := ⟨32, (2, 13, 22), (6, 11, 25), (7, 18, 3), (17, 19, 10), shaK256, shaH256, 32⟩
/-- SHA-512. -/
def sha512P : Sha2 := ⟨64, (28, 34, 39), (14, 18, 41), (1, 8, 7), (19, 61, 6), shaK512, shaH512, 64⟩
/-- SHA-384. -/
def sha384P : Sha2 := ⟨64, (28, 34, 39), (14, 18, 41), (1, 8, 7), (19, 61, 6), shaK512, shaH384, 48⟩

/-- Bytes of one block. -/
def Sha2.block (h : Sha2) : Nat := h.w * 2

/-- Sigma of three rotations. -/
def sigRot (w x : Nat) (r : Nat × Nat × Nat) : Nat := rotr w x r.1 ^^^ rotr w x r.2.1 ^^^ rotr w x r.2.2
/-- Sigma of two rotations and a shift. -/
def sigShift (w x : Nat) (r : Nat × Nat × Nat) : Nat := rotr w x r.1 ^^^ rotr w x r.2.1 ^^^ (x >>> r.2.2)

/-- The message schedule, newest word first: `n` further words after the sixteen given. -/
def shaSchedule (h : Sha2) : Nat → List Nat → List Nat
  | 0, ws => ws
  | n + 1, ws =>
    shaSchedule h n (((sigShift h.w (ws.getD 1 0) h.smallS1 + ws.getD 6 0 +
      sigShift h.w (ws.getD 14 0) h.smallS0 + ws.getD 15 0) % 2 ^ h.w) :: ws)

/-- One round over the eight working variables. -/
def shaRound (h : Sha2) (st : List Nat) (kw : Nat × Nat) : List Nat :=
  match st with
  | [a, b, c, d, e, f, g, hh] =>
    let t1 := hh + sigRot h.w e h.bigS1 + ((e &&& f) ^^^ ((2 ^ h.w - 1 - e) &&& g)) + kw.1 + kw.2
    let t2 := sigRot h.w a h.bigS0 + ((a &&& b) ^^^ (a &&& c) ^^^ (b &&& c))
    [(t1 + t2) % 2 ^ h.w, a, b, c, (d + t1) % 2 ^ h.w, e, f, g]
  | other => other

/-- One compression: the state after a block of bytes. -/
def shaCompress (h : Sha2) (st : List Nat) (blk : Bytes) : List Nat :=
  let ws := (List.range 16).map fun i => beNat (slice blk (i * (h.w / 8)) (h.w / 8))
  let sched := (shaSchedule h (h.k.length - 16) ws.reverse).reverse
  let fin := (h.k.zip sched).foldl (shaRound h) st
  (st.zip fin).map fun p => (p.1 + p.2) % 2 ^ h.w

/-- Compress `n` whole blocks of `b`. -/
def shaBlocks (h : Sha2) : Nat → List Nat → Bytes → List Nat
  | 0, st, _ => st
  | n + 1, st, b => shaBlocks h n (shaCompress h st (b.take h.block)) (b.drop h.block)

/-- The padding after a message of `len` bytes. -/
def shaPad (h : Sha2) (len : Nat) : Bytes :=
  let lb := h.w / 4
  0x80#8 :: (zeros ((2 * h.block - 1 - lb - len % h.block) % h.block) ++ beBytes lb (len * 8))

/-- The digest bytes of a state. -/
def shaOut (h : Sha2) (st : List Nat) : Bytes := ((st.map (beBytes (h.w / 8))).flatten).take h.out

/-- The digest of a message. -/
def sha (h : Sha2) (m : Bytes) : Bytes :=
  let p := m ++ shaPad h m.length
  shaOut h (shaBlocks h (p.length / h.block) h.init p)

/-- Byte-wise exclusive or, as long as the shorter. -/
def xorB (a b : Bytes) : Bytes := List.zipWith (· ^^^ ·) a b

/-- HMAC (FIPS 198-1). -/
def hmac (h : Sha2) (key m : Bytes) : Bytes :=
  let k0 := if key.length > h.block then sha h key else key
  let k := k0 ++ zeros (h.block - k0.length)
  sha h (xorB k (List.replicate h.block 0x5C#8) ++ sha h (xorB k (List.replicate h.block 0x36#8) ++ m))

/-- Multiply by x in the AES field. -/
def xtime (b : Byte) : Byte := if b.getLsbD 7 then (b <<< 1) ^^^ 0x1B#8 else b <<< 1

/-- Multiply in the AES field, `n` bits of the second factor. -/
def gfMul8 : Nat → Byte → Byte → Byte
  | 0, _, _ => 0#8
  | n + 1, a, b => (if b.getLsbD 0 then a else 0#8) ^^^ gfMul8 n (xtime a) (b >>> 1)

/-- Substitute one byte. -/
def subB (b : Byte) : Byte := BitVec.ofNat 8 (aesS.getD b.toNat 0)
/-- Substitute one byte, inverse box. -/
def subBI (b : Byte) : Byte := BitVec.ofNat 8 (aesSI.getD b.toNat 0)

/-- The AES-256 key schedule, newest word first: words `i` to 59. -/
def aesExpand : Nat → Nat → Byte → List Bytes → List Bytes
  | 0, _, _, ws => ws
  | n + 1, i, rc, ws =>
    let prev := ws.getD 0 []
    let t := if i % 8 = 0 then xorB ((prev.drop 1 ++ prev.take 1).map subB) [rc, 0#8, 0#8, 0#8]
      else if i % 8 = 4 then prev.map subB else prev
    aesExpand n (i + 1) (if i % 8 = 0 then xtime rc else rc) (xorB (ws.getD 7 []) t :: ws)

/-- The fifteen round keys of a 32-byte key. -/
def aesKeys (key : Bytes) : List Bytes :=
  let w0 := (List.range 8).map fun i => slice key (4 * i) 4
  let ws := (aesExpand 52 8 0x01#8 w0.reverse).reverse
  (List.range 15).map fun r => (List.range 4).flatMap fun c => ws.getD (4 * r + c) []

/-- Rotate the rows of a state held column by column; `s` is 1 for the cipher and 3 for its inverse. -/
def shiftRows (s : Nat) (b : Bytes) : Bytes :=
  (List.range 16).map fun i => b.getD ((i + 4 * s * (i % 4)) % 16) 0#8

/-- Multiply each column by a circulant of the given first row. -/
def mixCols (m : List Byte) (b : Bytes) : Bytes :=
  (List.range 16).map fun i =>
    (List.range 4).foldl (fun acc j => acc ^^^ gfMul8 8 (b.getD (i / 4 * 4 + j) 0#8) (m.getD ((j + 4 - i % 4) % 4) 0#8)) 0#8

/-- AES-256 on one 16-byte block. -/
def aesEnc (ks : List Bytes) (b : Bytes) : Bytes :=
  let s0 := xorB b (ks.getD 0 [])
  let s := (List.range 13).foldl (fun st r =>
    xorB (mixCols [2#8, 3#8, 1#8, 1#8] (shiftRows 1 (st.map subB))) (ks.getD (r + 1) [])) s0
  xorB (shiftRows 1 (s.map subB)) (ks.getD 14 [])

/-- The inverse of AES-256 on one 16-byte block. -/
def aesDec (ks : List Bytes) (b : Bytes) : Bytes :=
  let s0 := xorB b (ks.getD 14 [])
  let s := (List.range 13).foldl (fun st r =>
    mixCols [14#8, 11#8, 13#8, 9#8] (xorB ((shiftRows 3 st).map subBI) (ks.getD (13 - r) []))) s0
  xorB ((shiftRows 3 s).map subBI) (ks.getD 0 [])

/-- Cut bytes into 16-byte blocks, the last perhaps short. -/
def blocks16 : Nat → Bytes → List Bytes
  | 0, _ => []
  | n + 1, b => if b.isEmpty then [] else b.take 16 :: blocks16 n (b.drop 16)

/-- All 16-byte blocks of a byte string. -/
def allBlocks (b : Bytes) : List Bytes := blocks16 (b.length / 16 + 1) b

/-- Double in the field of CMAC (most significant bit first). -/
def cmacDbl (b : Bytes) : Bytes :=
  let n := beNat b
  beBytes 16 (if n ≥ 2 ^ 127 then ((2 * n) % 2 ^ 128) ^^^ 0x87 else 2 * n)

/-- AES-CMAC (SP 800-38B) under a 32-byte key. -/
def aesCmac (key m : Bytes) : Bytes :=
  let ks := aesKeys key
  let k1 := cmacDbl (aesEnc ks (zeros 16))
  let bs := if m.isEmpty then [[]] else allBlocks m
  let lastB := bs.getLast?.getD []
  let lastX := if lastB.length = 16 then xorB lastB k1
    else xorB (lastB ++ 0x80#8 :: zeros (15 - lastB.length)) (cmacDbl k1)
  aesEnc ks (xorB ((bs.dropLast).foldl (fun c x => aesEnc ks (xorB c x)) (zeros 16)) lastX)

/-- The KDF of R467: counter mode over AES-CMAC, `bits` bits of output. -/
def kdf (ki : Bytes) (purpose : Nat) (context : Bytes) (bits : Nat) : Bytes :=
  (((List.range ((bits + 127) / 128)).flatMap fun i =>
    aesCmac ki (beBytes 4 (i + 1) ++ [BitVec.ofNat 8 purpose, 0#8] ++ context ++ beBytes 4 bits))).take (bits / 8)

/-- Multiply in the field of GCM, most significant bit first, `n` bits left of `x`. -/
def gcmMul : Nat → Nat → Nat → Nat → Nat
  | 0, _, _, z => z
  | n + 1, x, v, z =>
    gcmMul n x (if v % 2 = 1 then (v / 2) ^^^ (0xE1 * 2 ^ 120) else v / 2)
      (if x / 2 ^ n % 2 = 1 then z ^^^ v else z)

/-- GHASH over whole blocks. -/
def ghash (h : Nat) (b : Bytes) : Nat :=
  (allBlocks b).foldl (fun y x => gcmMul 128 (y ^^^ beNat (x ++ zeros (16 - x.length))) h 0) 0

/-- Zero bytes up to a multiple of 16. -/
def pad16 (b : Bytes) : Bytes := b ++ zeros ((16 - b.length % 16) % 16)

/-- The counter stream of GCM over a message. -/
def gcmCtr (ks : List Bytes) (iv : Bytes) (m : Bytes) : Bytes :=
  ((allBlocks m).zipIdx.map fun p => xorB p.1 (aesEnc ks (iv ++ beBytes 4 (p.2 + 2)))).flatten

/-- The 16-byte tag of GCM. -/
def gcmTag (ks : List Bytes) (iv aad c : Bytes) : Bytes :=
  let s := ghash (beNat (aesEnc ks (zeros 16)))
    (pad16 aad ++ pad16 c ++ beBytes 8 (aad.length * 8) ++ beBytes 8 (c.length * 8))
  xorB (beBytes 16 s) (aesEnc ks (iv ++ beBytes 4 1))

/-- AES-256-GCM with a 12-byte IV: ciphertext and tag. -/
def gcmSeal (key iv aad p : Bytes) : Bytes × Bytes :=
  let ks := aesKeys key
  let c := gcmCtr ks iv p
  (c, gcmTag ks iv aad c)

/-- AES-256-GCM opening: the plain text where the tag agrees. -/
def gcmOpen (key iv aad c tag : Bytes) : Option Bytes :=
  let ks := aesKeys key
  if gcmTag ks iv aad c = tag then some (gcmCtr ks iv c) else none

/-- Double in the field of XTS (least significant byte first). -/
def xtsDbl (n : Nat) : Nat := if n ≥ 2 ^ 127 then ((2 * n) % 2 ^ 128) ^^^ 0x87 else 2 * n

/-- XTS over 16-byte blocks, the tweak of each block doubled from the one before. -/
def xtsBlocks (f : Bytes → Bytes) : Nat → Nat → Bytes → Bytes
  | 0, _, _ => []
  | n + 1, t, b =>
    if b.isEmpty then [] else
      let tb := leBytes 16 t
      xorB (f (xorB (b.take 16) tb)) tb ++ xtsBlocks f n (xtsDbl t) (b.drop 16)

/-- AES-256-XTS encryption of a data unit under a 64-byte key. -/
def xtsEnc (key tweak b : Bytes) : Bytes :=
  xtsBlocks (aesEnc (aesKeys (key.take 32))) (b.length / 16 + 1) (leNat (aesEnc (aesKeys (key.drop 32)) tweak)) b

/-- AES-256-XTS decryption of a data unit under a 64-byte key. -/
def xtsDec (key tweak b : Bytes) : Bytes :=
  xtsBlocks (aesDec (aesKeys (key.take 32))) (b.length / 16 + 1) (leNat (aesEnc (aesKeys (key.drop 32)) tweak)) b

/-- The prime of P-384. -/
def p384P : Nat := 2 ^ 384 - 2 ^ 128 - 2 ^ 96 + 2 ^ 32 - 1
/-- The order of the P-384 base point. -/
def p384N : Nat := 0xFFFFFFFFFFFFFFFFFFFFFFFFFFFFFFFFFFFFFFFFFFFFFFFFC7634D81F4372DDF581A0DB248B0A77AECEC196ACCC52973
/-- The coefficient b of P-384. -/
def p384B : Nat := 0xB3312FA7E23EE7E4988E056BE3F82D19181D9C6EFE8141120314088F5013875AC656398D8A2ED19D2A85C8EDD3EC2AEF
/-- The base point of P-384. -/
def p384G : Nat × Nat :=
  (0xAA87CA22BE8B05378EB1C71EF320AD746E1D3B628BA79B9859F741E082542A385502F25DBF55296C3A545E3872760AB7,
   0x3617DE4A96262C6F5D9E98BF9292DC29F8F41DBD289A147CE9DA3113B5F0B8C00A60B1CE1D7E819D7A431D7C90EA0E5F)

/-- Modular power, `n` bits of the exponent from the top. -/
def powMod (m b e : Nat) : Nat → Nat
  | 0 => 1 % m
  | n + 1 =>
    let h := powMod m b (e / 2) n
    if e % 2 = 1 then h * h % m * b % m else h * h % m

/-- Inverse modulo a prime. -/
def invMod (m a : Nat) : Nat := powMod m (a % m) (m - 2) 384

/-- A point of the curve; none is the point at infinity. -/
abbrev Pt := Option (Nat × Nat)

/-- Point addition. -/
def ptAdd (a b : Pt) : Pt :=
  match a, b with
  | none, q => q
  | p, none => p
  | some (x1, y1), some (x2, y2) =>
    if x1 = x2 ∧ (y1 + y2) % p384P = 0 then none
    else
      let l := if x1 = x2 then (3 * x1 * x1 + (p384P - 3)) * invMod p384P (2 * y1) % p384P
        else (y2 + p384P - y1) * invMod p384P (x2 + p384P - x1) % p384P
      let x3 := (l * l + 2 * p384P - x1 - x2) % p384P
      some (x3, (l * (x1 + p384P - x3) + p384P - y1) % p384P)

/-- Scalar multiplication, `n` bits of the scalar. -/
def ptMul (q : Pt) : Nat → Nat → Pt
  | 0, _ => none
  | n + 1, k =>
    let h := ptMul q n (k / 2)
    let d := ptAdd h h
    if k % 2 = 1 then ptAdd d q else d

/-- A point read from 97 bytes: 04h, X, Y, on the curve; none otherwise. -/
def ptRead (b : Bytes) : Option (Nat × Nat) :=
  let x := beNat (slice b 1 48)
  let y := beNat (slice b 49 48)
  if b.length = 97 ∧ b.getD 0 0#8 = 4#8 ∧ x < p384P ∧ y < p384P ∧
      y * y % p384P = (x * x % p384P * x + (p384P - 3) * x + p384B) % p384P then some (x, y) else none

/-- The 97 bytes of a point. -/
def ptWrite (q : Nat × Nat) : Bytes := 4#8 :: (beBytes 48 q.1 ++ beBytes 48 q.2)

/-- ECDSA over P-384 with SHA-384 (FIPS 186-5): whether (r, s) verifies over the message. -/
def ecdsaVerify (pub m r s : Bytes) : Bool :=
  let rn := beNat r
  let sn := beNat s
  match ptRead pub with
  | none => false
  | some q =>
    if rn = 0 ∨ sn = 0 ∨ rn ≥ p384N ∨ sn ≥ p384N then false
    else
      let w := invMod p384N sn
      let e := beNat (sha sha384P m)
      match ptAdd (ptMul (some p384G) 384 (e * w % p384N)) (ptMul (some q) 384 (rn * w % p384N)) with
      | none => false
      | some (x, _) => x % p384N == rn

/-- ECDSA signature with a given per-message number; none where the standard asks for another number. -/
def ecdsaSign (priv k : Nat) (m : Bytes) : Option (Bytes × Bytes) :=
  match ptMul (some p384G) 384 (k % p384N) with
  | none => none
  | some (x, _) =>
    let r := x % p384N
    let s := invMod p384N k * (beNat (sha sha384P m) + r * priv) % p384N
    if r = 0 ∨ s = 0 then none else some (beBytes 48 r, beBytes 48 s)

/-- ECDH over P-384: the shared x-coordinate, 48 bytes; none for a bad point. -/
def ecdh (priv : Nat) (pub : Bytes) : Option Bytes :=
  match ptRead pub with
  | none => none
  | some q =>
    match ptMul (some q) 384 (priv % p384N) with
    | none => none
    | some (x, _) => some (beBytes 48 x)

/-- The public point of a private number. -/
def ecPublic (priv : Nat) : Bytes :=
  match ptMul (some p384G) 384 (priv % p384N) with
  | none => zeros 97
  | some q => ptWrite q

end Sys2Proof.Machine
end

