-- ==== Sys2Proof/Config.lean ====
section
/-! DEFINITION. What an implementation fixes and the spec leaves open: opaque constants that nothing in Lean can evaluate
(log entries 1 and 2). -/

namespace Sys2Proof.Config

/-- A free number for each draw: values the spec leaves open and bits of the true random number generator (log entry 1). -/
opaque freeNat : Nat → Nat

/-- The PORTS record of an image lists a TCP port for connections (R352; where it does so is not stated, log entry 2). -/
opaque listens : Bytes → Nat → Bool

/-- A free byte for each draw and place (log entry 1). -/
opaque freeByte : Nat → Nat → Byte

/-- The value a register field marked Image takes from a region record: the layout of steward payloads is Kilmo's own
(R51), so the record's bytes, the register's SA and the field's lowest bit give a number the spec does not state. -/
opaque imageParam : Bytes → Nat → Nat → Nat

/-- Evoxiern's PCI-SIG vendor identifier (R517), which the spec does not give. -/
opaque vendorId : Nat

/-- Evoxiern's JEP106 manufacturer code (R593), which the spec does not give. -/
opaque jep106 : Nat

end Sys2Proof.Config
end

