-- ==== Sys2Proof/Machine/Store.lean ====
section
/-! DEFINITION. Sparse tables by key, in one canonical form: keys strictly rising. The operations that read and write
them, used by the register file, the DRAM and every indexed structure of the head. -/

namespace Sys2Proof.Machine

/-- The value a table lists under `k`. -/
def tabFind {α : Type} (t : Tab α) (k : Nat) : Option α :=
  match t with
  | [] => none
  | (j, v) :: r => if j = k then some v else tabFind r k

/-- The value under `k`, or `d` where the table lists none. -/
def tabGet {α : Type} (d : α) (t : Tab α) (k : Nat) : α :=
  match tabFind t k with
  | some v => v
  | none => d

/-- The table with `v` listed under `k`. -/
def tabPut {α : Type} (t : Tab α) (k : Nat) (v : α) : Tab α :=
  match t with
  | [] => [(k, v)]
  | (j, w) :: r =>
    if j = k then (k, v) :: r else if k < j then (k, v) :: (j, w) :: r else (j, w) :: tabPut r k v

/-- The table with nothing listed under `k`. -/
def tabDel {α : Type} (t : Tab α) (k : Nat) : Tab α := t.filter fun e => e.1 != k

/-- Write `v` under `k` in a table whose unlisted keys read as `d`: writing `d` removes the entry. -/
def tabSet {α : Type} [DecidableEq α] (d : α) (t : Tab α) (k : Nat) (v : α) : Tab α :=
  if v = d then tabDel t k else tabPut t k v

/-- Change the value under `k` of a table whose unlisted keys read as `d`. -/
def tabMod {α : Type} (d : α) (t : Tab α) (k : Nat) (f : α → α) : Tab α :=
  tabPut t k (f (tabGet d t k))

/-- The lowest natural number below `n` that satisfies `p`. -/
def lowestBelow (n : Nat) (p : Nat → Bool) : Option Nat :=
  (List.range n).find? p

/-- Keys strictly rising. -/
def tabSorted {α : Type} (t : Tab α) : Bool :=
  match t with
  | [] => true
  | (_, _) :: [] => true
  | (j, _) :: (k, w) :: r => decide (j < k) && tabSorted ((k, w) :: r)

/-- No entry equal to what an unlisted key reads as. -/
def tabNoDefault {α : Type} [DecidableEq α] (d : Nat → α) (t : Tab α) : Bool :=
  t.all fun e => decide (e.2 ≠ d e.1)

end Sys2Proof.Machine
end

