-- ==== Sys2Proof/Machine/Types/Img.lean ====
section
/-! DEFINITION. The state of the image loader (02_vexkan_image). A region is keyed by TYPE × 65536 + UNIT (R49). -/

namespace Sys2Proof.Machine

/-- The command the image loader is running (R87), or the start-up fetch of a slot (R60). -/
inductive ImgOp where
  | none | verify | apply | applySlot (slot : Nat) | applyOos | writeSlot (slot : Nat) | reapply (region : Nat)
  | boot (slot : Nat) | raise | revoke (key : Nat)
  deriving DecidableEq, Repr

/-- Steps of a slot write (R63). -/
inductive SlotPhase where
  | erase | program | readBack
  deriving DecidableEq, Repr

/-- Phases of one region's rebake (R73, R80): waiting for its turn, draining, fenced with the record loading, the shadow bank
loading, the swap pause. -/
inductive RebakePhase where
  | waiting | draining | loading | bankLoading | bankPause
  deriving DecidableEq, Repr

/-- Who uses the rebake slot (R45): an apply, a roll-back, REAPPLY, re-balancing, the restart of a faulted tray (R118), or
a tray made spare for a personality (R75). The `Old` ones restart a region with its old record after it failed to restart
with the new one (R70). -/
inductive RebakeOwner where
  | apply | applyOld | rollback | reapply | reapplyOld | rebalance | rebalanceOld | trayRestart | spare | spareOld
  deriving DecidableEq, Repr

/-- The rebake in progress: owner, region key, phase, the record to load and the personality a tray will carry. -/
structure Rebake where
  owner : RebakeOwner
  key : Nat
  phase : RebakePhase
  record : Bytes
  pers : Nat
  deriving DecidableEq, Repr

/-- An apply in progress: the target image, whether out of service (R81) and its phase, regions to do, regions changed with
their old records (newest first), whether it rolls back, the error to leave, whether migrations hold it (R84), the
personality records carried trays take (R67). -/
structure Apply where
  image : Bytes
  oos : Bool
  oosPhase : Nat
  todo : List Nat
  done : List (Nat × Bytes × Nat)
  rollingBack : Bool
  err : Nat
  waiting : Bool
  deriving DecidableEq, Repr

/-- The image loader: pending image and whether it verified, held copy and damaged regions (R66), the record in force in each
region, the record re-read in progress, the command in progress, the slot write, the apply, the rebake slot and the 1 ms tray
spacing (R45, R46), fields the host has written since the start (R44), the two Hearth banks (R80). -/
structure ImgState where
  pending : Option Bytes
  held : Option Bytes
  damaged : List Nat
  loaded : Tab Bytes
  reread : Option (Nat × Nat)
  op : ImgOp
  slotWrite : Option (Nat × SlotPhase)
  apply : Option Apply
  rebake : Option Rebake
  spacing : Bool
  hostSet : List (Nat × Nat)
  bankActive : Bytes
  bankShadow : Bytes
  deriving DecidableEq, Repr

end Sys2Proof.Machine
end

