-- ==== Sys2Proof/Machine/Types/Out.lean ====
section
/-! DEFINITION. What the head sends: the model's own log of outputs (log entry 5). -/

namespace Sys2Proof.Machine

/-- One output of the head. -/
inductive Out where
  /-- Data returned for a host read of BAR0, BAR2, the expansion ROM or configuration space. -/
  | busRead (v : Nat)
  /-- Bytes returned on SMBus. -/
  | smbus (b : Bytes)
  /-- An SMBus transaction not acknowledged. -/
  | smbusNack
  /-- The bits a JTAG data register shifts out. -/
  | jtag (v : Nat)
  /-- An MSI-X message. -/
  | msix (addr data : Nat) (pasid : Option Nat)
  /-- A DMA read request. -/
  | hostRead (tag addr len : Nat) (pasid : Option Nat)
  /-- A DMA write. -/
  | hostWrite (addr : Nat) (b : Bytes) (pasid : Option Nat)
  /-- An AER error message of a class (0 correctable, 1 non-fatal, 2 fatal); class 3 is a completion with status Unsupported Request. -/
  | pcieError (cls : Nat) (err : Nat)
  /-- A command frame on a media link. -/
  | media (m tag opcode flags gen arg0 arg1 : Nat) (payload : Bytes)
  /-- A control block on a media link: its code and a value. -/
  | mediaCtl (m code value : Nat)
  /-- An Ethernet frame that is no RoCEv2 packet (ARP, PFC, PTP, ...): port, kind, content. -/
  | frame (port kind : Nat) (b : Bytes)
  /-- A RoCEv2 packet: queue pair, opcode, PSN, message or syndrome fields, payload. -/
  | packet (qpn opcode psn a b : Nat) (payload : Bytes)
  /-- A connection-manager message: its kind and its two communication identifiers. -/
  | cm (kind localId remoteId : Nat) (arg : Nat)
  /-- A completion capsule to a client: controller, queue, CID, status field (SCT × 256 + SC), DW0, DNR. -/
  | completion (cntl qid cid status dw0 : Nat) (dnr : Bool)
  /-- Data placed in a client's or host's buffer at an offset. -/
  | place (cmd off : Nat) (b : Bytes)
  /-- A frame on the Thagrait link: message type, TAG and body. -/
  | peer (mtype tag : Nat) (body : Bytes)
  /-- A QSPI operation: 0 read, 1 erase, 2 program; address and length. -/
  | qspi (op addr len : Nat)
  /-- A voltage command to the regulator, in mV. -/
  | avs (mv : Nat)
  /-- FAULT_L driven to a level. -/
  | faultL (level : Bool)
  deriving DecidableEq, Repr

end Sys2Proof.Machine
end

