-- ==== Sys2Proof/Machine/Types/Pan.lean ====
section
/-! DEFINITION. The Pantry and content records (06_pantry). -/

namespace Sys2Proof.Machine

/-- An entry of a Pantry bucket (R189), newest last. -/
structure PanEnt where
  tag : Nat
  loc : Nat
  deriving DecidableEq, Repr

/-- A reservation (R193): key (domain, bucket, tag, epoch), the handle, the owner's command and chunk, whether it is a pair's. -/
structure Resv where
  dom : Nat
  bucket : Nat
  tag : Nat
  epoch : Nat
  handle : Nat
  cmd : Nat
  chunk : Nat
  pair : Bool
  deriving DecidableEq, Repr

/-- A hold on a content record (R196): handle, command and chunk; for the peer's holds the command is `peerCmd`. -/
structure Hold where
  handle : Nat
  cmd : Nat
  chunk : Nat
  deriving DecidableEq, Repr

/-- A probe that waits for a reservation's owner (R194). -/
structure ProbeWait where
  cmd : Nat
  chunk : Nat
  ownerCmd : Nat
  deriving DecidableEq, Repr

/-- An append queued for the flash index (R201). -/
structure IdxAppend where
  bucket : Nat
  tag : Nat
  loc : Nat
  deriving DecidableEq, Repr

/-- A slot on its way back to its free list (R198): handle, whether a pair's, whether the peer has confirmed the drop and the
index entry is gone. -/
structure Drop where
  handle : Nat
  pair : Bool
  peerOk : Bool
  indexOk : Bool
  deriving DecidableEq, Repr

/-- The Pantry steward: buckets (newest entry first), slots in use by slice and locator, reservations, holds, waiting probes,
queued index appends, slots being freed, slots seen while learning, records
reported stuck, content pages lost for good, under which no slot is allocated (R240), merged records whose index entry is still to go, the index page the warming walk has reached. -/
structure PanState where
  buckets : Tab (List PanEnt)
  used : Tab Bool
  resv : List Resv
  holds : List Hold
  waits : List ProbeWait
  appends : List IdxAppend
  drops : List Drop
  learned : List Nat
  stuck : List Nat
  noAlloc : List Nat
  unindex : List Nat
  warmAt : Nat
  deriving DecidableEq, Repr

end Sys2Proof.Machine
end

