-- ==== Sys2Proof/Machine/Types/Sec.lean ====
section
/-! DEFINITION. Keys, ciphers, digests and the life cycle (15_keys_and_ciphers). -/

namespace Sys2Proof.Machine

/-- The fuses (R57, R459, R484): key-slot hashes, enrolled and revoked bits, minimum SVN, device identity, device root, the
life-cycle word's bits, maker certificate and debug key hashes, stepping, base MAC address. -/
structure Fuses where
  hashes : Tab Bytes
  revoked : Nat
  minSvn : Nat
  deviceId : Nat
  root : Option Bytes
  rootDestroyed : Bool
  lc : Nat
  certHash : Bytes
  dbgHash : Bytes
  stepping : Nat
  mac : Nat
  deriving DecidableEq, Repr

/-- A tenant key domain of the key store (R462). -/
structure Domain where
  inUse : Bool
  walk : Bool
  epoch : Nat
  tenant : Bytes
  deriving DecidableEq, Repr

/-- The key store (R462, R463). -/
structure KeyStore where
  kseq : Nat
  starts : Nat
  arrayId : Nat
  wrapped : Bytes
  repl : Tab Bytes
  domains : Tab Domain
  deriving DecidableEq, Repr

/-- Pairing in progress (R464 to R466): phase (0 none, 1 certificate being read, 2 HELLO sent, 3 KEX sent, 4 CONFIRM sent, 5 CONFIRM taken and TRANSFER
awaited, 9 failed), both HELLOs and KEXs as sent, the ephemeral private key until the secret is formed, the confirm key, the root of a first
pairing. -/
structure Pairing where
  phase : Nat
  ownHello : Bytes
  peerHello : Bytes
  ownKex : Bytes
  peerKex : Bytes
  priv : Nat
  confirmKey : Bytes
  newRoot : Option Bytes
  deriving DecidableEq, Repr

/-- A raw cipher context beside its registers (R478 to R480): key bytes with a bit for each key word written, derivation context, an abort
waiting for the block boundary, the order of its GO, the source block that has arrived. -/
structure CipherCtx where
  key : Bytes
  keyWords : Nat
  hctx : Bytes
  aborting : Bool
  order : Nat
  block : Option Bytes
  deriving DecidableEq, Repr

/-- A key store on its way to flash (R463): sequence, units still to be programmed, modules whose witness is not written yet, locations
of its two copies. -/
structure KsWrite where
  kseq : Nat
  left : Nat
  cas : List Nat
  locs : List Nat
  deriving DecidableEq, Repr

/-- An epoch raise (R473): domain, the epoch it retires, phase, the command number at the switch, namespaces still to walk with
the next leaf of the first, the write that deallocates what the last leaf held. -/
structure Raise where
  dom : Nat
  old : Nat
  phase : Nat
  mark : Nat
  nss : List Nat
  pos : Nat
  wait : List Nat
  deriving DecidableEq, Repr

/-- A digest context (R481 to R483). -/
structure DigestCtx where
  alg : Nat
  hmac : Bool
  keyLen : Nat
  active : Bool
  key : Bytes
  msg : Bytes
  done : Bool
  busy : Bool
  errs : Nat
  result : Bytes
  deriving DecidableEq, Repr

/-- The Security steward: fuses, array root and key store held, pairing and the transfer key it left (log entry 17), the store being written, whether
it is to be written again, where the durable copies lie, the raise, whether SET or CLEAR runs, cipher and digest contexts, the life-cycle command
being programmed with its slot and data, the nonce given out, failed RESPONDs, whether internal debug is open. -/
structure SecState where
  fuses : Fuses
  root : Option Bytes
  store : Option KeyStore
  pairing : Pairing
  paired : Bool
  xferKey : Bytes
  writing : Option KsWrite
  rewrite : Bool
  ksLocs : List Nat
  raise : Option Raise
  replBusy : Bool
  ciphers : Tab CipherCtx
  goCount : Nat
  digests : Tab DigestCtx
  lcOp : Nat
  lcSlot : Nat
  lcData : Bytes
  nonce : Option Bytes
  responds : Nat
  dbgOpen : Bool
  deriving DecidableEq, Repr

end Sys2Proof.Machine
end

