-- ==== Sys2Proof/Machine/Dev.lean ====
section
/-! DEFINITION. Everything the head holds except the queue of waiting commands. -/

namespace Sys2Proof.Machine

/-- The head. `regs` holds every register of the register tables by SA, unlisted ones at their reset value; `dram` is the
DRAM that tickets address, byte by byte; `freeCtr` counts the free values drawn (log entry 1); `out` is the log of outputs,
oldest first (log entry 5). -/
structure Dev where
  regs : Tab W64
  readLatch : Option (Nat × Nat)
  writeLatch : Option (Nat × Nat)
  dram : List Host.Cell
  freeCtr : Nat
  out : List Out
  evt : EvtState
  jtag : JtagState
  hep : HepState
  img : ImgState
  tray : TrayState
  write : WriteState
  read : ReadState
  pan : PanState
  map : MapState
  med : MedState
  links : Tab Link
  net : NetState
  nvm : NvmState
  sec : SecState
  per : PerState
  hth : HthState
  deriving DecidableEq, Repr

end Sys2Proof.Machine
end

