-- ==== Sys2Proof/Machine/Regs.lean ====
section
/-! DEFINITION. The register tables of the spec (R87, R119, R157, R175, R207, R265, R314, R338, R380, R381, R408,
R437, R458, R489, R516, R539, R561, R578): the structure address (SA, R13) of every register, the place of every field, each
Error counter with its SAT bit, and for each register the access code of each field (R19). -/

namespace Sys2Proof.Machine

/-- A register field: the SA of its register, its lowest bit and its width. -/
structure Field where
  sa : Nat
  lo : Nat
  w : Nat
  deriving DecidableEq, Repr

/-- An Error counter (R571): its SA, the SA of the register with its SAT bit, and that bit. -/
structure ErrCtr where
  sa : Nat
  satSa : Nat
  satBit : Nat
  deriving DecidableEq, Repr

/-- Access codes of a field (R19); reserved bits are listed by no field row. -/
inductive Access where
  | ro | rw | rw1c | rc | wo | hw
  deriving DecidableEq, Repr

/-- One field of a register row. -/
structure FieldRow where
  lo : Nat
  w : Nat
  acc : Access
  deriving DecidableEq, Repr

/-- One row of a register table: the steward, the first unit and how many, the first subunit and how many, the offset,
the stride and count of an indexed register, the width in bits and the fields. -/
structure RegRow where
  stw : Nat
  unit : Nat × Nat
  sub : Nat × Nat
  off : Nat
  rep : Nat × Nat
  bits : Nat
  fields : List FieldRow
  deriving DecidableEq, Repr

/-- The structure address of steward, unit, subunit and offset (R13). -/
def sa (stw unit sub off : Nat) : Nat := stw * 0x400000 + unit * 0x4000 + sub * 0x200 + off

namespace R

def IMG_CMD : Nat := sa 0x1 0x0 0x0 0x0
def IMG_CMD_OP : Field := ⟨IMG_CMD, 0, 4⟩
def IMG_CMD_SLOT : Field := ⟨IMG_CMD, 4, 1⟩
def IMG_CMD_REGION : Field := ⟨IMG_CMD, 8, 8⟩
def IMG_CMD_KEY : Field := ⟨IMG_CMD, 16, 2⟩
def IMG_STATUS : Nat := sa 0x1 0x0 0x0 0x4
def IMG_STATUS_STATE : Field := ⟨IMG_STATUS, 0, 4⟩
def IMG_STATUS_BUSY : Field := ⟨IMG_STATUS, 4, 1⟩
def IMG_STATUS_CMD_REJECTED : Field := ⟨IMG_STATUS, 5, 1⟩
def IMG_STATUS_ERR : Field := ⟨IMG_STATUS, 8, 8⟩
def IMG_STATUS_CUR_REGION : Field := ⟨IMG_STATUS, 16, 16⟩
def IMG_PUSH_ADDR : Nat := sa 0x1 0x0 0x0 0x8
def IMG_PUSH_ADDR_ADDR : Field := ⟨IMG_PUSH_ADDR, 12, 52⟩
def IMG_PUSH_LEN : Nat := sa 0x1 0x0 0x0 0x10
def IMG_PUSH_LEN_LEN : Field := ⟨IMG_PUSH_LEN, 0, 25⟩
def IMG_RUN_ID : Nat := sa 0x1 0x0 0x0 0x18
def IMG_RUN_ID_IMAGE_ID : Field := ⟨IMG_RUN_ID, 0, 64⟩
def IMG_RUN_SVN : Nat := sa 0x1 0x0 0x0 0x20
def IMG_RUN_SVN_SVN : Field := ⟨IMG_RUN_SVN, 0, 16⟩
def IMG_RUN_SVN_MIN_SVN : Field := ⟨IMG_RUN_SVN, 16, 16⟩
def IMG_SLOT_A : Nat := sa 0x1 0x0 0x0 0x28
def IMG_SLOT_A_VALID : Field := ⟨IMG_SLOT_A, 0, 1⟩
def IMG_SLOT_A_ERR : Field := ⟨IMG_SLOT_A, 8, 8⟩
def IMG_SLOT_A_SVN : Field := ⟨IMG_SLOT_A, 16, 16⟩
def IMG_SLOT_B : Nat := sa 0x1 0x0 0x0 0x2C
def IMG_SLOT_B_VALID : Field := ⟨IMG_SLOT_B, 0, 1⟩
def IMG_SLOT_B_ERR : Field := ⟨IMG_SLOT_B, 8, 8⟩
def IMG_SLOT_B_SVN : Field := ⟨IMG_SLOT_B, 16, 16⟩
def IMG_SLOT_A_ID : Nat := sa 0x1 0x0 0x0 0x30
def IMG_SLOT_A_ID_IMAGE_ID : Field := ⟨IMG_SLOT_A_ID, 0, 64⟩
def IMG_SLOT_B_ID : Nat := sa 0x1 0x0 0x0 0x38
def IMG_SLOT_B_ID_IMAGE_ID : Field := ⟨IMG_SLOT_B_ID, 0, 64⟩
def IMG_BOOT : Nat := sa 0x1 0x0 0x0 0x40
def IMG_BOOT_BOOTED : Field := ⟨IMG_BOOT, 0, 2⟩
def IMG_BOOT_ERR_A : Field := ⟨IMG_BOOT, 8, 8⟩
def IMG_BOOT_ERR_B : Field := ⟨IMG_BOOT, 16, 8⟩
def IMG_KEYS : Nat := sa 0x1 0x0 0x0 0x44
def IMG_KEYS_ENROLLED : Field := ⟨IMG_KEYS, 0, 4⟩
def IMG_KEYS_REVOKED : Field := ⟨IMG_KEYS, 4, 4⟩
def IMG_KEYS_RUN_KEY : Field := ⟨IMG_KEYS, 8, 2⟩
def IMG_REBAKES : Nat := sa 0x1 0x0 0x0 0x48
def IMG_REBAKES_COUNT : Field := ⟨IMG_REBAKES, 0, 64⟩
def IMG_REJECTS : Nat := sa 0x1 0x0 0x0 0x50
def IMG_REJECTS_COUNT : Field := ⟨IMG_REJECTS, 0, 32⟩
def IMG_ROLLBACKS : Nat := sa 0x1 0x0 0x0 0x54
def IMG_ROLLBACKS_COUNT : Field := ⟨IMG_ROLLBACKS, 0, 32⟩
def IMG_CNT_SAT : Nat := sa 0x1 0x0 0x0 0x58
def IMG_CNT_SAT_REJECTS_SAT : Field := ⟨IMG_CNT_SAT, 0, 1⟩
def IMG_CNT_SAT_ROLLBACKS_SAT : Field := ⟨IMG_CNT_SAT, 1, 1⟩
def IMG_CNT_SAT_CLR : Field := ⟨IMG_CNT_SAT, 8, 1⟩
def IMG_HBANK : Nat := sa 0x1 0x0 0x0 0x5C
def IMG_HBANK_ACTIVE : Field := ⟨IMG_HBANK, 0, 1⟩
def IMG_HBANK_SHADOW_VALID : Field := ⟨IMG_HBANK, 1, 1⟩
def IMG_GEN : Nat := sa 0x1 0x0 0x0 0x60
def IMG_GEN_GEN : Field := ⟨IMG_GEN, 0, 16⟩
def IMG_GEN_MIXED : Field := ⟨IMG_GEN, 16, 1⟩
def TRY_BAKE : Nat := sa 0x8 0x18 0x0 0x0
def TRY_BAKE_BAKE : Field := ⟨TRY_BAKE, 0, 24⟩
def TRY_FENCED : Nat := sa 0x8 0x18 0x0 0x4
def TRY_FENCED_FENCED : Field := ⟨TRY_FENCED, 0, 24⟩
def TRY_WAKE : Nat := sa 0x8 0x18 0x0 0x8
def TRY_WAKE_WAKE_HI : Field := ⟨TRY_WAKE, 0, 11⟩
def TRY_WAKE_SLEEP_LO : Field := ⟨TRY_WAKE, 16, 11⟩
def TRY_HOLD : Nat := sa 0x8 0x18 0x0 0xC
def TRY_HOLD_SLEEP_HOLD_US : Field := ⟨TRY_HOLD, 0, 16⟩
def TRY_HOLD_MIN_BAKE_US : Field := ⟨TRY_HOLD, 16, 16⟩
def TRY_REBAL : Nat := sa 0x8 0x18 0x0 0x10
def TRY_REBAL_HI_PCT : Field := ⟨TRY_REBAL, 0, 8⟩
def TRY_REBAL_LO_PCT : Field := ⟨TRY_REBAL, 8, 8⟩
def TRY_REBAL_LAST_TRAY : Field := ⟨TRY_REBAL, 16, 5⟩
def TRY_REBAL_LAST_PERS : Field := ⟨TRY_REBAL, 24, 8⟩
def TRY_TEST_PERIOD : Nat := sa 0x8 0x18 0x0 0x14
def TRY_TEST_PERIOD_PERIOD_MS : Field := ⟨TRY_TEST_PERIOD, 0, 16⟩
def TRY_TEST_CMD : Nat := sa 0x8 0x18 0x0 0x18
def TRY_TEST_CMD_TRAY : Field := ⟨TRY_TEST_CMD, 0, 5⟩
def TRY_TEST_CMD_ROLL : Field := ⟨TRY_TEST_CMD, 8, 4⟩
def TRY_TEST_CMD_GO : Field := ⟨TRY_TEST_CMD, 31, 1⟩
def TRY_TEST_STATUS : Nat := sa 0x8 0x18 0x0 0x1C
def TRY_TEST_STATUS_STATE : Field := ⟨TRY_TEST_STATUS, 0, 2⟩
def TRY_TEST_STATUS_RESULT : Field := ⟨TRY_TEST_STATUS, 4, 4⟩
def TRY_TEST_STATUS_TRAY : Field := ⟨TRY_TEST_STATUS, 8, 5⟩
def TRY_TEST_STATUS_ROLL : Field := ⟨TRY_TEST_STATUS, 16, 4⟩
def TRY_CMP_WIN : Nat := sa 0x8 0x18 0x0 0x20
def TRY_CMP_WIN_LEVEL : Field := ⟨TRY_CMP_WIN, 0, 5⟩
def TRY_CMP_FAULTS : Nat := sa 0x8 0x18 0x0 0x28
def TRY_CMP_FAULTS_COUNT : Field := ⟨TRY_CMP_FAULTS, 0, 32⟩
def TRY_ROLL_FENCES : Nat := sa 0x8 0x18 0x0 0x2C
def TRY_ROLL_FENCES_COUNT : Field := ⟨TRY_ROLL_FENCES, 0, 32⟩
def TRY_TRAY_FAULTS : Nat := sa 0x8 0x18 0x0 0x30
def TRY_TRAY_FAULTS_COUNT : Field := ⟨TRY_TRAY_FAULTS, 0, 32⟩
def TRY_CNT_SAT : Nat := sa 0x8 0x18 0x0 0x34
def TRY_CNT_SAT_CMP_SAT : Field := ⟨TRY_CNT_SAT, 0, 1⟩
def TRY_CNT_SAT_FENCES_SAT : Field := ⟨TRY_CNT_SAT, 1, 1⟩
def TRY_CNT_SAT_TFAULT_SAT : Field := ⟨TRY_CNT_SAT, 2, 1⟩
def TRY_CNT_SAT_CLR : Field := ⟨TRY_CNT_SAT, 8, 1⟩
def TRY_REBALANCES : Nat := sa 0x8 0x18 0x0 0x38
def TRY_REBALANCES_COUNT : Field := ⟨TRY_REBALANCES, 0, 64⟩
def TRY_TC_STATE (t : Nat) : Nat := sa 0x8 t 0x10 0x0
def TRY_TC_STATE_POWER (t : Nat) : Field := ⟨TRY_TC_STATE t, 0, 2⟩
def TRY_TC_STATE_PLANE (t : Nat) : Field := ⟨TRY_TC_STATE t, 2, 2⟩
def TRY_TC_STATE_DRAIN (t : Nat) : Field := ⟨TRY_TC_STATE t, 4, 1⟩
def TRY_TC_STATE_GOING_COLD (t : Nat) : Field := ⟨TRY_TC_STATE t, 5, 1⟩
def TRY_TC_STATE_POWER_FLOOR (t : Nat) : Field := ⟨TRY_TC_STATE t, 6, 1⟩
def TRY_TC_STATE_PERS (t : Nat) : Field := ⟨TRY_TC_STATE t, 8, 8⟩
def TRY_TC_STATE_ALLOWED (t : Nat) : Field := ⟨TRY_TC_STATE t, 16, 16⟩
def TRY_TC_ROLLS (t : Nat) : Nat := sa 0x8 t 0x10 0x4
def TRY_TC_ROLLS_USABLE (t : Nat) : Field := ⟨TRY_TC_ROLLS t, 0, 16⟩
def TRY_TC_ROLLS_OUT (t : Nat) : Field := ⟨TRY_TC_ROLLS t, 16, 16⟩
def TRY_TC_DEPTH (t : Nat) : Nat := sa 0x8 t 0x10 0x8
def TRY_TC_DEPTH_UNSTARTED (t : Nat) : Field := ⟨TRY_TC_DEPTH t, 0, 11⟩
def TRY_TC_DEPTH_RUNNING (t : Nat) : Field := ⟨TRY_TC_DEPTH t, 16, 5⟩
def TRY_TC_DONE (t : Nat) : Nat := sa 0x8 t 0x10 0x10
def TRY_TC_DONE_COUNT (t : Nat) : Field := ⟨TRY_TC_DONE t, 0, 64⟩
def TRY_TC_STEAL_IN (t : Nat) : Nat := sa 0x8 t 0x10 0x18
def TRY_TC_STEAL_IN_COUNT (t : Nat) : Field := ⟨TRY_TC_STEAL_IN t, 0, 64⟩
def TRY_TC_STEAL_OUT (t : Nat) : Nat := sa 0x8 t 0x10 0x20
def TRY_TC_STEAL_OUT_COUNT (t : Nat) : Field := ⟨TRY_TC_STEAL_OUT t, 0, 64⟩
def TRY_TC_BAKE_NS (t : Nat) : Nat := sa 0x8 t 0x10 0x28
def TRY_TC_BAKE_NS_NS (t : Nat) : Field := ⟨TRY_TC_BAKE_NS t, 0, 64⟩
def TRY_TC_TWINS (t : Nat) : Nat := sa 0x8 t 0x10 0x30
def TRY_TC_TWINS_COUNT (t : Nat) : Field := ⟨TRY_TC_TWINS t, 0, 64⟩
def TRY_TC_CRC_ERR (t : Nat) : Nat := sa 0x8 t 0x10 0x38
def TRY_TC_CRC_ERR_COUNT (t : Nat) : Field := ⟨TRY_TC_CRC_ERR t, 0, 32⟩
def TRY_TC_MISMATCH (t : Nat) : Nat := sa 0x8 t 0x10 0x3C
def TRY_TC_MISMATCH_COUNT (t : Nat) : Field := ⟨TRY_TC_MISMATCH t, 0, 32⟩
def TRY_TC_SAT (t : Nat) : Nat := sa 0x8 t 0x10 0x40
def TRY_TC_SAT_CRC_SAT (t : Nat) : Field := ⟨TRY_TC_SAT t, 0, 1⟩
def TRY_TC_SAT_MM_SAT (t : Nat) : Field := ⟨TRY_TC_SAT t, 1, 1⟩
def TRY_TC_SAT_CLR (t : Nat) : Field := ⟨TRY_TC_SAT t, 8, 1⟩
def TRY_ROLL_STATE (t r : Nat) : Nat := sa 0x8 t r 0x0
def TRY_ROLL_STATE_STATE (t r : Nat) : Field := ⟨TRY_ROLL_STATE t r, 0, 3⟩
def TRY_ROLL_STATE_PERM (t r : Nat) : Field := ⟨TRY_ROLL_STATE t r, 3, 1⟩
def TRY_ROLL_STATE_LAST_TEST (t r : Nat) : Field := ⟨TRY_ROLL_STATE t r, 4, 2⟩
def TRY_ROLL_DONE (t r : Nat) : Nat := sa 0x8 t r 0x8
def TRY_ROLL_DONE_COUNT (t r : Nat) : Field := ⟨TRY_ROLL_DONE t r, 0, 64⟩
def TRY_ROLL_MISMATCH (t r : Nat) : Nat := sa 0x8 t r 0x10
def TRY_ROLL_MISMATCH_COUNT (t r : Nat) : Field := ⟨TRY_ROLL_MISMATCH t r, 0, 32⟩
def TRY_ROLL_SAT (t r : Nat) : Nat := sa 0x8 t r 0x14
def TRY_ROLL_SAT_MM_SAT (t r : Nat) : Field := ⟨TRY_ROLL_SAT t r, 0, 1⟩
def TRY_ROLL_SAT_CLR (t r : Nat) : Field := ⟨TRY_ROLL_SAT t r, 8, 1⟩
def TRY_ROLL_LAST_MM (t r : Nat) : Nat := sa 0x8 t r 0x18
def TRY_ROLL_LAST_MM_NS (t r : Nat) : Field := ⟨TRY_ROLL_LAST_MM t r, 0, 64⟩
def TRY_ROLL_RESEEDS (t r : Nat) : Nat := sa 0x8 t r 0x20
def TRY_ROLL_RESEEDS_COUNT (t r : Nat) : Field := ⟨TRY_ROLL_RESEEDS t r, 0, 64⟩
def CMQ_DIRTY_BUDGET : Nat := sa 0xC 0x0 0x1 0x0
def CMQ_DIRTY_BUDGET_B_MIB : Field := ⟨CMQ_DIRTY_BUDGET, 0, 24⟩
def CMQ_WR_MODE : Nat := sa 0xC 0x0 0x1 0x4
def CMQ_WR_MODE_SOLO : Field := ⟨CMQ_WR_MODE, 0, 1⟩
def CMQ_WR_MODE_BUDGET_MISMATCH : Field := ⟨CMQ_WR_MODE, 1, 1⟩
def CMQ_WR_MODE_THROTTLED : Field := ⟨CMQ_WR_MODE, 2, 1⟩
def CMQ_WR_MODE_CAUSE_DIRTY : Field := ⟨CMQ_WR_MODE, 3, 1⟩
def CMQ_WR_MODE_CAUSE_CREDITS : Field := ⟨CMQ_WR_MODE, 4, 1⟩
def CMQ_DIRTY_LIMIT : Nat := sa 0xC 0x0 0x1 0x8
def CMQ_DIRTY_LIMIT_MIB : Field := ⟨CMQ_DIRTY_LIMIT, 0, 24⟩
def CMQ_DIRTY_OWN : Nat := sa 0xC 0x0 0x1 0xC
def CMQ_DIRTY_OWN_MIB : Field := ⟨CMQ_DIRTY_OWN, 0, 24⟩
def CMQ_DIRTY_PEER : Nat := sa 0xC 0x0 0x1 0x10
def CMQ_DIRTY_PEER_MIB : Field := ⟨CMQ_DIRTY_PEER, 0, 24⟩
def CMQ_CREDITS : Nat := sa 0xC 0x0 0x1 0x14
def CMQ_CREDITS_FREE : Field := ⟨CMQ_CREDITS, 0, 26⟩
def CMQ_JSN : Nat := sa 0xC 0x0 0x1 0x18
def CMQ_JSN_NEXT : Field := ⟨CMQ_JSN, 0, 32⟩
def CMQ_JSN_DURABLE : Field := ⟨CMQ_JSN, 32, 32⟩
def CMQ_INTERLOCK : Nat := sa 0xC 0x0 0x1 0x20
def CMQ_INTERLOCK_USED : Field := ⟨CMQ_INTERLOCK, 0, 17⟩
def CMQ_WR_CMDS : Nat := sa 0xC 0x0 0x1 0x28
def CMQ_WR_CMDS_COUNT : Field := ⟨CMQ_WR_CMDS, 0, 64⟩
def CMQ_WR_CHUNKS : Nat := sa 0xC 0x0 0x1 0x30
def CMQ_WR_CHUNKS_COUNT : Field := ⟨CMQ_WR_CHUNKS, 0, 64⟩
def CMQ_WR_HITS : Nat := sa 0xC 0x0 0x1 0x38
def CMQ_WR_HITS_COUNT : Field := ⟨CMQ_WR_HITS, 0, 64⟩
def CMQ_WR_ZERO : Nat := sa 0xC 0x0 0x1 0x40
def CMQ_WR_ZERO_COUNT : Field := ⟨CMQ_WR_ZERO, 0, 64⟩
def CMQ_WR_RAW : Nat := sa 0xC 0x0 0x1 0x48
def CMQ_WR_RAW_COUNT : Field := ⟨CMQ_WR_RAW, 0, 64⟩
def CMQ_WR_CRUMBS : Nat := sa 0xC 0x0 0x1 0x50
def CMQ_WR_CRUMBS_COUNT : Field := ⟨CMQ_WR_CRUMBS, 0, 64⟩
def CMQ_WR_RMW : Nat := sa 0xC 0x0 0x1 0x58
def CMQ_WR_RMW_COUNT : Field := ⟨CMQ_WR_RMW, 0, 64⟩
def CMQ_WR_THROTTLE_NS : Nat := sa 0xC 0x0 0x1 0x60
def CMQ_WR_THROTTLE_NS_COUNT : Field := ⟨CMQ_WR_THROTTLE_NS, 0, 64⟩
def CMQ_WR_ACK_NS : Nat := sa 0xC 0x0 0x1 0x68
def CMQ_WR_ACK_NS_COUNT : Field := ⟨CMQ_WR_ACK_NS, 0, 64⟩
def CMQ_WR_SOLO_ACKS : Nat := sa 0xC 0x0 0x1 0x70
def CMQ_WR_SOLO_ACKS_COUNT : Field := ⟨CMQ_WR_SOLO_ACKS, 0, 64⟩
def CMQ_WR_LEN_ERR : Nat := sa 0xC 0x0 0x1 0x78
def CMQ_WR_LEN_ERR_COUNT : Field := ⟨CMQ_WR_LEN_ERR, 0, 32⟩
def CMQ_WR_CAP_ERR : Nat := sa 0xC 0x0 0x1 0x7C
def CMQ_WR_CAP_ERR_COUNT : Field := ⟨CMQ_WR_CAP_ERR, 0, 32⟩
def CMQ_WR_CTRL_FAIL : Nat := sa 0xC 0x0 0x1 0x80
def CMQ_WR_CTRL_FAIL_COUNT : Field := ⟨CMQ_WR_CTRL_FAIL, 0, 32⟩
def CMQ_WR_SAT : Nat := sa 0xC 0x0 0x1 0x84
def CMQ_WR_SAT_LEN_SAT : Field := ⟨CMQ_WR_SAT, 0, 1⟩
def CMQ_WR_SAT_CAP_SAT : Field := ⟨CMQ_WR_SAT, 1, 1⟩
def CMQ_WR_SAT_CTRL_SAT : Field := ⟨CMQ_WR_SAT, 2, 1⟩
def CMQ_WR_SAT_CLR : Field := ⟨CMQ_WR_SAT, 8, 1⟩
def CMQ_RD_POOL : Nat := sa 0xC 0x0 0x2 0x0
def CMQ_RD_POOL_FREE : Field := ⟨CMQ_RD_POOL, 0, 17⟩
def CMQ_RD_POOL_WAITING : Field := ⟨CMQ_RD_POOL, 31, 1⟩
def CMQ_RD_INFLIGHT : Nat := sa 0xC 0x0 0x2 0x4
def CMQ_RD_INFLIGHT_CMDS : Field := ⟨CMQ_RD_INFLIGHT, 0, 19⟩
def CMQ_RD_CMDS : Nat := sa 0xC 0x0 0x2 0x8
def CMQ_RD_CMDS_COUNT : Field := ⟨CMQ_RD_CMDS, 0, 64⟩
def CMQ_RD_CHUNKS : Nat := sa 0xC 0x0 0x2 0x10
def CMQ_RD_CHUNKS_COUNT : Field := ⟨CMQ_RD_CHUNKS, 0, 64⟩
def CMQ_RD_ZERO : Nat := sa 0xC 0x0 0x2 0x18
def CMQ_RD_ZERO_COUNT : Field := ⟨CMQ_RD_ZERO, 0, 64⟩
def CMQ_RD_RAW : Nat := sa 0xC 0x0 0x2 0x20
def CMQ_RD_RAW_COUNT : Field := ⟨CMQ_RD_RAW, 0, 64⟩
def CMQ_RD_STAGED : Nat := sa 0xC 0x0 0x2 0x28
def CMQ_RD_STAGED_COUNT : Field := ⟨CMQ_RD_STAGED, 0, 64⟩
def CMQ_RD_ALT_COPY : Nat := sa 0xC 0x0 0x2 0x30
def CMQ_RD_ALT_COPY_COUNT : Field := ⟨CMQ_RD_ALT_COPY, 0, 64⟩
def CMQ_RD_PEER_PATH : Nat := sa 0xC 0x0 0x2 0x38
def CMQ_RD_PEER_PATH_COUNT : Field := ⟨CMQ_RD_PEER_PATH, 0, 64⟩
def CMQ_RD_BYTES : Nat := sa 0xC 0x0 0x2 0x40
def CMQ_RD_BYTES_COUNT : Field := ⟨CMQ_RD_BYTES, 0, 64⟩
def CMQ_RD_LAT_NS : Nat := sa 0xC 0x0 0x2 0x48
def CMQ_RD_LAT_NS_COUNT : Field := ⟨CMQ_RD_LAT_NS, 0, 64⟩
def CMQ_RD_WAIT_NS : Nat := sa 0xC 0x0 0x2 0x50
def CMQ_RD_WAIT_NS_COUNT : Field := ⟨CMQ_RD_WAIT_NS, 0, 64⟩
def CMQ_RD_LOST : Nat := sa 0xC 0x0 0x2 0x58
def CMQ_RD_LOST_COUNT : Field := ⟨CMQ_RD_LOST, 0, 32⟩
def CMQ_RD_DECODE : Nat := sa 0xC 0x0 0x2 0x5C
def CMQ_RD_DECODE_COUNT : Field := ⟨CMQ_RD_DECODE, 0, 32⟩
def CMQ_RD_UNAVAIL : Nat := sa 0xC 0x0 0x2 0x60
def CMQ_RD_UNAVAIL_COUNT : Field := ⟨CMQ_RD_UNAVAIL, 0, 32⟩
def CMQ_RD_SAT : Nat := sa 0xC 0x0 0x2 0x64
def CMQ_RD_SAT_LOST_SAT : Field := ⟨CMQ_RD_SAT, 0, 1⟩
def CMQ_RD_SAT_DECODE_SAT : Field := ⟨CMQ_RD_SAT, 1, 1⟩
def CMQ_RD_SAT_UNAVAIL_SAT : Field := ⟨CMQ_RD_SAT, 2, 1⟩
def CMQ_RD_SAT_CLR : Field := ⟨CMQ_RD_SAT, 8, 1⟩
def PAN_STATE : Nat := sa 0x11 0x0 0x0 0x0
def PAN_STATE_STATE : Field := ⟨PAN_STATE, 0, 2⟩
def PAN_ENTRIES : Nat := sa 0x11 0x0 0x0 0x4
def PAN_ENTRIES_USED : Field := ⟨PAN_ENTRIES, 0, 32⟩
def PAN_RESV : Nat := sa 0x11 0x0 0x0 0x8
def PAN_RESV_USED : Field := ⟨PAN_RESV, 0, 18⟩
def PAN_HOLDS : Nat := sa 0x11 0x0 0x0 0xC
def PAN_HOLDS_USED : Field := ⟨PAN_HOLDS, 0, 18⟩
def PAN_WARM : Nat := sa 0x11 0x0 0x0 0x10
def PAN_WARM_NEXT_BUCKET : Field := ⟨PAN_WARM, 0, 27⟩
def PAN_PROBES : Nat := sa 0x11 0x0 0x0 0x18
def PAN_PROBES_COUNT : Field := ⟨PAN_PROBES, 0, 64⟩
def PAN_HITS : Nat := sa 0x11 0x0 0x0 0x20
def PAN_HITS_COUNT : Field := ⟨PAN_HITS, 0, 64⟩
def PAN_DEP_HITS : Nat := sa 0x11 0x0 0x0 0x28
def PAN_DEP_HITS_COUNT : Field := ⟨PAN_DEP_HITS, 0, 64⟩
def PAN_MISSES : Nat := sa 0x11 0x0 0x0 0x30
def PAN_MISSES_COUNT : Field := ⟨PAN_MISSES, 0, 64⟩
def PAN_WAITS : Nat := sa 0x11 0x0 0x0 0x38
def PAN_WAITS_COUNT : Field := ⟨PAN_WAITS, 0, 64⟩
def PAN_STALE : Nat := sa 0x11 0x0 0x0 0x40
def PAN_STALE_COUNT : Field := ⟨PAN_STALE, 0, 64⟩
def PAN_INSERTS : Nat := sa 0x11 0x0 0x0 0x48
def PAN_INSERTS_COUNT : Field := ⟨PAN_INSERTS, 0, 64⟩
def PAN_EVICTS : Nat := sa 0x11 0x0 0x0 0x50
def PAN_EVICTS_COUNT : Field := ⟨PAN_EVICTS, 0, 64⟩
def PAN_RELEARNED : Nat := sa 0x11 0x0 0x0 0x58
def PAN_RELEARNED_COUNT : Field := ⟨PAN_RELEARNED, 0, 64⟩
def PAN_IDX_APPENDS : Nat := sa 0x11 0x0 0x0 0x60
def PAN_IDX_APPENDS_COUNT : Field := ⟨PAN_IDX_APPENDS, 0, 64⟩
def PAN_IDX_DROPS : Nat := sa 0x11 0x0 0x0 0x68
def PAN_IDX_DROPS_COUNT : Field := ⟨PAN_IDX_DROPS, 0, 64⟩
def PAN_BG_CHECKED : Nat := sa 0x11 0x0 0x0 0x70
def PAN_BG_CHECKED_COUNT : Field := ⟨PAN_BG_CHECKED, 0, 64⟩
def PAN_BG_MERGED : Nat := sa 0x11 0x0 0x0 0x78
def PAN_BG_MERGED_COUNT : Field := ⟨PAN_BG_MERGED, 0, 64⟩
def PAN_DRAM_CLR : Nat := sa 0x11 0x0 0x0 0x80
def PAN_DRAM_CLR_COUNT : Field := ⟨PAN_DRAM_CLR, 0, 32⟩
def PAN_CAPPED : Nat := sa 0x11 0x0 0x0 0x84
def PAN_CAPPED_COUNT : Field := ⟨PAN_CAPPED, 0, 32⟩
def PAN_STUCK : Nat := sa 0x11 0x0 0x0 0x88
def PAN_STUCK_COUNT : Field := ⟨PAN_STUCK, 0, 32⟩
def PAN_OWNER_LOST : Nat := sa 0x11 0x0 0x0 0x8C
def PAN_OWNER_LOST_COUNT : Field := ⟨PAN_OWNER_LOST, 0, 32⟩
def PAN_SAT : Nat := sa 0x11 0x0 0x0 0x90
def PAN_SAT_DRAM_SAT : Field := ⟨PAN_SAT, 0, 1⟩
def PAN_SAT_CAPPED_SAT : Field := ⟨PAN_SAT, 1, 1⟩
def PAN_SAT_STUCK_SAT : Field := ⟨PAN_SAT, 2, 1⟩
def PAN_SAT_OWNER_SAT : Field := ⟨PAN_SAT, 3, 1⟩
def PAN_SAT_CLR : Field := ⟨PAN_SAT, 8, 1⟩
def MAP_STATE : Nat := sa 0x10 0x0 0x0 0x0
def MAP_STATE_INV : Field := ⟨MAP_STATE, 0, 2⟩
def MAP_STATE_RESET_WALK : Field := ⟨MAP_STATE, 2, 1⟩
def MAP_STATE_ANCHOR_BUSY : Field := ⟨MAP_STATE, 3, 1⟩
def MAP_STATE_CMD_REJECTED : Field := ⟨MAP_STATE, 4, 1⟩
def MAP_CMD : Nat := sa 0x10 0x0 0x0 0x4
def MAP_CMD_INVALIDATE : Field := ⟨MAP_CMD, 0, 1⟩
def MAP_CMD_ANCHOR : Field := ⟨MAP_CMD, 1, 1⟩
def MAP_GEOM : Nat := sa 0x10 0x0 0x0 0x8
def MAP_GEOM_WAYS : Field := ⟨MAP_GEOM, 0, 8⟩
def MAP_GEOM_LOCKABLE : Field := ⟨MAP_GEOM, 8, 4⟩
def MAP_GEOM_SETS_LOG2 : Field := ⟨MAP_GEOM, 16, 5⟩
def MAP_POLICY : Nat := sa 0x10 0x0 0x0 0xC
def MAP_POLICY_ANCHOR_MS : Field := ⟨MAP_POLICY, 0, 16⟩
def MAP_POLICY_ANCHOR_FILL_PCT : Field := ⟨MAP_POLICY, 16, 8⟩
def MAP_VALID : Nat := sa 0x10 0x0 0x0 0x10
def MAP_VALID_LEVEL : Field := ⟨MAP_VALID, 0, 22⟩
def MAP_DIRTY : Nat := sa 0x10 0x0 0x0 0x14
def MAP_DIRTY_LEVEL : Field := ⟨MAP_DIRTY, 0, 22⟩
def MAP_LOCKED : Nat := sa 0x10 0x0 0x0 0x18
def MAP_LOCKED_LEVEL : Field := ⟨MAP_LOCKED, 0, 20⟩
def MAP_EVB : Nat := sa 0x10 0x0 0x0 0x1C
def MAP_EVB_LEVEL : Field := ⟨MAP_EVB, 0, 15⟩
def MAP_MSHR : Nat := sa 0x10 0x0 0x0 0x20
def MAP_MSHR_LEVEL : Field := ⟨MAP_MSHR, 0, 13⟩
def MAP_FIFO : Nat := sa 0x10 0x0 0x0 0x24
def MAP_FIFO_LEVEL : Field := ⟨MAP_FIFO, 0, 22⟩
def MAP_ANCHOR : Nat := sa 0x10 0x0 0x0 0x28
def MAP_ANCHOR_SEQ : Field := ⟨MAP_ANCHOR, 0, 32⟩
def MAP_ANCHOR_REDO_JSN : Field := ⟨MAP_ANCHOR, 32, 32⟩
def MAP_LAST_LOST : Nat := sa 0x10 0x0 0x0 0x30
def MAP_LAST_LOST_KEY : Field := ⟨MAP_LAST_LOST, 0, 51⟩
def MAP_LOOKUPS : Nat := sa 0x10 0x0 0x0 0x38
def MAP_LOOKUPS_COUNT : Field := ⟨MAP_LOOKUPS, 0, 64⟩
def MAP_HITS : Nat := sa 0x10 0x0 0x0 0x40
def MAP_HITS_COUNT : Field := ⟨MAP_HITS, 0, 64⟩
def MAP_MISSES : Nat := sa 0x10 0x0 0x0 0x48
def MAP_MISSES_COUNT : Field := ⟨MAP_MISSES, 0, 64⟩
def MAP_RESCUES : Nat := sa 0x10 0x0 0x0 0x50
def MAP_RESCUES_COUNT : Field := ⟨MAP_RESCUES, 0, 64⟩
def MAP_PREFETCHES : Nat := sa 0x10 0x0 0x0 0x58
def MAP_PREFETCHES_COUNT : Field := ⟨MAP_PREFETCHES, 0, 64⟩
def MAP_PREFETCH_USED : Nat := sa 0x10 0x0 0x0 0x60
def MAP_PREFETCH_USED_COUNT : Field := ⟨MAP_PREFETCH_USED, 0, 64⟩
def MAP_WRITEBACKS : Nat := sa 0x10 0x0 0x0 0x68
def MAP_WRITEBACKS_COUNT : Field := ⟨MAP_WRITEBACKS, 0, 64⟩
def MAP_EVICTIONS : Nat := sa 0x10 0x0 0x0 0x70
def MAP_EVICTIONS_COUNT : Field := ⟨MAP_EVICTIONS, 0, 64⟩
def MAP_ANCHORS : Nat := sa 0x10 0x0 0x0 0x78
def MAP_ANCHORS_COUNT : Field := ⟨MAP_ANCHORS, 0, 64⟩
def MAP_INVALIDATES : Nat := sa 0x10 0x0 0x0 0x80
def MAP_INVALIDATES_COUNT : Field := ⟨MAP_INVALIDATES, 0, 64⟩
def MAP_PIN_FILLS : Nat := sa 0x10 0x0 0x0 0x88
def MAP_PIN_FILLS_COUNT : Field := ⟨MAP_PIN_FILLS, 0, 64⟩
def MAP_PIN_OVERFLOW : Nat := sa 0x10 0x0 0x0 0x90
def MAP_PIN_OVERFLOW_COUNT : Field := ⟨MAP_PIN_OVERFLOW, 0, 64⟩
def MAP_REMOTE : Nat := sa 0x10 0x0 0x0 0x98
def MAP_REMOTE_COUNT : Field := ⟨MAP_REMOTE, 0, 64⟩
def MAP_STALL_NS : Nat := sa 0x10 0x0 0x0 0xA0
def MAP_STALL_NS_COUNT : Field := ⟨MAP_STALL_NS, 0, 64⟩
def MAP_ALT_COPY : Nat := sa 0x10 0x0 0x0 0xA8
def MAP_ALT_COPY_COUNT : Field := ⟨MAP_ALT_COPY, 0, 32⟩
def MAP_LOST : Nat := sa 0x10 0x0 0x0 0xAC
def MAP_LOST_COUNT : Field := ⟨MAP_LOST, 0, 32⟩
def MAP_TAG_PARITY : Nat := sa 0x10 0x0 0x0 0xB0
def MAP_TAG_PARITY_COUNT : Field := ⟨MAP_TAG_PARITY, 0, 32⟩
def MAP_DATA_UE : Nat := sa 0x10 0x0 0x0 0xB4
def MAP_DATA_UE_COUNT : Field := ⟨MAP_DATA_UE, 0, 32⟩
def MAP_SAT : Nat := sa 0x10 0x0 0x0 0xB8
def MAP_SAT_ALT_SAT : Field := ⟨MAP_SAT, 0, 1⟩
def MAP_SAT_LOST_SAT : Field := ⟨MAP_SAT, 1, 1⟩
def MAP_SAT_PARITY_SAT : Field := ⟨MAP_SAT, 2, 1⟩
def MAP_SAT_UE_SAT : Field := ⟨MAP_SAT, 3, 1⟩
def MAP_SAT_CLR : Field := ⟨MAP_SAT, 8, 1⟩
def MAP_PIN_KEY (k : Nat) : Nat := sa 0x10 0x0 0x0 (0x100 + 16 * k)
def MAP_PIN_KEY_PAGE (k : Nat) : Field := ⟨MAP_PIN_KEY k, 0, 33⟩
def MAP_PIN_KEY_LEVEL (k : Nat) : Field := ⟨MAP_PIN_KEY k, 33, 3⟩
def MAP_PIN_KEY_TREE (k : Nat) : Field := ⟨MAP_PIN_KEY k, 36, 15⟩
def MAP_PIN_CTL (k : Nat) : Nat := sa 0x10 0x0 0x0 (0x108 + 16 * k)
def MAP_PIN_CTL_VALID (k : Nat) : Field := ⟨MAP_PIN_CTL k, 0, 1⟩
def MAP_PIN_CTL_SPAN (k : Nat) : Field := ⟨MAP_PIN_CTL k, 4, 4⟩
def MED_POLICY : Nat := sa 0x12 0x20 0x0 0x0
def MED_POLICY_HOT_AGE_S : Field := ⟨MED_POLICY, 0, 16⟩
def MED_POLICY_SCRUB_DAYS : Field := ⟨MED_POLICY, 16, 8⟩
def MED_POLICY_MODULE_FAIL_S : Field := ⟨MED_POLICY, 24, 8⟩
def MED_GC : Nat := sa 0x12 0x20 0x0 0x4
def MED_GC_GC_START : Field := ⟨MED_GC, 0, 16⟩
def MED_GC_GC_STOP : Field := ⟨MED_GC, 16, 16⟩
def MED_RESERVE : Nat := sa 0x12 0x20 0x0 0x8
def MED_RESERVE_RESERVE_EB : Field := ⟨MED_RESERVE, 0, 16⟩
def MED_RESERVE_PARITY_SLOTS : Field := ⟨MED_RESERVE, 16, 16⟩
def MED_SLOTS : Nat := sa 0x12 0x20 0x0 0xC
def MED_SLOTS_FREE : Field := ⟨MED_SLOTS, 0, 16⟩
def MED_POOL : Nat := sa 0x12 0x20 0x0 0x10
def MED_POOL_CRUMBS : Field := ⟨MED_POOL, 0, 48⟩
def MED_PLA : Nat := sa 0x12 0x20 0x0 0x18
def MED_PLA_MOD_A : Field := ⟨MED_PLA, 0, 5⟩
def MED_PLA_MOD_B : Field := ⟨MED_PLA, 8, 5⟩
def MED_PLA_RESTORED : Field := ⟨MED_PLA, 16, 1⟩
def MED_PLA_FLUSHED : Field := ⟨MED_PLA, 17, 1⟩
def MED_PLA_CAPPED : Field := ⟨MED_PLA, 18, 1⟩
def MED_PLA_CAP : Nat := sa 0x12 0x20 0x0 0x1C
def MED_PLA_CAP_MIB : Field := ⟨MED_PLA_CAP, 0, 24⟩
def MED_SOLO_PAIR : Nat := sa 0x12 0x20 0x0 0x20
def MED_SOLO_PAIR_MOD_A : Field := ⟨MED_SOLO_PAIR, 0, 5⟩
def MED_SOLO_PAIR_MOD_B : Field := ⟨MED_SOLO_PAIR, 8, 5⟩
def MED_SWEEP : Nat := sa 0x12 0x20 0x0 0x24
def MED_SWEEP_ACTIVE : Field := ⟨MED_SWEEP, 0, 1⟩
def MED_SWEEP_PHASE : Field := ⟨MED_SWEEP, 1, 3⟩
def MED_SWEEP_DOMAIN : Field := ⟨MED_SWEEP, 4, 12⟩
def MED_SWEEP_PEER_DONE : Field := ⟨MED_SWEEP, 16, 1⟩
def MED_SWEEP_LEFT : Nat := sa 0x12 0x20 0x0 0x28
def MED_SWEEP_LEFT_BLOCKS : Field := ⟨MED_SWEEP_LEFT, 0, 32⟩
def MED_CMD : Nat := sa 0x12 0x20 0x0 0x2C
def MED_CMD_SCRUB_ALL : Field := ⟨MED_CMD, 0, 1⟩
def MED_CMD_LOSS_WALK : Field := ⟨MED_CMD, 1, 1⟩
def MED_LOSS_WALK : Nat := sa 0x12 0x20 0x0 0x30
def MED_LOSS_WALK_ACTIVE : Field := ⟨MED_LOSS_WALK, 0, 1⟩
def MED_LOSS_WALK_NSG : Field := ⟨MED_LOSS_WALK, 16, 15⟩
def MED_PROG_H0 : Nat := sa 0x12 0x20 0x0 0x38
def MED_PROG_H0_COUNT : Field := ⟨MED_PROG_H0, 0, 64⟩
def MED_PROG_H1 : Nat := sa 0x12 0x20 0x0 0x40
def MED_PROG_H1_COUNT : Field := ⟨MED_PROG_H1, 0, 64⟩
def MED_PROG_G1 : Nat := sa 0x12 0x20 0x0 0x48
def MED_PROG_G1_COUNT : Field := ⟨MED_PROG_G1, 0, 64⟩
def MED_PROG_G2 : Nat := sa 0x12 0x20 0x0 0x50
def MED_PROG_G2_COUNT : Field := ⟨MED_PROG_G2, 0, 64⟩
def MED_PROG_G3 : Nat := sa 0x12 0x20 0x0 0x58
def MED_PROG_G3_COUNT : Field := ⟨MED_PROG_G3, 0, 64⟩
def MED_PROG_M : Nat := sa 0x12 0x20 0x0 0x60
def MED_PROG_M_COUNT : Field := ⟨MED_PROG_M, 0, 64⟩
def MED_ERASES : Nat := sa 0x12 0x20 0x0 0x68
def MED_ERASES_COUNT : Field := ⟨MED_ERASES, 0, 64⟩
def MED_GC_VICTIMS : Nat := sa 0x12 0x20 0x0 0x70
def MED_GC_VICTIMS_COUNT : Field := ⟨MED_GC_VICTIMS, 0, 64⟩
def MED_GC_MOVED : Nat := sa 0x12 0x20 0x0 0x78
def MED_GC_MOVED_COUNT : Field := ⟨MED_GC_MOVED, 0, 64⟩
def MED_RECLAIMS : Nat := sa 0x12 0x20 0x0 0x80
def MED_RECLAIMS_COUNT : Field := ⟨MED_RECLAIMS, 0, 64⟩
def MED_REFRESHES : Nat := sa 0x12 0x20 0x0 0x88
def MED_REFRESHES_COUNT : Field := ⟨MED_REFRESHES, 0, 64⟩
def MED_SCRUB_PAGES : Nat := sa 0x12 0x20 0x0 0x90
def MED_SCRUB_PAGES_COUNT : Field := ⟨MED_SCRUB_PAGES, 0, 64⟩
def MED_VERIFY_PAGES : Nat := sa 0x12 0x20 0x0 0x98
def MED_VERIFY_PAGES_COUNT : Field := ⟨MED_VERIFY_PAGES, 0, 64⟩
def MED_SWEEPS : Nat := sa 0x12 0x20 0x0 0xA0
def MED_SWEEPS_COUNT : Field := ⟨MED_SWEEPS, 0, 64⟩
def MED_SOLO_BATCHES : Nat := sa 0x12 0x20 0x0 0xA8
def MED_SOLO_BATCHES_COUNT : Field := ⟨MED_SOLO_BATCHES, 0, 64⟩
def MED_PLA_FLUSHES : Nat := sa 0x12 0x20 0x0 0xB0
def MED_PLA_FLUSHES_COUNT : Field := ⟨MED_PLA_FLUSHES, 0, 64⟩
def MED_PROG_FAIL : Nat := sa 0x12 0x20 0x0 0xB8
def MED_PROG_FAIL_COUNT : Field := ⟨MED_PROG_FAIL, 0, 32⟩
def MED_ERASE_FAIL : Nat := sa 0x12 0x20 0x0 0xBC
def MED_ERASE_FAIL_COUNT : Field := ⟨MED_ERASE_FAIL, 0, 32⟩
def MED_REBUILDS : Nat := sa 0x12 0x20 0x0 0xC0
def MED_REBUILDS_COUNT : Field := ⟨MED_REBUILDS, 0, 32⟩
def MED_LOST_COPIES : Nat := sa 0x12 0x20 0x0 0xC4
def MED_LOST_COPIES_COUNT : Field := ⟨MED_LOST_COPIES, 0, 32⟩
def MED_RETIRED : Nat := sa 0x12 0x20 0x0 0xC8
def MED_RETIRED_COUNT : Field := ⟨MED_RETIRED, 0, 32⟩
def MED_RD_STUCK : Nat := sa 0x12 0x20 0x0 0xCC
def MED_RD_STUCK_COUNT : Field := ⟨MED_RD_STUCK, 0, 32⟩
def MED_DEAD_DROPS : Nat := sa 0x12 0x20 0x0 0xD0
def MED_DEAD_DROPS_COUNT : Field := ⟨MED_DEAD_DROPS, 0, 32⟩
def MED_SAT : Nat := sa 0x12 0x20 0x0 0xD4
def MED_SAT_SAT : Field := ⟨MED_SAT, 0, 7⟩
def MED_SAT_CLR : Field := ⟨MED_SAT, 8, 1⟩
def MED_M_STATE (m : Nat) : Nat := sa 0x12 m 0x0 0x0
def MED_M_STATE_IN_SERVICE (m : Nat) : Field := ⟨MED_M_STATE m, 0, 1⟩
def MED_M_STATE_SPENT (m : Nat) : Field := ⟨MED_M_STATE m, 1, 1⟩
def MED_M_STATE_GEOM_REJECT (m : Nat) : Field := ⟨MED_M_STATE m, 2, 1⟩
def MED_M_STATE_FAILED (m : Nat) : Field := ⟨MED_M_STATE m, 3, 1⟩
def MED_M_STATE_PLA_HOLDER (m : Nat) : Field := ⟨MED_M_STATE m, 4, 1⟩
def MED_M_STATE_SOLO_HOLDER (m : Nat) : Field := ⟨MED_M_STATE m, 5, 1⟩
def MED_M_CMD (m : Nat) : Nat := sa 0x12 m 0x0 0x4
def MED_M_CMD_FAIL (m : Nat) : Field := ⟨MED_M_CMD m, 0, 1⟩
def MED_M_GEOM (m : Nat) : Nat := sa 0x12 m 0x0 0x8
def MED_M_GEOM_DIES (m : Nat) : Field := ⟨MED_M_GEOM m, 0, 11⟩
def MED_M_GEOM_PLANES_LOG2 (m : Nat) : Field := ⟨MED_M_GEOM m, 11, 2⟩
def MED_M_GEOM_PAGES_LOG2 (m : Nat) : Field := ⟨MED_M_GEOM m, 14, 4⟩
def MED_M_GEOM_W (m : Nat) : Field := ⟨MED_M_GEOM m, 18, 6⟩
def MED_M_GEOM_BLOCKS (m : Nat) : Field := ⟨MED_M_GEOM m, 24, 24⟩
def MED_M_GEOM_SLC_PAGES (m : Nat) : Field := ⟨MED_M_GEOM m, 48, 12⟩
def MED_M_FREE (m : Nat) : Nat := sa 0x12 m 0x0 0x10
def MED_M_FREE_LEVEL (m : Nat) : Field := ⟨MED_M_FREE m, 0, 32⟩
def MED_M_SPARE (m : Nat) : Nat := sa 0x12 m 0x0 0x14
def MED_M_SPARE_LEVEL (m : Nat) : Field := ⟨MED_M_SPARE m, 0, 24⟩
def MED_M_OPEN (m : Nat) : Nat := sa 0x12 m 0x0 0x18
def MED_M_OPEN_LEVEL (m : Nat) : Field := ⟨MED_M_OPEN m, 0, 6⟩
def MED_M_WEAR (m : Nat) : Nat := sa 0x12 m 0x0 0x20
def MED_M_WEAR_MIN_ERASES (m : Nat) : Field := ⟨MED_M_WEAR m, 0, 32⟩
def MED_M_WEAR_MAX_ERASES (m : Nat) : Field := ⟨MED_M_WEAR m, 32, 32⟩
def MED_M_PROG (m : Nat) : Nat := sa 0x12 m 0x0 0x28
def MED_M_PROG_COUNT (m : Nat) : Field := ⟨MED_M_PROG m, 0, 64⟩
def MED_M_READS (m : Nat) : Nat := sa 0x12 m 0x0 0x30
def MED_M_READS_COUNT (m : Nat) : Field := ⟨MED_M_READS m, 0, 64⟩
def MED_M_ERASES (m : Nat) : Nat := sa 0x12 m 0x0 0x38
def MED_M_ERASES_COUNT (m : Nat) : Field := ⟨MED_M_ERASES m, 0, 64⟩
def MED_M_RETIRED (m : Nat) : Nat := sa 0x12 m 0x0 0x40
def MED_M_RETIRED_COUNT (m : Nat) : Field := ⟨MED_M_RETIRED m, 0, 32⟩
def MED_M_UNCORR (m : Nat) : Nat := sa 0x12 m 0x0 0x44
def MED_M_UNCORR_COUNT (m : Nat) : Field := ⟨MED_M_UNCORR m, 0, 32⟩
def MED_M_SAT (m : Nat) : Nat := sa 0x12 m 0x0 0x48
def MED_M_SAT_RETIRED_SAT (m : Nat) : Field := ⟨MED_M_SAT m, 0, 1⟩
def MED_M_SAT_UNCORR_SAT (m : Nat) : Field := ⟨MED_M_SAT m, 1, 1⟩
def MED_M_SAT_CLR (m : Nat) : Field := ⟨MED_M_SAT m, 8, 1⟩
def MED_LINK_UP : Nat := sa 0x12 0x20 0x1 0x0
def MED_LINK_UP_UP : Field := ⟨MED_LINK_UP, 0, 32⟩
def MED_LINK_PEER : Nat := sa 0x12 0x20 0x1 0x4
def MED_LINK_PEER_PEER : Field := ⟨MED_LINK_PEER, 0, 32⟩
def MED_LINK_CFG : Nat := sa 0x12 0x20 0x1 0x8
def MED_LINK_CFG_REPLAY_LIMIT : Field := ⟨MED_LINK_CFG, 0, 8⟩
def MED_LINK_CFG_RETRAIN_LIMIT : Field := ⟨MED_LINK_CFG, 8, 8⟩
def MED_L_STATE (m : Nat) : Nat := sa 0x12 m 0x1 0x0
def MED_L_STATE_PHASE (m : Nat) : Field := ⟨MED_L_STATE m, 0, 3⟩
def MED_L_STATE_DOWN_CAUSE (m : Nat) : Field := ⟨MED_L_STATE m, 3, 3⟩
def MED_L_STATE_ALONE (m : Nat) : Field := ⟨MED_L_STATE m, 6, 1⟩
def MED_L_STATE_FENCED_SEEN (m : Nat) : Field := ⟨MED_L_STATE m, 7, 1⟩
def MED_L_STATE_PORT (m : Nat) : Field := ⟨MED_L_STATE m, 8, 1⟩
def MED_L_CMD (m : Nat) : Nat := sa 0x12 m 0x1 0x4
def MED_L_CMD_RETRAIN (m : Nat) : Field := ⟨MED_L_CMD m, 0, 1⟩
def MED_L_CMD_DOWN (m : Nat) : Field := ⟨MED_L_CMD m, 1, 1⟩
def MED_L_CMD_UP (m : Nat) : Field := ⟨MED_L_CMD m, 2, 1⟩
def MED_L_FENCE (m : Nat) : Nat := sa 0x12 m 0x1 0x8
def MED_L_FENCE_PRESENTED (m : Nat) : Field := ⟨MED_L_FENCE m, 0, 16⟩
def MED_L_FENCE_MODULE_GEN (m : Nat) : Field := ⟨MED_L_FENCE m, 16, 16⟩
def MED_L_QUEUE (m : Nat) : Nat := sa 0x12 m 0x1 0xC
def MED_L_QUEUE_TAGS (m : Nat) : Field := ⟨MED_L_QUEUE m, 0, 11⟩
def MED_L_QUEUE_CMD_CREDITS (m : Nat) : Field := ⟨MED_L_QUEUE m, 16, 9⟩
def MED_L_DATA_CREDITS (m : Nat) : Nat := sa 0x12 m 0x1 0x10
def MED_L_DATA_CREDITS_CREDITS (m : Nat) : Field := ⟨MED_L_DATA_CREDITS m, 0, 16⟩
def MED_L_TX_FRAMES (m : Nat) : Nat := sa 0x12 m 0x1 0x18
def MED_L_TX_FRAMES_COUNT (m : Nat) : Field := ⟨MED_L_TX_FRAMES m, 0, 64⟩
def MED_L_RX_FRAMES (m : Nat) : Nat := sa 0x12 m 0x1 0x20
def MED_L_RX_FRAMES_COUNT (m : Nat) : Field := ⟨MED_L_RX_FRAMES m, 0, 64⟩
def MED_L_TX_BYTES (m : Nat) : Nat := sa 0x12 m 0x1 0x28
def MED_L_TX_BYTES_COUNT (m : Nat) : Field := ⟨MED_L_TX_BYTES m, 0, 64⟩
def MED_L_RX_BYTES (m : Nat) : Nat := sa 0x12 m 0x1 0x30
def MED_L_RX_BYTES_COUNT (m : Nat) : Field := ⟨MED_L_RX_BYTES m, 0, 64⟩
def MED_L_REPLAYS (m : Nat) : Nat := sa 0x12 m 0x1 0x38
def MED_L_REPLAYS_COUNT (m : Nat) : Field := ⟨MED_L_REPLAYS m, 0, 64⟩
def MED_L_CRC_ERR (m : Nat) : Nat := sa 0x12 m 0x1 0x40
def MED_L_CRC_ERR_COUNT (m : Nat) : Field := ⟨MED_L_CRC_ERR m, 0, 32⟩
def MED_L_LEN_ERR (m : Nat) : Nat := sa 0x12 m 0x1 0x44
def MED_L_LEN_ERR_COUNT (m : Nat) : Field := ⟨MED_L_LEN_ERR m, 0, 32⟩
def MED_L_FENCED (m : Nat) : Nat := sa 0x12 m 0x1 0x48
def MED_L_FENCED_COUNT (m : Nat) : Field := ⟨MED_L_FENCED m, 0, 32⟩
def MED_L_RETRAINS (m : Nat) : Nat := sa 0x12 m 0x1 0x4C
def MED_L_RETRAINS_COUNT (m : Nat) : Field := ⟨MED_L_RETRAINS m, 0, 32⟩
def MED_L_DOWNS (m : Nat) : Nat := sa 0x12 m 0x1 0x50
def MED_L_DOWNS_COUNT (m : Nat) : Field := ⟨MED_L_DOWNS m, 0, 32⟩
def MED_L_TIMEOUTS (m : Nat) : Nat := sa 0x12 m 0x1 0x54
def MED_L_TIMEOUTS_COUNT (m : Nat) : Field := ⟨MED_L_TIMEOUTS m, 0, 32⟩
def MED_L_SAT (m : Nat) : Nat := sa 0x12 m 0x1 0x58
def MED_L_SAT_SAT (m : Nat) : Field := ⟨MED_L_SAT m, 0, 6⟩
def MED_L_SAT_CLR (m : Nat) : Field := ⟨MED_L_SAT m, 8, 1⟩
def FRT_CLASS : Nat := sa 0xA 0x10 0x0 0x0
def FRT_CLASS_MODE : Field := ⟨FRT_CLASS, 0, 2⟩
def FRT_CLASS_ROCE_PRIO : Field := ⟨FRT_CLASS, 4, 3⟩
def FRT_CLASS_ROCE_DSCP : Field := ⟨FRT_CLASS, 8, 6⟩
def FRT_CLASS_CNP_PRIO : Field := ⟨FRT_CLASS, 16, 3⟩
def FRT_CLASS_CNP_DSCP : Field := ⟨FRT_CLASS, 20, 6⟩
def FRT_MAC_BASE : Nat := sa 0xA 0x10 0x0 0x8
def FRT_MAC_BASE_MAC : Field := ⟨FRT_MAC_BASE, 0, 48⟩
def FRT_STORM : Nat := sa 0xA 0x10 0x0 0x10
def FRT_STORM_STORM_MS : Field := ⟨FRT_STORM, 0, 16⟩
def FRT_PTP : Nat := sa 0xA 0x10 0x0 0x14
def FRT_PTP_PORT : Field := ⟨FRT_PTP, 0, 4⟩
def FRT_PTP_LOCKED : Field := ⟨FRT_PTP, 4, 1⟩
def FRT_PTP_DOMAIN : Field := ⟨FRT_PTP, 8, 8⟩
def FRT_PTP_OFFSET : Nat := sa 0xA 0x10 0x0 0x18
def FRT_PTP_OFFSET_NS : Field := ⟨FRT_PTP_OFFSET, 0, 64⟩
def FRT_P_STATE (p : Nat) : Nat := sa 0xA p 0x0 0x0
def FRT_P_STATE_LINK_UP (p : Nat) : Field := ⟨FRT_P_STATE p, 0, 1⟩
def FRT_P_STATE_PAUSED (p : Nat) : Field := ⟨FRT_P_STATE p, 1, 1⟩
def FRT_P_STATE_XOFF_SENT (p : Nat) : Field := ⟨FRT_P_STATE p, 2, 1⟩
def FRT_P_STATE_DOWN_CAUSE (p : Nat) : Field := ⟨FRT_P_STATE p, 3, 3⟩
def FRT_P_CMD (p : Nat) : Nat := sa 0xA p 0x0 0x4
def FRT_P_CMD_DOWN (p : Nat) : Field := ⟨FRT_P_CMD p, 0, 1⟩
def FRT_P_CMD_UP (p : Nat) : Field := ⟨FRT_P_CMD p, 1, 1⟩
def FRT_P_IP4 (p k : Nat) : Nat := sa 0xA p 0x0 (0x8 + 8 * k)
def FRT_P_IP4_ADDR (p k : Nat) : Field := ⟨FRT_P_IP4 p k, 0, 32⟩
def FRT_P_IP4_PREFIX (p k : Nat) : Field := ⟨FRT_P_IP4 p k, 32, 6⟩
def FRT_P_IP4_VALID (p k : Nat) : Field := ⟨FRT_P_IP4 p k, 63, 1⟩
def FRT_P_GW (p : Nat) : Nat := sa 0xA p 0x0 0x60
def FRT_P_GW_MAC (p : Nat) : Field := ⟨FRT_P_GW p, 0, 48⟩
def FRT_P_GW_VALID (p : Nat) : Field := ⟨FRT_P_GW p, 63, 1⟩
def FRT_P_PTP (p : Nat) : Nat := sa 0xA p 0x0 0x68
def FRT_P_PTP_EN (p : Nat) : Field := ⟨FRT_P_PTP p, 0, 1⟩
def FRT_P_PTP_ASYM_NS (p : Nat) : Field := ⟨FRT_P_PTP p, 16, 16⟩
def FRT_P_RX_FRAMES (p : Nat) : Nat := sa 0xA p 0x0 0x70
def FRT_P_RX_FRAMES_COUNT (p : Nat) : Field := ⟨FRT_P_RX_FRAMES p, 0, 64⟩
def FRT_P_TX_FRAMES (p : Nat) : Nat := sa 0xA p 0x0 0x78
def FRT_P_TX_FRAMES_COUNT (p : Nat) : Field := ⟨FRT_P_TX_FRAMES p, 0, 64⟩
def FRT_P_RX_BYTES (p : Nat) : Nat := sa 0xA p 0x0 0x80
def FRT_P_RX_BYTES_COUNT (p : Nat) : Field := ⟨FRT_P_RX_BYTES p, 0, 64⟩
def FRT_P_TX_BYTES (p : Nat) : Nat := sa 0xA p 0x0 0x88
def FRT_P_TX_BYTES_COUNT (p : Nat) : Field := ⟨FRT_P_TX_BYTES p, 0, 64⟩
def FRT_P_XOFF_TX (p : Nat) : Nat := sa 0xA p 0x0 0x90
def FRT_P_XOFF_TX_COUNT (p : Nat) : Field := ⟨FRT_P_XOFF_TX p, 0, 64⟩
def FRT_P_XOFF_RX (p : Nat) : Nat := sa 0xA p 0x0 0x98
def FRT_P_XOFF_RX_COUNT (p : Nat) : Field := ⟨FRT_P_XOFF_RX p, 0, 64⟩
def FRT_P_DROP_LOSSY (p : Nat) : Nat := sa 0xA p 0x0 0xA0
def FRT_P_DROP_LOSSY_COUNT (p : Nat) : Field := ⟨FRT_P_DROP_LOSSY p, 0, 64⟩
def FRT_P_DROP_OTHER (p : Nat) : Nat := sa 0xA p 0x0 0xA8
def FRT_P_DROP_OTHER_COUNT (p : Nat) : Field := ⟨FRT_P_DROP_OTHER p, 0, 64⟩
def FRT_P_PTP_STAMPS (p : Nat) : Nat := sa 0xA p 0x0 0xB0
def FRT_P_PTP_STAMPS_COUNT (p : Nat) : Field := ⟨FRT_P_PTP_STAMPS p, 0, 64⟩
def FRT_P_FCS_ERR (p : Nat) : Nat := sa 0xA p 0x0 0xB8
def FRT_P_FCS_ERR_COUNT (p : Nat) : Field := ⟨FRT_P_FCS_ERR p, 0, 32⟩
def FRT_P_STORMS (p : Nat) : Nat := sa 0xA p 0x0 0xBC
def FRT_P_STORMS_COUNT (p : Nat) : Field := ⟨FRT_P_STORMS p, 0, 32⟩
def FRT_P_SAT (p : Nat) : Nat := sa 0xA p 0x0 0xC0
def FRT_P_SAT_FCS_SAT (p : Nat) : Field := ⟨FRT_P_SAT p, 0, 1⟩
def FRT_P_SAT_STORM_SAT (p : Nat) : Field := ⟨FRT_P_SAT p, 1, 1⟩
def FRT_P_SAT_CLR (p : Nat) : Field := ⟨FRT_P_SAT p, 8, 1⟩
def FRT_L_STATE (p j : Nat) : Nat := sa 0xA p j 0x100
def FRT_L_STATE_SIGNAL (p j : Nat) : Field := ⟨FRT_L_STATE p j, 0, 1⟩
def FRT_L_STATE_ALIGNED (p j : Nat) : Field := ⟨FRT_L_STATE p j, 1, 1⟩
def FRT_L_STATE_CALIBRATING (p j : Nat) : Field := ⟨FRT_L_STATE p j, 2, 1⟩
def FRT_L_FEC_CORR (p j : Nat) : Nat := sa 0xA p j 0x108
def FRT_L_FEC_CORR_COUNT (p j : Nat) : Field := ⟨FRT_L_FEC_CORR p j, 0, 64⟩
def FRT_L_FEC_UNCORR (p j : Nat) : Nat := sa 0xA p j 0x110
def FRT_L_FEC_UNCORR_COUNT (p j : Nat) : Field := ⟨FRT_L_FEC_UNCORR p j, 0, 32⟩
def FRT_L_SAT (p j : Nat) : Nat := sa 0xA p j 0x114
def FRT_L_SAT_UNCORR_SAT (p j : Nat) : Field := ⟨FRT_L_SAT p j, 0, 1⟩
def FRT_L_SAT_CLR (p j : Nat) : Field := ⟨FRT_L_SAT p j, 8, 1⟩
def TRN_STD : Nat := sa 0xB 0x0 0x0 0x0
def TRN_STD_TIMEOUT : Field := ⟨TRN_STD, 0, 5⟩
def TRN_STD_RETRY_CNT : Field := ⟨TRN_STD, 5, 3⟩
def TRN_STD_RNR_RETRY : Field := ⟨TRN_STD, 8, 3⟩
def TRN_SPREAD : Nat := sa 0xB 0x0 0x0 0x4
def TRN_SPREAD_PATHS : Field := ⟨TRN_SPREAD, 0, 7⟩
def TRN_SPREAD_REORDER_US : Field := ⟨TRN_SPREAD, 8, 8⟩
def TRN_SPREAD_RTO_US : Field := ⟨TRN_SPREAD, 16, 8⟩
def TRN_SPREAD_RETRY : Field := ⟨TRN_SPREAD, 24, 4⟩
def TRN_CC : Nat := sa 0xB 0x0 0x0 0x8
def TRN_CC_CI_US : Field := ⟨TRN_CC, 0, 8⟩
def TRN_CC_CUT : Field := ⟨TRN_CC, 8, 4⟩
def TRN_CC_CUT_CAP : Field := ⟨TRN_CC, 12, 4⟩
def TRN_CC_HOLD : Field := ⟨TRN_CC, 16, 8⟩
def TRN_CC_RATE_MIN_100M : Field := ⟨TRN_CC, 24, 8⟩
def TRN_CC_STEP : Nat := sa 0xB 0x0 0x0 0xC
def TRN_CC_STEP_CNP_GAP_US : Field := ⟨TRN_CC_STEP, 0, 8⟩
def TRN_CC_STEP_STEP_100M : Field := ⟨TRN_CC_STEP, 8, 8⟩
def TRN_CC_STEP_STEP_MAX_100M : Field := ⟨TRN_CC_STEP, 16, 16⟩
def TRN_USE : Nat := sa 0xB 0x0 0x0 0x10
def TRN_USE_QPS : Field := ⟨TRN_USE, 0, 15⟩
def TRN_USE_SPREAD : Field := ⟨TRN_USE, 16, 11⟩
def TRN_MW_USE : Nat := sa 0xB 0x0 0x0 0x14
def TRN_MW_USE_WINDOWS : Field := ⟨TRN_MW_USE, 0, 13⟩
def TRN_QP_SEL (k : Nat) : Nat := sa 0xB 0x0 0x0 (0x18 + 4 * k)
def TRN_QP_SEL_QPN (k : Nat) : Field := ⟨TRN_QP_SEL k, 0, 14⟩
def TRN_MW_SEL : Nat := sa 0xB 0x0 0x0 0x38
def TRN_MW_SEL_WINDOW : Field := ⟨TRN_MW_SEL, 0, 12⟩
def TRN_TX_PKTS : Nat := sa 0xB 0x0 0x0 0x40
def TRN_TX_PKTS_COUNT : Field := ⟨TRN_TX_PKTS, 0, 64⟩
def TRN_RX_PKTS : Nat := sa 0xB 0x0 0x0 0x48
def TRN_RX_PKTS_COUNT : Field := ⟨TRN_RX_PKTS, 0, 64⟩
def TRN_RETX_STD : Nat := sa 0xB 0x0 0x0 0x50
def TRN_RETX_STD_COUNT : Field := ⟨TRN_RETX_STD, 0, 64⟩
def TRN_RETX_SPREAD : Nat := sa 0xB 0x0 0x0 0x58
def TRN_RETX_SPREAD_COUNT : Field := ⟨TRN_RETX_SPREAD, 0, 64⟩
def TRN_DUP_DROPS : Nat := sa 0xB 0x0 0x0 0x60
def TRN_DUP_DROPS_COUNT : Field := ⟨TRN_DUP_DROPS, 0, 64⟩
def TRN_OOO_PKTS : Nat := sa 0xB 0x0 0x0 0x68
def TRN_OOO_PKTS_COUNT : Field := ⟨TRN_OOO_PKTS, 0, 64⟩
def TRN_OOW_DROPS : Nat := sa 0xB 0x0 0x0 0x70
def TRN_OOW_DROPS_COUNT : Field := ⟨TRN_OOW_DROPS, 0, 64⟩
def TRN_CNP_TX : Nat := sa 0xB 0x0 0x0 0x78
def TRN_CNP_TX_COUNT : Field := ⟨TRN_CNP_TX, 0, 64⟩
def TRN_CNP_RX : Nat := sa 0xB 0x0 0x0 0x80
def TRN_CNP_RX_COUNT : Field := ⟨TRN_CNP_RX, 0, 64⟩
def TRN_RNR_TX : Nat := sa 0xB 0x0 0x0 0x88
def TRN_RNR_TX_COUNT : Field := ⟨TRN_RNR_TX, 0, 64⟩
def TRN_RNR_RX : Nat := sa 0xB 0x0 0x0 0x90
def TRN_RNR_RX_COUNT : Field := ⟨TRN_RNR_RX, 0, 64⟩
def TRN_MW_REWRITES : Nat := sa 0xB 0x0 0x0 0x98
def TRN_MW_REWRITES_COUNT : Field := ⟨TRN_MW_REWRITES, 0, 64⟩
def TRN_CM_REQ : Nat := sa 0xB 0x0 0x0 0xA0
def TRN_CM_REQ_COUNT : Field := ⟨TRN_CM_REQ, 0, 64⟩
def TRN_DROP_OTHER : Nat := sa 0xB 0x0 0x0 0xA8
def TRN_DROP_OTHER_COUNT : Field := ⟨TRN_DROP_OTHER, 0, 64⟩
def TRN_QP_ERRORS : Nat := sa 0xB 0x0 0x0 0xB0
def TRN_QP_ERRORS_COUNT : Field := ⟨TRN_QP_ERRORS, 0, 32⟩
def TRN_ICRC_ERR : Nat := sa 0xB 0x0 0x0 0xB4
def TRN_ICRC_ERR_COUNT : Field := ⟨TRN_ICRC_ERR, 0, 32⟩
def TRN_ACCESS_NAK : Nat := sa 0xB 0x0 0x0 0xB8
def TRN_ACCESS_NAK_COUNT : Field := ⟨TRN_ACCESS_NAK, 0, 32⟩
def TRN_INVALID_NAK : Nat := sa 0xB 0x0 0x0 0xBC
def TRN_INVALID_NAK_COUNT : Field := ⟨TRN_INVALID_NAK, 0, 32⟩
def TRN_DESC_CRC : Nat := sa 0xB 0x0 0x0 0xC0
def TRN_DESC_CRC_COUNT : Field := ⟨TRN_DESC_CRC, 0, 32⟩
def TRN_CM_REJ : Nat := sa 0xB 0x0 0x0 0xC4
def TRN_CM_REJ_COUNT : Field := ⟨TRN_CM_REJ, 0, 32⟩
def TRN_SAT : Nat := sa 0xB 0x0 0x0 0xC8
def TRN_SAT_SAT : Field := ⟨TRN_SAT, 0, 6⟩
def TRN_SAT_CLR : Field := ⟨TRN_SAT, 8, 1⟩
def TRN_QP_STATE (n : Nat) : Nat := sa 0xB 0x0 (0x1 + n) 0x0
def TRN_QP_STATE_STATE (n : Nat) : Field := ⟨TRN_QP_STATE n, 0, 3⟩
def TRN_QP_STATE_SPREAD (n : Nat) : Field := ⟨TRN_QP_STATE n, 3, 1⟩
def TRN_QP_STATE_GEN (n : Nat) : Field := ⟨TRN_QP_STATE n, 16, 16⟩
def TRN_QP_PEER (n : Nat) : Nat := sa 0xB 0x0 (0x1 + n) 0x8
def TRN_QP_PEER_DEST_QPN (n : Nat) : Field := ⟨TRN_QP_PEER n, 0, 24⟩
def TRN_QP_PEER_PMTU (n : Nat) : Field := ⟨TRN_QP_PEER n, 24, 2⟩
def TRN_QP_PEER_PORT (n : Nat) : Field := ⟨TRN_QP_PEER n, 32, 4⟩
def TRN_QP_PEER_PATHS_UP (n : Nat) : Field := ⟨TRN_QP_PEER n, 36, 7⟩
def TRN_QP_PEER_INST (n : Nat) : Field := ⟨TRN_QP_PEER n, 48, 10⟩
def TRN_QP_PSN (n : Nat) : Nat := sa 0xB 0x0 (0x1 + n) 0x10
def TRN_QP_PSN_NEXT (n : Nat) : Field := ⟨TRN_QP_PSN n, 0, 24⟩
def TRN_QP_PSN_EXPECTED (n : Nat) : Field := ⟨TRN_QP_PSN n, 32, 24⟩
def TRN_QP_UNACKED (n : Nat) : Nat := sa 0xB 0x0 (0x1 + n) 0x18
def TRN_QP_UNACKED_OLDEST (n : Nat) : Field := ⟨TRN_QP_UNACKED n, 0, 24⟩
def TRN_QP_UNACKED_TIMEOUTS (n : Nat) : Field := ⟨TRN_QP_UNACKED n, 24, 3⟩
def TRN_QP_RATE (n : Nat) : Nat := sa 0xB 0x0 (0x1 + n) 0x20
def TRN_QP_RATE_R_100M (n : Nat) : Field := ⟨TRN_QP_RATE n, 0, 14⟩
def TRN_QP_RATE_CALM (n : Nat) : Field := ⟨TRN_QP_RATE n, 16, 8⟩
def TRN_QP_RATE_CNPS (n : Nat) : Field := ⟨TRN_QP_RATE n, 24, 4⟩
def TRN_QP_MSN (n : Nat) : Nat := sa 0xB 0x0 (0x1 + n) 0x28
def TRN_QP_MSN_SENT (n : Nat) : Field := ⟨TRN_QP_MSN n, 0, 32⟩
def TRN_QP_MSN_DONE (n : Nat) : Field := ⟨TRN_QP_MSN n, 32, 32⟩
def TRN_QP_TX_BYTES (n : Nat) : Nat := sa 0xB 0x0 (0x1 + n) 0x30
def TRN_QP_TX_BYTES_COUNT (n : Nat) : Field := ⟨TRN_QP_TX_BYTES n, 0, 64⟩
def TRN_QP_RX_BYTES (n : Nat) : Nat := sa 0xB 0x0 (0x1 + n) 0x38
def TRN_QP_RX_BYTES_COUNT (n : Nat) : Field := ⟨TRN_QP_RX_BYTES n, 0, 64⟩
def TRN_QP_RETX (n : Nat) : Nat := sa 0xB 0x0 (0x1 + n) 0x40
def TRN_QP_RETX_COUNT (n : Nat) : Field := ⟨TRN_QP_RETX n, 0, 64⟩
def TRN_MW_KEY : Nat := sa 0xB 0x0 0x9 0x0
def TRN_MW_KEY_R_KEY : Field := ⟨TRN_MW_KEY, 0, 32⟩
def TRN_MW_BASE : Nat := sa 0xB 0x0 0x9 0x8
def TRN_MW_BASE_VALUE : Field := ⟨TRN_MW_BASE, 0, 36⟩
def TRN_MW_LEN : Nat := sa 0xB 0x0 0x9 0x10
def TRN_MW_LEN_VALUE : Field := ⟨TRN_MW_LEN, 0, 36⟩
def TRN_MW_CTL : Nat := sa 0xB 0x0 0x9 0x18
def TRN_MW_CTL_VALID : Field := ⟨TRN_MW_CTL, 0, 1⟩
def TRN_MW_CTL_WRITE : Field := ⟨TRN_MW_CTL, 1, 1⟩
def TRN_MW_CTL_READ : Field := ⟨TRN_MW_CTL, 2, 1⟩
def TRN_MW_CTL_FLUSH : Field := ⟨TRN_MW_CTL, 3, 1⟩
def TRN_MW_CTL_QPN : Field := ⟨TRN_MW_CTL, 8, 14⟩
def CMQ_LIMITS : Nat := sa 0xC 0x0 0x0 0x0
def CMQ_LIMITS_QUEUE_DEPTH : Field := ⟨CMQ_LIMITS, 0, 11⟩
def CMQ_LIMITS_MDTS : Field := ⟨CMQ_LIMITS, 16, 4⟩
def CMQ_OUTSTANDING : Nat := sa 0xC 0x0 0x0 0x4
def CMQ_OUTSTANDING_CMDS : Field := ⟨CMQ_OUTSTANDING, 0, 19⟩
def CMQ_ORDERED_WAIT : Nat := sa 0xC 0x0 0x0 0x8
def CMQ_ORDERED_WAIT_CMDS : Field := ⟨CMQ_ORDERED_WAIT, 0, 19⟩
def CMQ_LOSS_SEQ : Nat := sa 0xC 0x0 0x0 0x10
def CMQ_LOSS_SEQ_NEWEST : Field := ⟨CMQ_LOSS_SEQ, 0, 32⟩
def CMQ_LOSS_SEQ_OLDEST : Field := ⟨CMQ_LOSS_SEQ, 32, 32⟩
def CMQ_IO_CMDS : Nat := sa 0xC 0x0 0x0 0x18
def CMQ_IO_CMDS_COUNT : Field := ⟨CMQ_IO_CMDS, 0, 64⟩
def CMQ_ADMIN_CMDS : Nat := sa 0xC 0x0 0x0 0x20
def CMQ_ADMIN_CMDS_COUNT : Field := ⟨CMQ_ADMIN_CMDS, 0, 64⟩
def CMQ_ORDERED : Nat := sa 0xC 0x0 0x0 0x28
def CMQ_ORDERED_COUNT : Field := ⟨CMQ_ORDERED, 0, 64⟩
def CMQ_FLUSHES : Nat := sa 0xC 0x0 0x0 0x30
def CMQ_FLUSHES_COUNT : Field := ⟨CMQ_FLUSHES, 0, 64⟩
def CMQ_DSM_CHUNKS : Nat := sa 0xC 0x0 0x0 0x38
def CMQ_DSM_CHUNKS_COUNT : Field := ⟨CMQ_DSM_CHUNKS, 0, 64⟩
def CMQ_DSM_PARTIAL : Nat := sa 0xC 0x0 0x0 0x40
def CMQ_DSM_PARTIAL_COUNT : Field := ⟨CMQ_DSM_PARTIAL, 0, 64⟩
def CMQ_WZ_CHUNKS : Nat := sa 0xC 0x0 0x0 0x48
def CMQ_WZ_CHUNKS_COUNT : Field := ⟨CMQ_WZ_CHUNKS, 0, 64⟩
def CMQ_SDEALLOC : Nat := sa 0xC 0x0 0x0 0x50
def CMQ_SDEALLOC_COUNT : Field := ⟨CMQ_SDEALLOC, 0, 64⟩
def CMQ_FWD_TX : Nat := sa 0xC 0x0 0x0 0x58
def CMQ_FWD_TX_COUNT : Field := ⟨CMQ_FWD_TX, 0, 64⟩
def CMQ_FWD_RX : Nat := sa 0xC 0x0 0x0 0x60
def CMQ_FWD_RX_COUNT : Field := ⟨CMQ_FWD_RX, 0, 64⟩
def CMQ_AER_POSTED : Nat := sa 0xC 0x0 0x0 0x68
def CMQ_AER_POSTED_COUNT : Field := ⟨CMQ_AER_POSTED, 0, 64⟩
def CMQ_ABORTS : Nat := sa 0xC 0x0 0x0 0x70
def CMQ_ABORTS_COUNT : Field := ⟨CMQ_ABORTS, 0, 64⟩
def CMQ_ERR_CMDS : Nat := sa 0xC 0x0 0x0 0x78
def CMQ_ERR_CMDS_COUNT : Field := ⟨CMQ_ERR_CMDS, 0, 32⟩
def CMQ_INVALID_CMDS : Nat := sa 0xC 0x0 0x0 0x7C
def CMQ_INVALID_CMDS_COUNT : Field := ⟨CMQ_INVALID_CMDS, 0, 32⟩
def CMQ_KATO_EXP : Nat := sa 0xC 0x0 0x0 0x80
def CMQ_KATO_EXP_COUNT : Field := ⟨CMQ_KATO_EXP, 0, 32⟩
def CMQ_INTERRUPTED : Nat := sa 0xC 0x0 0x0 0x84
def CMQ_INTERRUPTED_COUNT : Field := ⟨CMQ_INTERRUPTED, 0, 32⟩
def CMQ_SAT : Nat := sa 0xC 0x0 0x0 0x88
def CMQ_SAT_SAT : Field := ⟨CMQ_SAT, 0, 4⟩
def CMQ_SAT_CLR : Field := ⟨CMQ_SAT, 8, 1⟩
def INS_I_STATE (i : Nat) : Nat := sa 0xD (i / 4) (i % 4) 0x0
def INS_I_STATE_STATE (i : Nat) : Field := ⟨INS_I_STATE i, 0, 3⟩
def INS_I_STATE_HOME (i : Nat) : Field := ⟨INS_I_STATE i, 3, 1⟩
def INS_I_STATE_SERVER (i : Nat) : Field := ⟨INS_I_STATE i, 4, 1⟩
def INS_I_STATE_GEN (i : Nat) : Field := ⟨INS_I_STATE i, 16, 16⟩
def INS_I_DOMAIN (i : Nat) : Nat := sa 0xD (i / 4) (i % 4) 0x4
def INS_I_DOMAIN_DOMAIN (i : Nat) : Field := ⟨INS_I_DOMAIN i, 0, 12⟩
def INS_I_EPOCH (i : Nat) : Nat := sa 0xD (i / 4) (i % 4) 0x8
def INS_I_EPOCH_EPOCH (i : Nat) : Field := ⟨INS_I_EPOCH i, 0, 32⟩
def INS_I_QOS (i : Nat) : Nat := sa 0xD (i / 4) (i % 4) 0x10
def INS_I_QOS_RATE_KCMDS (i : Nat) : Field := ⟨INS_I_QOS i, 0, 32⟩
def INS_I_QOS_RATE_MBPS (i : Nat) : Field := ⟨INS_I_QOS i, 32, 32⟩
def INS_I_COUNTS (i : Nat) : Nat := sa 0xD (i / 4) (i % 4) 0x18
def INS_I_COUNTS_NAMESPACES (i : Nat) : Field := ⟨INS_I_COUNTS i, 0, 9⟩
def INS_I_COUNTS_SLICES (i : Nat) : Field := ⟨INS_I_COUNTS i, 16, 13⟩
def INS_I_OUTSTANDING (i : Nat) : Nat := sa 0xD (i / 4) (i % 4) 0x1C
def INS_I_OUTSTANDING_CMDS (i : Nat) : Field := ⟨INS_I_OUTSTANDING i, 0, 19⟩
def INS_I_RD_CMDS (i : Nat) : Nat := sa 0xD (i / 4) (i % 4) 0x20
def INS_I_RD_CMDS_COUNT (i : Nat) : Field := ⟨INS_I_RD_CMDS i, 0, 64⟩
def INS_I_WR_CMDS (i : Nat) : Nat := sa 0xD (i / 4) (i % 4) 0x28
def INS_I_WR_CMDS_COUNT (i : Nat) : Field := ⟨INS_I_WR_CMDS i, 0, 64⟩
def INS_I_RD_BYTES (i : Nat) : Nat := sa 0xD (i / 4) (i % 4) 0x30
def INS_I_RD_BYTES_COUNT (i : Nat) : Field := ⟨INS_I_RD_BYTES i, 0, 64⟩
def INS_I_WR_BYTES (i : Nat) : Nat := sa 0xD (i / 4) (i % 4) 0x38
def INS_I_WR_BYTES_COUNT (i : Nat) : Field := ⟨INS_I_WR_BYTES i, 0, 64⟩
def INS_I_QOS_WAIT_NS (i : Nat) : Nat := sa 0xD (i / 4) (i % 4) 0x40
def INS_I_QOS_WAIT_NS_COUNT (i : Nat) : Field := ⟨INS_I_QOS_WAIT_NS i, 0, 64⟩
def INS_I_DISCARDS (i : Nat) : Nat := sa 0xD (i / 4) (i % 4) 0x48
def INS_I_DISCARDS_COUNT (i : Nat) : Field := ⟨INS_I_DISCARDS i, 0, 64⟩
def INS_I_MIGRATIONS (i : Nat) : Nat := sa 0xD (i / 4) (i % 4) 0x50
def INS_I_MIGRATIONS_COUNT (i : Nat) : Field := ⟨INS_I_MIGRATIONS i, 0, 64⟩
def INS_INFO : Nat := sa 0xD 0x0 0x0 0x100
def INS_INFO_INSTANCES : Field := ⟨INS_INFO, 0, 11⟩
def INS_INFO_SLICES : Field := ⟨INS_INFO, 16, 13⟩
def INS_MQ_CTL : Nat := sa 0xD 0x0 0x0 0x104
def INS_MQ_CTL_EN : Field := ⟨INS_MQ_CTL, 0, 1⟩
def INS_MQ_CTL_VECTOR : Field := ⟨INS_MQ_CTL, 1, 11⟩
def INS_MQ_CTL_UP_LOG2 : Field := ⟨INS_MQ_CTL, 12, 4⟩
def INS_MQ_CTL_DN_LOG2 : Field := ⟨INS_MQ_CTL, 16, 4⟩
def INS_UP_BASE : Nat := sa 0xD 0x0 0x0 0x108
def INS_UP_BASE_ADDR : Field := ⟨INS_UP_BASE, 12, 52⟩
def INS_DN_BASE : Nat := sa 0xD 0x0 0x0 0x120
def INS_DN_BASE_ADDR : Field := ⟨INS_DN_BASE, 12, 52⟩
def INS_MIG : Nat := sa 0xD 0x0 0x0 0x130
def INS_MIG_ACTIVE : Field := ⟨INS_MIG, 0, 1⟩
def INS_MIG_PHASE : Field := ⟨INS_MIG, 1, 3⟩
def INS_MIG_OUTBOUND : Field := ⟨INS_MIG, 4, 1⟩
def INS_MIG_INST : Field := ⟨INS_MIG, 16, 10⟩
def INS_PAUSE_MAX : Nat := sa 0xD 0x0 0x0 0x134
def INS_PAUSE_MAX_NS : Field := ⟨INS_PAUSE_MAX, 0, 18⟩
def INS_SLICE_SEL : Nat := sa 0xD 0x0 0x0 0x138
def INS_SLICE_SEL_SLICE : Field := ⟨INS_SLICE_SEL, 0, 12⟩
def INS_SLICE_STATE : Nat := sa 0xD 0x0 0x0 0x140
def INS_SLICE_STATE_BOUND : Field := ⟨INS_SLICE_STATE, 0, 1⟩
def INS_SLICE_STATE_QUEUES : Field := ⟨INS_SLICE_STATE, 1, 3⟩
def INS_SLICE_STATE_GEN : Field := ⟨INS_SLICE_STATE, 16, 16⟩
def INS_SLICE_STATE_PASID : Field := ⟨INS_SLICE_STATE, 32, 20⟩
def INS_SLICE_STATE_INST : Field := ⟨INS_SLICE_STATE, 52, 10⟩
def INS_MIGRATIONS : Nat := sa 0xD 0x0 0x0 0x148
def INS_MIGRATIONS_COUNT : Field := ⟨INS_MIGRATIONS, 0, 64⟩
def INS_DISCARDS : Nat := sa 0xD 0x0 0x0 0x150
def INS_DISCARDS_COUNT : Field := ⟨INS_DISCARDS, 0, 64⟩
def INS_SETUP_CMDS : Nat := sa 0xD 0x0 0x0 0x158
def INS_SETUP_CMDS_COUNT : Field := ⟨INS_SETUP_CMDS, 0, 64⟩
def INS_MED_REQS : Nat := sa 0xD 0x0 0x0 0x160
def INS_MED_REQS_COUNT : Field := ⟨INS_MED_REQS, 0, 64⟩
def INS_MIG_ABORTS : Nat := sa 0xD 0x0 0x0 0x168
def INS_MIG_ABORTS_COUNT : Field := ⟨INS_MIG_ABORTS, 0, 32⟩
def INS_BLOB_FAIL : Nat := sa 0xD 0x0 0x0 0x16C
def INS_BLOB_FAIL_COUNT : Field := ⟨INS_BLOB_FAIL, 0, 32⟩
def INS_RING_ERR : Nat := sa 0xD 0x0 0x0 0x170
def INS_RING_ERR_COUNT : Field := ⟨INS_RING_ERR, 0, 32⟩
def INS_SAT : Nat := sa 0xD 0x0 0x0 0x174
def INS_SAT_SAT : Field := ⟨INS_SAT, 0, 3⟩
def INS_SAT_CLR : Field := ⟨INS_SAT, 8, 1⟩
def SNP_SNAPS : Nat := sa 0x13 0x0 0x0 0x0
def SNP_SNAPS_COUNT : Field := ⟨SNP_SNAPS, 0, 21⟩
def SNP_STREAMS : Nat := sa 0x13 0x0 0x0 0x4
def SNP_STREAMS_ACTIVE : Field := ⟨SNP_STREAMS, 0, 7⟩
def SNP_CREATES : Nat := sa 0x13 0x0 0x0 0x8
def SNP_CREATES_COUNT : Field := ⟨SNP_CREATES, 0, 64⟩
def SNP_DELETES : Nat := sa 0x13 0x0 0x0 0x10
def SNP_DELETES_COUNT : Field := ⟨SNP_DELETES, 0, 64⟩
def SNP_SPLITS : Nat := sa 0x13 0x0 0x0 0x18
def SNP_SPLITS_COUNT : Field := ⟨SNP_SPLITS, 0, 64⟩
def SNP_FROZEN : Nat := sa 0x13 0x0 0x0 0x20
def SNP_FROZEN_COUNT : Field := ⟨SNP_FROZEN, 0, 64⟩
def SNP_FREED_PAGES : Nat := sa 0x13 0x0 0x0 0x28
def SNP_FREED_PAGES_COUNT : Field := ⟨SNP_FREED_PAGES, 0, 64⟩
def SNP_SPLIT_FAIL : Nat := sa 0x13 0x0 0x0 0x30
def SNP_SPLIT_FAIL_COUNT : Field := ⟨SNP_SPLIT_FAIL, 0, 32⟩
def SNP_SAT : Nat := sa 0x13 0x0 0x0 0x34
def SNP_SAT_SPLIT_SAT : Field := ⟨SNP_SAT, 0, 1⟩
def SNP_SAT_CLR : Field := ⟨SNP_SAT, 8, 1⟩
def SNP_S_CFG (n : Nat) : Nat := sa 0x13 (0x1 + n) 0x0 0x0
def SNP_S_CFG_ROLE (n : Nat) : Field := ⟨SNP_S_CFG n, 0, 1⟩
def SNP_S_CFG_PORT (n : Nat) : Field := ⟨SNP_S_CFG n, 4, 4⟩
def SNP_S_CFG_NSG (n : Nat) : Field := ⟨SNP_S_CFG n, 8, 15⟩
def SNP_S_REMOTE_HI (n : Nat) : Nat := sa 0x13 (0x1 + n) 0x0 0x8
def SNP_S_REMOTE_HI_ADDR (n : Nat) : Field := ⟨SNP_S_REMOTE_HI n, 0, 64⟩
def SNP_S_REMOTE_LO (n : Nat) : Nat := sa 0x13 (0x1 + n) 0x0 0x10
def SNP_S_REMOTE_LO_ADDR (n : Nat) : Field := ⟨SNP_S_REMOTE_LO n, 0, 64⟩
def SNP_S_SNAPS (n : Nat) : Nat := sa 0x13 (0x1 + n) 0x0 0x18
def SNP_S_SNAPS_BASE (n : Nat) : Field := ⟨SNP_S_SNAPS n, 0, 32⟩
def SNP_S_SNAPS_TARGET (n : Nat) : Field := ⟨SNP_S_SNAPS n, 32, 32⟩
def SNP_S_KEY (n : Nat) : Nat := sa 0x13 (0x1 + n) 0x0 0x20
def SNP_S_KEY_KEY_CTX (n : Nat) : Field := ⟨SNP_S_KEY n, 0, 8⟩
def SNP_S_CMD (n : Nat) : Nat := sa 0x13 (0x1 + n) 0x0 0x24
def SNP_S_CMD_START (n : Nat) : Field := ⟨SNP_S_CMD n, 0, 1⟩
def SNP_S_CMD_RESUME (n : Nat) : Field := ⟨SNP_S_CMD n, 1, 1⟩
def SNP_S_CMD_STOP (n : Nat) : Field := ⟨SNP_S_CMD n, 2, 1⟩
def SNP_S_STATE (n : Nat) : Nat := sa 0x13 (0x1 + n) 0x0 0x28
def SNP_S_STATE_STATE (n : Nat) : Field := ⟨SNP_S_STATE n, 0, 3⟩
def SNP_S_STATE_REPLICA (n : Nat) : Field := ⟨SNP_S_STATE n, 3, 1⟩
def SNP_S_STATE_REASON (n : Nat) : Field := ⟨SNP_S_STATE n, 4, 4⟩
def SNP_S_STATE_AUTH_LEVEL (n : Nat) : Field := ⟨SNP_S_STATE n, 8, 2⟩
def SNP_S_ID (n : Nat) : Nat := sa 0x13 (0x1 + n) 0x0 0x2C
def SNP_S_ID_STREAM_ID (n : Nat) : Field := ⟨SNP_S_ID n, 0, 32⟩
def SNP_S_SENT (n : Nat) : Nat := sa 0x13 (0x1 + n) 0x0 0x30
def SNP_S_SENT_COUNT (n : Nat) : Field := ⟨SNP_S_SENT n, 0, 64⟩
def SNP_S_COMMITTED (n : Nat) : Nat := sa 0x13 (0x1 + n) 0x0 0x38
def SNP_S_COMMITTED_COUNT (n : Nat) : Field := ⟨SNP_S_COMMITTED n, 0, 64⟩
def SNP_S_CHUNKS (n : Nat) : Nat := sa 0x13 (0x1 + n) 0x0 0x40
def SNP_S_CHUNKS_COUNT (n : Nat) : Field := ⟨SNP_S_CHUNKS n, 0, 64⟩
def SNP_S_BYTES (n : Nat) : Nat := sa 0x13 (0x1 + n) 0x0 0x48
def SNP_S_BYTES_COUNT (n : Nat) : Field := ⟨SNP_S_BYTES n, 0, 64⟩
def SNP_S_AUTH_FAIL (n : Nat) : Nat := sa 0x13 (0x1 + n) 0x0 0x50
def SNP_S_AUTH_FAIL_COUNT (n : Nat) : Field := ⟨SNP_S_AUTH_FAIL n, 0, 32⟩
def SNP_S_LOST (n : Nat) : Nat := sa 0x13 (0x1 + n) 0x0 0x54
def SNP_S_LOST_COUNT (n : Nat) : Field := ⟨SNP_S_LOST n, 0, 32⟩
def SNP_S_CTRL_ERR (n : Nat) : Nat := sa 0x13 (0x1 + n) 0x0 0x58
def SNP_S_CTRL_ERR_COUNT (n : Nat) : Field := ⟨SNP_S_CTRL_ERR n, 0, 32⟩
def SNP_S_SAT (n : Nat) : Nat := sa 0x13 (0x1 + n) 0x0 0x5C
def SNP_S_SAT_SAT (n : Nat) : Field := ⟨SNP_S_SAT n, 0, 3⟩
def SNP_S_SAT_CLR (n : Nat) : Field := ⟨SNP_S_SAT n, 8, 1⟩
def SEC_LC : Nat := sa 0x4 0x0 0x0 0x0
def SEC_LC_STATE : Field := ⟨SEC_LC, 0, 2⟩
def SEC_LC_ROOT_VALID : Field := ⟨SEC_LC, 2, 1⟩
def SEC_LC_ROOT_DESTROYED : Field := ⟨SEC_LC, 3, 1⟩
def SEC_LC_DBG_OPEN : Field := ⟨SEC_LC, 4, 1⟩
def SEC_LC_RETURN_PIN : Field := ⟨SEC_LC, 5, 1⟩
def SEC_LC_CHAL_LOCKED : Field := ⟨SEC_LC, 6, 1⟩
def SEC_LC_CMD : Nat := sa 0x4 0x0 0x0 0x4
def SEC_LC_CMD_OP : Field := ⟨SEC_LC_CMD, 0, 4⟩
def SEC_LC_CMD_SLOT : Field := ⟨SEC_LC_CMD, 4, 2⟩
def SEC_LC_CMD_CONFIRM : Field := ⟨SEC_LC_CMD, 16, 16⟩
def SEC_LC_STATUS : Nat := sa 0x4 0x0 0x0 0x8
def SEC_LC_STATUS_BUSY : Field := ⟨SEC_LC_STATUS, 0, 1⟩
def SEC_LC_STATUS_ERR : Field := ⟨SEC_LC_STATUS, 8, 8⟩
def SEC_DEV_ID : Nat := sa 0x4 0x0 0x0 0x10
def SEC_DEV_ID_DEVICE_ID : Field := ⟨SEC_DEV_ID, 0, 64⟩
def SEC_ARRAY : Nat := sa 0x4 0x0 0x0 0x18
def SEC_ARRAY_ARRAY_ID : Field := ⟨SEC_ARRAY, 0, 64⟩
def SEC_KEYSTORE : Nat := sa 0x4 0x0 0x0 0x20
def SEC_KEYSTORE_KSEQ : Field := ⟨SEC_KEYSTORE, 0, 32⟩
def SEC_KEYSTORE_ROOT_HELD : Field := ⟨SEC_KEYSTORE, 32, 1⟩
def SEC_KEYSTORE_PAIRED : Field := ⟨SEC_KEYSTORE, 33, 1⟩
def SEC_PAIR_ALLOW : Nat := sa 0x4 0x0 0x0 0x28
def SEC_PAIR_ALLOW_DEVICE_ID : Field := ⟨SEC_PAIR_ALLOW, 0, 64⟩
def SEC_CERT_ADDR : Nat := sa 0x4 0x0 0x0 0x30
def SEC_CERT_ADDR_ADDR : Field := ⟨SEC_CERT_ADDR, 12, 52⟩
def SEC_DOMAIN_CMD : Nat := sa 0x4 0x0 0x0 0x38
def SEC_DOMAIN_CMD_DOMAIN : Field := ⟨SEC_DOMAIN_CMD, 0, 12⟩
def SEC_DOMAIN_CMD_RAISE : Field := ⟨SEC_DOMAIN_CMD, 16, 1⟩
def SEC_DOMAIN_STATUS : Nat := sa 0x4 0x0 0x0 0x3C
def SEC_DOMAIN_STATUS_DOMAIN : Field := ⟨SEC_DOMAIN_STATUS, 0, 12⟩
def SEC_DOMAIN_STATUS_PHASE : Field := ⟨SEC_DOMAIN_STATUS, 12, 3⟩
def SEC_DOMAIN_STATUS_ERR : Field := ⟨SEC_DOMAIN_STATUS, 16, 8⟩
def SEC_TRNG : Nat := sa 0x4 0x0 0x0 0x40
def SEC_TRNG_HEALTHY : Field := ⟨SEC_TRNG, 0, 1⟩
def SEC_TRNG_FAILED : Field := ⟨SEC_TRNG, 1, 1⟩
def SEC_REPL_CMD : Nat := sa 0x4 0x0 0x0 0x44
def SEC_REPL_CMD_SLOT : Field := ⟨SEC_REPL_CMD, 0, 6⟩
def SEC_REPL_CMD_SET : Field := ⟨SEC_REPL_CMD, 8, 1⟩
def SEC_REPL_CMD_CLEAR : Field := ⟨SEC_REPL_CMD, 9, 1⟩
def SEC_REPL_CMD_BUSY : Field := ⟨SEC_REPL_CMD, 16, 1⟩
def SEC_REPL_CMD_ERR : Field := ⟨SEC_REPL_CMD, 24, 8⟩
def SEC_DERIVES : Nat := sa 0x4 0x0 0x0 0x48
def SEC_DERIVES_COUNT : Field := ⟨SEC_DERIVES, 0, 64⟩
def SEC_RETIRED_READS : Nat := sa 0x4 0x0 0x0 0x50
def SEC_RETIRED_READS_COUNT : Field := ⟨SEC_RETIRED_READS, 0, 64⟩
def SEC_RC_BLOCKS : Nat := sa 0x4 0x0 0x0 0x58
def SEC_RC_BLOCKS_COUNT : Field := ⟨SEC_RC_BLOCKS, 0, 64⟩
def SEC_DG_BLOCKS : Nat := sa 0x4 0x0 0x0 0x60
def SEC_DG_BLOCKS_COUNT : Field := ⟨SEC_DG_BLOCKS, 0, 64⟩
def SEC_TRNG_FAIL : Nat := sa 0x4 0x0 0x0 0x68
def SEC_TRNG_FAIL_COUNT : Field := ⟨SEC_TRNG_FAIL, 0, 32⟩
def SEC_AUTH_FAIL : Nat := sa 0x4 0x0 0x0 0x6C
def SEC_AUTH_FAIL_COUNT : Field := ⟨SEC_AUTH_FAIL, 0, 32⟩
def SEC_SAT : Nat := sa 0x4 0x0 0x0 0x70
def SEC_SAT_TRNG_SAT : Field := ⟨SEC_SAT, 0, 1⟩
def SEC_SAT_AUTH_SAT : Field := ⟨SEC_SAT, 1, 1⟩
def SEC_SAT_CLR : Field := ⟨SEC_SAT, 8, 1⟩
def SEC_MBOX (k : Nat) : Nat := sa 0x4 0x0 0x0 (0x100 + 8 * k)
def SEC_MBOX_DATA (k : Nat) : Field := ⟨SEC_MBOX k, 0, 64⟩
def SEC_RC_STATE : Nat := sa 0x4 0x0 0x1 0x0
def SEC_RC_STATE_RUNNING : Field := ⟨SEC_RC_STATE, 0, 4⟩
def SEC_RC_STATE_ACTIVE : Field := ⟨SEC_RC_STATE, 4, 1⟩
def SEC_RC_STATE_WAITING : Field := ⟨SEC_RC_STATE, 16, 16⟩
def SEC_CC_CTL (n : Nat) : Nat := sa 0x4 0x0 (0x10 + n) 0x0
def SEC_CC_CTL_GO (n : Nat) : Field := ⟨SEC_CC_CTL n, 0, 1⟩
def SEC_CC_CTL_ABORT (n : Nat) : Field := ⟨SEC_CC_CTL n, 1, 1⟩
def SEC_CC_CTL_DIR (n : Nat) : Field := ⟨SEC_CC_CTL n, 2, 1⟩
def SEC_CC_CTL_KEY_SRC (n : Nat) : Field := ⟨SEC_CC_CTL n, 3, 1⟩
def SEC_CC_CTL_PRIO (n : Nat) : Field := ⟨SEC_CC_CTL n, 4, 2⟩
def SEC_CC_STATUS (n : Nat) : Nat := sa 0x4 0x0 (0x10 + n) 0x4
def SEC_CC_STATUS_STATE (n : Nat) : Field := ⟨SEC_CC_STATUS n, 0, 3⟩
def SEC_CC_STATUS_ERR (n : Nat) : Field := ⟨SEC_CC_STATUS n, 8, 8⟩
def SEC_CC_SRC (n : Nat) : Nat := sa 0x4 0x0 (0x10 + n) 0x8
def SEC_CC_SRC_ADDR (n : Nat) : Field := ⟨SEC_CC_SRC n, 4, 60⟩
def SEC_CC_DST (n : Nat) : Nat := sa 0x4 0x0 (0x10 + n) 0x10
def SEC_CC_DST_ADDR (n : Nat) : Field := ⟨SEC_CC_DST n, 4, 60⟩
def SEC_CC_KEY (n k : Nat) : Nat := sa 0x4 0x0 (0x10 + n) (0x20 + 8 * k)
def SEC_CC_KEY_DATA (n k : Nat) : Field := ⟨SEC_CC_KEY n k, 0, 64⟩
def SEC_CC_HCTX (n k : Nat) : Nat := sa 0x4 0x0 (0x10 + n) (0x40 + 8 * k)
def SEC_CC_HCTX_DATA (n k : Nat) : Field := ⟨SEC_CC_HCTX n k, 0, 64⟩
def SEC_DG_SEL : Nat := sa 0x4 0x0 0x2 0x0
def SEC_DG_SEL_CTX : Field := ⟨SEC_DG_SEL, 0, 3⟩
def SEC_DG_CTL : Nat := sa 0x4 0x0 0x2 0x4
def SEC_DG_CTL_ALG : Field := ⟨SEC_DG_CTL, 0, 3⟩
def SEC_DG_CTL_HMAC : Field := ⟨SEC_DG_CTL, 3, 1⟩
def SEC_DG_CTL_INIT : Field := ⟨SEC_DG_CTL, 4, 1⟩
def SEC_DG_CTL_KEY_LEN : Field := ⟨SEC_DG_CTL, 8, 8⟩
def SEC_DG_STATUS : Nat := sa 0x4 0x0 0x2 0x8
def SEC_DG_STATUS_BUSY : Field := ⟨SEC_DG_STATUS, 0, 1⟩
def SEC_DG_STATUS_DONE : Field := ⟨SEC_DG_STATUS, 1, 1⟩
def SEC_DG_STATUS_ERR_EARLY : Field := ⟨SEC_DG_STATUS, 2, 1⟩
def SEC_DG_STATUS_ERR_OVERRUN : Field := ⟨SEC_DG_STATUS, 3, 1⟩
def SEC_DG_STATUS_ERR_KEY : Field := ⟨SEC_DG_STATUS, 4, 1⟩
def SEC_DG_STATUS_ERR_STATE : Field := ⟨SEC_DG_STATUS, 5, 1⟩
def SEC_DG_LEN : Nat := sa 0x4 0x0 0x2 0x18
def SEC_DG_LEN_BYTES : Field := ⟨SEC_DG_LEN, 0, 64⟩
def SEC_DG_RESULT (k : Nat) : Nat := sa 0x4 0x0 0x2 (0x40 + 4 * k)
def SEC_DG_RESULT_WORD (k : Nat) : Field := ⟨SEC_DG_RESULT k, 0, 32⟩
def PER_STATE : Nat := sa 0x14 0x0 0x0 0x0
def PER_STATE_STATE : Field := ⟨PER_STATE, 0, 3⟩
def PER_STATE_HEAD : Field := ⟨PER_STATE, 3, 1⟩
def PER_STATE_SUB0_UP : Field := ⟨PER_STATE, 4, 1⟩
def PER_STATE_SUB1_UP : Field := ⟨PER_STATE, 5, 1⟩
def PER_STATE_SECURED : Field := ⟨PER_STATE, 6, 1⟩
def PER_STATE_FENCE_CAUSE : Field := ⟨PER_STATE, 8, 4⟩
def PER_FENCE : Nat := sa 0x14 0x0 0x0 0x8
def PER_FENCE_WORD : Field := ⟨PER_FENCE, 0, 64⟩
def PER_JSN : Nat := sa 0x14 0x0 0x0 0x10
def PER_JSN_COVERED : Field := ⟨PER_JSN, 0, 32⟩
def PER_JSN_PEER_DURABLE : Field := ⟨PER_JSN, 32, 32⟩
def PER_HOLDOFF : Nat := sa 0x14 0x0 0x0 0x18
def PER_HOLDOFF_REMAINING_S : Field := ⟨PER_HOLDOFF, 0, 16⟩
def PER_HOLDOFF_TO_RECLAIM : Field := ⟨PER_HOLDOFF, 16, 11⟩
def PER_LAST_TO : Nat := sa 0x14 0x0 0x0 0x20
def PER_LAST_TO_NS : Field := ⟨PER_LAST_TO, 0, 64⟩
def PER_TO_US : Nat := sa 0x14 0x0 0x0 0x28
def PER_TO_US_DETECT : Field := ⟨PER_TO_US, 0, 16⟩
def PER_TO_US_FENCE : Field := ⟨PER_TO_US, 16, 16⟩
def PER_TO_US_ADOPT : Field := ⟨PER_TO_US, 32, 16⟩
def PER_TO_US_PUBLISH : Field := ⟨PER_TO_US, 48, 16⟩
def PER_OVERLAY : Nat := sa 0x14 0x0 0x0 0x30
def PER_OVERLAY_RECORDS : Field := ⟨PER_OVERLAY, 0, 21⟩
def PER_CMD : Nat := sa 0x14 0x0 0x0 0x34
def PER_CMD_SELF_FENCE : Field := ⟨PER_CMD, 0, 1⟩
def PER_HB_TX : Nat := sa 0x14 0x0 0x0 0x38
def PER_HB_TX_COUNT : Field := ⟨PER_HB_TX, 0, 64⟩
def PER_HB_RX : Nat := sa 0x14 0x0 0x0 0x40
def PER_HB_RX_COUNT : Field := ⟨PER_HB_RX, 0, 64⟩
def PER_MIRROR_BYTES : Nat := sa 0x14 0x0 0x0 0x48
def PER_MIRROR_BYTES_COUNT : Field := ⟨PER_MIRROR_BYTES, 0, 64⟩
def PER_FLUSHES : Nat := sa 0x14 0x0 0x0 0x50
def PER_FLUSHES_COUNT : Field := ⟨PER_FLUSHES, 0, 64⟩
def PER_MSGS_TX : Nat := sa 0x14 0x0 0x0 0x58
def PER_MSGS_TX_COUNT : Field := ⟨PER_MSGS_TX, 0, 64⟩
def PER_MSGS_RX : Nat := sa 0x14 0x0 0x0 0x60
def PER_MSGS_RX_COUNT : Field := ⟨PER_MSGS_RX, 0, 64⟩
def PER_TAKEOVERS : Nat := sa 0x14 0x0 0x0 0x68
def PER_TAKEOVERS_COUNT : Field := ⟨PER_TAKEOVERS, 0, 64⟩
def PER_RETURNS : Nat := sa 0x14 0x0 0x0 0x70
def PER_RETURNS_COUNT : Field := ⟨PER_RETURNS, 0, 64⟩
def PER_CONTESTS : Nat := sa 0x14 0x0 0x0 0x78
def PER_CONTESTS_COUNT : Field := ⟨PER_CONTESTS, 0, 64⟩
def PER_HB_MISSED : Nat := sa 0x14 0x0 0x0 0x80
def PER_HB_MISSED_COUNT : Field := ⟨PER_HB_MISSED, 0, 32⟩
def PER_CRC_ERR : Nat := sa 0x14 0x0 0x0 0x84
def PER_CRC_ERR_COUNT : Field := ⟨PER_CRC_ERR, 0, 32⟩
def PER_MSG_ERR : Nat := sa 0x14 0x0 0x0 0x88
def PER_MSG_ERR_COUNT : Field := ⟨PER_MSG_ERR, 0, 32⟩
def PER_CONTEST_LOST : Nat := sa 0x14 0x0 0x0 0x8C
def PER_CONTEST_LOST_COUNT : Field := ⟨PER_CONTEST_LOST, 0, 32⟩
def PER_DOUBLE_LOSS : Nat := sa 0x14 0x0 0x0 0x90
def PER_DOUBLE_LOSS_COUNT : Field := ⟨PER_DOUBLE_LOSS, 0, 32⟩
def PER_SAT : Nat := sa 0x14 0x0 0x0 0x94
def PER_SAT_SAT : Field := ⟨PER_SAT, 0, 5⟩
def PER_SAT_CLR : Field := ⟨PER_SAT, 8, 1⟩
def PER_L_STATE (j : Nat) : Nat := sa 0x14 0x0 (0x1 + j) 0x0
def PER_L_STATE_SIGNAL (j : Nat) : Field := ⟨PER_L_STATE j, 0, 1⟩
def PER_L_STATE_ALIGNED (j : Nat) : Field := ⟨PER_L_STATE j, 1, 1⟩
def PER_L_STATE_CALIBRATING (j : Nat) : Field := ⟨PER_L_STATE j, 2, 1⟩
def PER_L_STATE_SUBLINK (j : Nat) : Field := ⟨PER_L_STATE j, 3, 1⟩
def PER_L_FEC_CORR (j : Nat) : Nat := sa 0x14 0x0 (0x1 + j) 0x8
def PER_L_FEC_CORR_COUNT (j : Nat) : Field := ⟨PER_L_FEC_CORR j, 0, 64⟩
def PER_L_FEC_UNCORR (j : Nat) : Nat := sa 0x14 0x0 (0x1 + j) 0x10
def PER_L_FEC_UNCORR_COUNT (j : Nat) : Field := ⟨PER_L_FEC_UNCORR j, 0, 32⟩
def PER_L_SAT (j : Nat) : Nat := sa 0x14 0x0 (0x1 + j) 0x14
def PER_L_SAT_UNCORR_SAT (j : Nat) : Field := ⟨PER_L_SAT j, 0, 1⟩
def PER_L_SAT_CLR (j : Nat) : Field := ⟨PER_L_SAT j, 8, 1⟩
def HEP_ID : Nat := sa 0x5 0x0 0x0 0x0
def HEP_ID_DEVICE : Field := ⟨HEP_ID, 0, 16⟩
def HEP_ID_REVISION : Field := ⟨HEP_ID, 16, 8⟩
def HEP_LINK : Nat := sa 0x5 0x0 0x0 0x4
def HEP_LINK_SPEED : Field := ⟨HEP_LINK, 0, 4⟩
def HEP_LINK_WIDTH : Field := ⟨HEP_LINK, 4, 4⟩
def HEP_LINK_FLIT : Field := ⟨HEP_LINK, 8, 1⟩
def HEP_LINK_UP : Field := ⟨HEP_LINK, 9, 1⟩
def HEP_FUNC : Nat := sa 0x5 0x0 0x0 0x8
def HEP_FUNC_BME : Field := ⟨HEP_FUNC, 0, 1⟩
def HEP_FUNC_MSIX_EN : Field := ⟨HEP_FUNC, 1, 1⟩
def HEP_FUNC_ATS_EN : Field := ⟨HEP_FUNC, 2, 1⟩
def HEP_FUNC_D3HOT : Field := ⟨HEP_FUNC, 3, 1⟩
def HEP_FUNC_RESETTING : Field := ⟨HEP_FUNC, 4, 1⟩
def HEP_FUNC_HOLDING : Field := ⟨HEP_FUNC, 5, 1⟩
def HEP_INT_STATUS : Nat := sa 0x5 0x0 0x0 0xC
def HEP_INT_STATUS_STRUCT : Field := ⟨HEP_INT_STATUS, 0, 1⟩
def HEP_INT_STATUS_HOST_ABORT : Field := ⟨HEP_INT_STATUS, 1, 1⟩
def HEP_INT_EN : Nat := sa 0x5 0x0 0x0 0x10
def HEP_INT_EN_STRUCT : Field := ⟨HEP_INT_EN, 0, 1⟩
def HEP_INT_EN_HOST_ABORT : Field := ⟨HEP_INT_EN, 1, 1⟩
def HEP_INT_VEC : Nat := sa 0x5 0x0 0x0 0x14
def HEP_INT_VEC_VECTOR : Field := ⟨HEP_INT_VEC, 0, 11⟩
def HEP_MSIX_HOLDOFF : Nat := sa 0x5 0x0 0x0 0x18
def HEP_MSIX_HOLDOFF_UNITS : Field := ⟨HEP_MSIX_HOLDOFF, 0, 16⟩
def HEP_STRUCT_GEN : Nat := sa 0x5 0x0 0x0 0x1C
def HEP_STRUCT_GEN_GEN : Field := ⟨HEP_STRUCT_GEN, 0, 16⟩
def HEP_DMA_RD_BYTES : Nat := sa 0x5 0x0 0x0 0x20
def HEP_DMA_RD_BYTES_COUNT : Field := ⟨HEP_DMA_RD_BYTES, 0, 64⟩
def HEP_DMA_WR_BYTES : Nat := sa 0x5 0x0 0x0 0x28
def HEP_DMA_WR_BYTES_COUNT : Field := ⟨HEP_DMA_WR_BYTES, 0, 64⟩
def HEP_MSIX_SENT : Nat := sa 0x5 0x0 0x0 0x30
def HEP_MSIX_SENT_COUNT : Field := ⟨HEP_MSIX_SENT, 0, 64⟩
def HEP_FLRS : Nat := sa 0x5 0x0 0x0 0x38
def HEP_FLRS_COUNT : Field := ⟨HEP_FLRS, 0, 64⟩
def HEP_DISCARDED_CPL : Nat := sa 0x5 0x0 0x0 0x40
def HEP_DISCARDED_CPL_COUNT : Field := ⟨HEP_DISCARDED_CPL, 0, 64⟩
def HEP_COR_ERR : Nat := sa 0x5 0x0 0x0 0x48
def HEP_COR_ERR_COUNT : Field := ⟨HEP_COR_ERR, 0, 32⟩
def HEP_NONFATAL_ERR : Nat := sa 0x5 0x0 0x0 0x4C
def HEP_NONFATAL_ERR_COUNT : Field := ⟨HEP_NONFATAL_ERR, 0, 32⟩
def HEP_FATAL_ERR : Nat := sa 0x5 0x0 0x0 0x50
def HEP_FATAL_ERR_COUNT : Field := ⟨HEP_FATAL_ERR, 0, 32⟩
def HEP_CPL_TIMEOUT : Nat := sa 0x5 0x0 0x0 0x54
def HEP_CPL_TIMEOUT_COUNT : Field := ⟨HEP_CPL_TIMEOUT, 0, 32⟩
def HEP_ACCESS_ERR : Nat := sa 0x5 0x0 0x0 0x58
def HEP_ACCESS_ERR_COUNT : Field := ⟨HEP_ACCESS_ERR, 0, 32⟩
def HEP_HOST_ABORTS : Nat := sa 0x5 0x0 0x0 0x5C
def HEP_HOST_ABORTS_COUNT : Field := ⟨HEP_HOST_ABORTS, 0, 32⟩
def HEP_HELD_CPL : Nat := sa 0x5 0x0 0x0 0x64
def HEP_HELD_CPL_ENTRIES : Field := ⟨HEP_HELD_CPL, 0, 19⟩
def HEP_SAT : Nat := sa 0x5 0x0 0x0 0x60
def HEP_SAT_SAT : Field := ⟨HEP_SAT, 0, 6⟩
def HEP_SAT_CLR : Field := ⟨HEP_SAT, 8, 1⟩
def HTH_STATE : Nat := sa 0x0 0x0 0x0 0x0
def HTH_STATE_STATE : Field := ⟨HTH_STATE, 0, 3⟩
def HTH_STATE_STEP : Field := ⟨HTH_STATE, 4, 4⟩
def HTH_STATE_IO_READY : Field := ⟨HTH_STATE, 8, 1⟩
def HTH_STATE_PWR_FAIL : Field := ⟨HTH_STATE, 9, 1⟩
def HTH_STATE_LOCKOUT : Field := ⟨HTH_STATE, 10, 1⟩
def HTH_RESET_CAUSE : Nat := sa 0x0 0x0 0x0 0x4
def HTH_RESET_CAUSE_CAUSE : Field := ⟨HTH_RESET_CAUSE, 0, 4⟩
def HTH_RESET_CAUSE_WARM : Field := ⟨HTH_RESET_CAUSE, 8, 8⟩
def HTH_TIME : Nat := sa 0x0 0x0 0x0 0x8
def HTH_TIME_NS : Field := ⟨HTH_TIME, 0, 64⟩
def HTH_TIME_ADJ : Nat := sa 0x0 0x0 0x0 0x10
def HTH_TIME_ADJ_FREQ_PPB : Field := ⟨HTH_TIME_ADJ, 0, 24⟩
def HTH_TIME_ADJ_SOURCE : Field := ⟨HTH_TIME_ADJ, 24, 2⟩
def HTH_TIME_ADJ_STEPPED : Field := ⟨HTH_TIME_ADJ, 26, 1⟩
def HTH_TIME_PEER : Nat := sa 0x0 0x0 0x0 0x14
def HTH_TIME_PEER_OFFSET_NS : Field := ⟨HTH_TIME_PEER, 0, 32⟩
def HTH_CMD : Nat := sa 0x0 0x0 0x0 0x24
def HTH_CMD_RESTART : Field := ⟨HTH_CMD, 0, 1⟩
def HTH_TEMP : Nat := sa 0x0 0x0 0x0 0x28
def HTH_TEMP_CUR_C : Field := ⟨HTH_TEMP, 0, 8⟩
def HTH_TEMP_MAX_C : Field := ⟨HTH_TEMP, 8, 8⟩
def HTH_LAST_FLUSH : Nat := sa 0x0 0x0 0x0 0x30
def HTH_LAST_FLUSH_NS : Field := ⟨HTH_LAST_FLUSH, 0, 64⟩
def HTH_STW_RESTARTS : Nat := sa 0x0 0x0 0x0 0x38
def HTH_STW_RESTARTS_COUNT : Field := ⟨HTH_STW_RESTARTS, 0, 64⟩
def HTH_HEAD_FAILS : Nat := sa 0x0 0x0 0x0 0x40
def HTH_HEAD_FAILS_COUNT : Field := ⟨HTH_HEAD_FAILS, 0, 32⟩
def HTH_SAT : Nat := sa 0x0 0x0 0x0 0x44
def HTH_SAT_FAILS_SAT : Field := ⟨HTH_SAT, 0, 1⟩
def HTH_SAT_CLR : Field := ⟨HTH_SAT, 8, 1⟩
def CLK_DOMAINS : Nat := sa 0x2 0x0 0x0 0x0
def CLK_DOMAINS_NET_ON : Field := ⟨CLK_DOMAINS, 0, 1⟩
def CLK_DOMAINS_MAP_ON : Field := ⟨CLK_DOMAINS, 1, 1⟩
def CLK_DOMAINS_DRAM_ON : Field := ⟨CLK_DOMAINS, 2, 1⟩
def CLK_DOMAINS_TRAY_LOCK : Field := ⟨CLK_DOMAINS, 8, 24⟩
def CLK_BAKE : Nat := sa 0x2 0x0 0x0 0x4
def CLK_BAKE_MAX_MHZ : Field := ⟨CLK_BAKE, 0, 11⟩
def CLK_BAKE_CUR_MHZ : Field := ⟨CLK_BAKE, 16, 11⟩
def CLK_BAKE_THROTTLED : Field := ⟨CLK_BAKE, 31, 1⟩
def CLK_CAL_CFG : Nat := sa 0x2 0x0 0x0 0x10
def CLK_CAL_CFG_DRIFT_C : Field := ⟨CLK_CAL_CFG, 0, 8⟩
def CLK_CAL_CMD : Nat := sa 0x2 0x0 0x0 0x14
def CLK_CAL_CMD_KIND : Field := ⟨CLK_CAL_CMD, 0, 3⟩
def CLK_CAL_CMD_INDEX : Field := ⟨CLK_CAL_CMD, 8, 5⟩
def CLK_CAL_CMD_GO : Field := ⟨CLK_CAL_CMD, 31, 1⟩
def CLK_CAL_STATUS : Nat := sa 0x2 0x0 0x0 0x18
def CLK_CAL_STATUS_STATE : Field := ⟨CLK_CAL_STATUS, 0, 2⟩
def CLK_CAL_STATUS_RESULT : Field := ⟨CLK_CAL_STATUS, 4, 4⟩
def CLK_CAL_STATUS_KIND : Field := ⟨CLK_CAL_STATUS, 8, 3⟩
def CLK_CAL_STATUS_INDEX : Field := ⟨CLK_CAL_STATUS, 16, 5⟩
def CLK_CALS : Nat := sa 0x2 0x0 0x0 0x20
def CLK_CALS_COUNT : Field := ⟨CLK_CALS, 0, 64⟩
def CLK_THROTTLE_NS : Nat := sa 0x2 0x0 0x0 0x28
def CLK_THROTTLE_NS_COUNT : Field := ⟨CLK_THROTTLE_NS, 0, 64⟩
def CLK_CAL_FAIL : Nat := sa 0x2 0x0 0x0 0x30
def CLK_CAL_FAIL_COUNT : Field := ⟨CLK_CAL_FAIL, 0, 32⟩
def CLK_SAT : Nat := sa 0x2 0x0 0x0 0x34
def CLK_SAT_CAL_SAT : Field := ⟨CLK_SAT, 0, 1⟩
def CLK_SAT_CLR : Field := ⟨CLK_SAT, 8, 1⟩
def EVT_NEWEST : Nat := sa 0x3 0x0 0x0 0x0
def EVT_NEWEST_SEQ : Field := ⟨EVT_NEWEST, 0, 32⟩
def EVT_OLDEST : Nat := sa 0x3 0x0 0x0 0x4
def EVT_OLDEST_SEQ : Field := ⟨EVT_OLDEST, 0, 32⟩
def EVT_WIN : Nat := sa 0x3 0x0 0x0 0x8
def EVT_WIN_WINDOW : Field := ⟨EVT_WIN, 0, 5⟩
def EVT_MASK : Nat := sa 0x3 0x0 0x0 0x10
def EVT_MASK_STEWARD : Field := ⟨EVT_MASK, 0, 64⟩
def EVT_INT : Nat := sa 0x3 0x0 0x0 0x18
def EVT_INT_MIN_SEV : Field := ⟨EVT_INT, 0, 3⟩
def EVT_INT_EN : Field := ⟨EVT_INT, 3, 1⟩
def EVT_INT_VECTOR : Field := ⟨EVT_INT, 4, 11⟩
def EVT_INT_STATUS : Nat := sa 0x3 0x0 0x0 0x1C
def EVT_INT_STATUS_NEW : Field := ⟨EVT_INT_STATUS, 0, 1⟩
def EVT_RECORDED : Nat := sa 0x3 0x0 0x0 0x28
def EVT_RECORDED_COUNT : Field := ⟨EVT_RECORDED, 0, 64⟩
def EVT_REPEATS : Nat := sa 0x3 0x0 0x0 0x30
def EVT_REPEATS_COUNT : Field := ⟨EVT_REPEATS, 0, 64⟩
def EVT_MASKED : Nat := sa 0x3 0x0 0x0 0x38
def EVT_MASKED_COUNT : Field := ⟨EVT_MASKED, 0, 64⟩
def EVT_DROPPED : Nat := sa 0x3 0x0 0x0 0x40
def EVT_DROPPED_COUNT : Field := ⟨EVT_DROPPED, 0, 32⟩
def EVT_SMB_ERR : Nat := sa 0x3 0x0 0x0 0x44
def EVT_SMB_ERR_COUNT : Field := ⟨EVT_SMB_ERR, 0, 32⟩
def EVT_SAT : Nat := sa 0x3 0x0 0x0 0x48
def EVT_SAT_SAT : Field := ⟨EVT_SAT, 0, 2⟩
def EVT_SAT_CLR : Field := ⟨EVT_SAT, 8, 1⟩
def INS_UP_HEAD : Nat := sa 0xD 0x0 0x0 0x114
def INS_UP_HEAD_INDEX : Field := ⟨INS_UP_HEAD, 0, 12⟩
def INS_UP_TAIL : Nat := sa 0xD 0x0 0x0 0x118
def INS_UP_TAIL_INDEX : Field := ⟨INS_UP_TAIL, 0, 12⟩
def INS_DN_TAIL : Nat := sa 0xD 0x0 0x0 0x128
def INS_DN_TAIL_INDEX : Field := ⟨INS_DN_TAIL, 0, 12⟩
def INS_DN_HEAD : Nat := sa 0xD 0x0 0x0 0x12C
def INS_DN_HEAD_INDEX : Field := ⟨INS_DN_HEAD, 0, 12⟩
def FRT_P_IP6_HI (p k : Nat) : Nat := sa 0xA p 0x0 (0x30 + 24 * k)
def FRT_P_IP6_HI_ADDR_HI (p k : Nat) : Field := ⟨FRT_P_IP6_HI p k, 0, 64⟩
def FRT_P_IP6_LO (p k : Nat) : Nat := sa 0xA p 0x0 (0x38 + 24 * k)
def FRT_P_IP6_LO_ADDR_LO (p k : Nat) : Field := ⟨FRT_P_IP6_LO p k, 0, 64⟩
def FRT_P_IP6_CTL (p k : Nat) : Nat := sa 0xA p 0x0 (0x40 + 24 * k)
def FRT_P_IP6_CTL_PREFIX (p k : Nat) : Field := ⟨FRT_P_IP6_CTL p k, 0, 8⟩
def FRT_P_IP6_CTL_VALID (p k : Nat) : Field := ⟨FRT_P_IP6_CTL p k, 63, 1⟩
def SEC_CC_COUNT (n : Nat) : Nat := sa 0x4 0x0 (0x10 + n) 0x18
def SEC_CC_COUNT_BLOCKS (n : Nat) : Field := ⟨SEC_CC_COUNT n, 0, 25⟩
def SEC_CC_DONE (n : Nat) : Nat := sa 0x4 0x0 (0x10 + n) 0x1C
def SEC_CC_DONE_BLOCKS (n : Nat) : Field := ⟨SEC_CC_DONE n, 0, 25⟩
def SEC_DG_DATA : Nat := sa 0x4 0x0 0x2 0xC
def SEC_DG_DATA_WORD : Field := ⟨SEC_DG_DATA, 0, 32⟩
def SEC_DG_KEY : Nat := sa 0x4 0x0 0x2 0x10
def SEC_DG_KEY_WORD : Field := ⟨SEC_DG_KEY, 0, 32⟩
def SEC_DG_FINAL : Nat := sa 0x4 0x0 0x2 0x14
def SEC_DG_FINAL_TAIL_BYTES : Field := ⟨SEC_DG_FINAL, 0, 2⟩
def SEC_DG_FINAL_TAIL : Field := ⟨SEC_DG_FINAL, 8, 24⟩
def HTH_PARAM0 : Nat := sa 0x0 0x0 0x0 0x18
def HTH_PARAM0_STABLE_S : Field := ⟨HTH_PARAM0, 0, 16⟩
def HTH_PARAM0_FENCE_RESTART_S : Field := ⟨HTH_PARAM0, 16, 8⟩
def HTH_PARAM0_STW_RESTARTS : Field := ⟨HTH_PARAM0, 24, 4⟩
def HTH_PARAM1 : Nat := sa 0x0 0x0 0x0 0x1C
def HTH_PARAM1_THERM_CAP_C : Field := ⟨HTH_PARAM1, 0, 8⟩
def HTH_PARAM1_THERM_TRIP_C : Field := ⟨HTH_PARAM1, 8, 8⟩
def HTH_PARAM1_STEP_THRESH_US : Field := ⟨HTH_PARAM1, 16, 16⟩
def HTH_PARAM2 : Nat := sa 0x0 0x0 0x0 0x20
def HTH_PARAM2_THAG_FLIGHT_NS : Field := ⟨HTH_PARAM2, 0, 16⟩
def HTH_PARAM2_PORT_HOLD_US : Field := ⟨HTH_PARAM2, 16, 16⟩
def CLK_VCORE : Nat := sa 0x2 0x0 0x0 0x8
def CLK_VCORE_MV : Field := ⟨CLK_VCORE, 0, 10⟩
def CLK_POWER : Nat := sa 0x2 0x0 0x0 0xC
def CLK_POWER_DECIWATTS : Field := ⟨CLK_POWER, 0, 12⟩
def E_IMG_REJECTS : ErrCtr := ⟨IMG_REJECTS, IMG_CNT_SAT, 0⟩
def E_IMG_ROLLBACKS : ErrCtr := ⟨IMG_ROLLBACKS, IMG_CNT_SAT, 1⟩
def E_TRY_CMP_FAULTS : ErrCtr := ⟨TRY_CMP_FAULTS, TRY_CNT_SAT, 0⟩
def E_TRY_ROLL_FENCES : ErrCtr := ⟨TRY_ROLL_FENCES, TRY_CNT_SAT, 1⟩
def E_TRY_TRAY_FAULTS : ErrCtr := ⟨TRY_TRAY_FAULTS, TRY_CNT_SAT, 2⟩
def E_TRY_TC_CRC_ERR (t : Nat) : ErrCtr := ⟨TRY_TC_CRC_ERR t, TRY_TC_SAT t, 0⟩
def E_TRY_TC_MISMATCH (t : Nat) : ErrCtr := ⟨TRY_TC_MISMATCH t, TRY_TC_SAT t, 1⟩
def E_TRY_ROLL_MISMATCH (t r : Nat) : ErrCtr := ⟨TRY_ROLL_MISMATCH t r, TRY_ROLL_SAT t r, 0⟩
def E_CMQ_WR_LEN_ERR : ErrCtr := ⟨CMQ_WR_LEN_ERR, CMQ_WR_SAT, 0⟩
def E_CMQ_WR_CAP_ERR : ErrCtr := ⟨CMQ_WR_CAP_ERR, CMQ_WR_SAT, 1⟩
def E_CMQ_WR_CTRL_FAIL : ErrCtr := ⟨CMQ_WR_CTRL_FAIL, CMQ_WR_SAT, 2⟩
def E_CMQ_RD_LOST : ErrCtr := ⟨CMQ_RD_LOST, CMQ_RD_SAT, 0⟩
def E_CMQ_RD_DECODE : ErrCtr := ⟨CMQ_RD_DECODE, CMQ_RD_SAT, 1⟩
def E_CMQ_RD_UNAVAIL : ErrCtr := ⟨CMQ_RD_UNAVAIL, CMQ_RD_SAT, 2⟩
def E_PAN_DRAM_CLR : ErrCtr := ⟨PAN_DRAM_CLR, PAN_SAT, 0⟩
def E_PAN_CAPPED : ErrCtr := ⟨PAN_CAPPED, PAN_SAT, 1⟩
def E_PAN_STUCK : ErrCtr := ⟨PAN_STUCK, PAN_SAT, 2⟩
def E_PAN_OWNER_LOST : ErrCtr := ⟨PAN_OWNER_LOST, PAN_SAT, 3⟩
def E_MAP_ALT_COPY : ErrCtr := ⟨MAP_ALT_COPY, MAP_SAT, 0⟩
def E_MAP_LOST : ErrCtr := ⟨MAP_LOST, MAP_SAT, 1⟩
def E_MAP_TAG_PARITY : ErrCtr := ⟨MAP_TAG_PARITY, MAP_SAT, 2⟩
def E_MAP_DATA_UE : ErrCtr := ⟨MAP_DATA_UE, MAP_SAT, 3⟩
def E_MED_PROG_FAIL : ErrCtr := ⟨MED_PROG_FAIL, MED_SAT, 0⟩
def E_MED_ERASE_FAIL : ErrCtr := ⟨MED_ERASE_FAIL, MED_SAT, 1⟩
def E_MED_REBUILDS : ErrCtr := ⟨MED_REBUILDS, MED_SAT, 2⟩
def E_MED_LOST_COPIES : ErrCtr := ⟨MED_LOST_COPIES, MED_SAT, 3⟩
def E_MED_RETIRED : ErrCtr := ⟨MED_RETIRED, MED_SAT, 4⟩
def E_MED_RD_STUCK : ErrCtr := ⟨MED_RD_STUCK, MED_SAT, 5⟩
def E_MED_DEAD_DROPS : ErrCtr := ⟨MED_DEAD_DROPS, MED_SAT, 6⟩
def E_MED_M_RETIRED (m : Nat) : ErrCtr := ⟨MED_M_RETIRED m, MED_M_SAT m, 0⟩
def E_MED_M_UNCORR (m : Nat) : ErrCtr := ⟨MED_M_UNCORR m, MED_M_SAT m, 1⟩
def E_MED_L_CRC_ERR (m : Nat) : ErrCtr := ⟨MED_L_CRC_ERR m, MED_L_SAT m, 0⟩
def E_MED_L_LEN_ERR (m : Nat) : ErrCtr := ⟨MED_L_LEN_ERR m, MED_L_SAT m, 1⟩
def E_MED_L_FENCED (m : Nat) : ErrCtr := ⟨MED_L_FENCED m, MED_L_SAT m, 2⟩
def E_MED_L_RETRAINS (m : Nat) : ErrCtr := ⟨MED_L_RETRAINS m, MED_L_SAT m, 3⟩
def E_MED_L_DOWNS (m : Nat) : ErrCtr := ⟨MED_L_DOWNS m, MED_L_SAT m, 4⟩
def E_MED_L_TIMEOUTS (m : Nat) : ErrCtr := ⟨MED_L_TIMEOUTS m, MED_L_SAT m, 5⟩
def E_FRT_P_FCS_ERR (p : Nat) : ErrCtr := ⟨FRT_P_FCS_ERR p, FRT_P_SAT p, 0⟩
def E_FRT_P_STORMS (p : Nat) : ErrCtr := ⟨FRT_P_STORMS p, FRT_P_SAT p, 1⟩
def E_FRT_L_FEC_UNCORR (p j : Nat) : ErrCtr := ⟨FRT_L_FEC_UNCORR p j, FRT_L_SAT p j, 0⟩
def E_TRN_QP_ERRORS : ErrCtr := ⟨TRN_QP_ERRORS, TRN_SAT, 0⟩
def E_TRN_ICRC_ERR : ErrCtr := ⟨TRN_ICRC_ERR, TRN_SAT, 1⟩
def E_TRN_ACCESS_NAK : ErrCtr := ⟨TRN_ACCESS_NAK, TRN_SAT, 2⟩
def E_TRN_INVALID_NAK : ErrCtr := ⟨TRN_INVALID_NAK, TRN_SAT, 3⟩
def E_TRN_DESC_CRC : ErrCtr := ⟨TRN_DESC_CRC, TRN_SAT, 4⟩
def E_TRN_CM_REJ : ErrCtr := ⟨TRN_CM_REJ, TRN_SAT, 5⟩
def E_CMQ_ERR_CMDS : ErrCtr := ⟨CMQ_ERR_CMDS, CMQ_SAT, 0⟩
def E_CMQ_INVALID_CMDS : ErrCtr := ⟨CMQ_INVALID_CMDS, CMQ_SAT, 1⟩
def E_CMQ_KATO_EXP : ErrCtr := ⟨CMQ_KATO_EXP, CMQ_SAT, 2⟩
def E_CMQ_INTERRUPTED : ErrCtr := ⟨CMQ_INTERRUPTED, CMQ_SAT, 3⟩
def E_INS_MIG_ABORTS : ErrCtr := ⟨INS_MIG_ABORTS, INS_SAT, 0⟩
def E_INS_BLOB_FAIL : ErrCtr := ⟨INS_BLOB_FAIL, INS_SAT, 1⟩
def E_INS_RING_ERR : ErrCtr := ⟨INS_RING_ERR, INS_SAT, 2⟩
def E_SNP_SPLIT_FAIL : ErrCtr := ⟨SNP_SPLIT_FAIL, SNP_SAT, 0⟩
def E_SNP_S_AUTH_FAIL (n : Nat) : ErrCtr := ⟨SNP_S_AUTH_FAIL n, SNP_S_SAT n, 0⟩
def E_SNP_S_LOST (n : Nat) : ErrCtr := ⟨SNP_S_LOST n, SNP_S_SAT n, 1⟩
def E_SNP_S_CTRL_ERR (n : Nat) : ErrCtr := ⟨SNP_S_CTRL_ERR n, SNP_S_SAT n, 2⟩
def E_SEC_TRNG_FAIL : ErrCtr := ⟨SEC_TRNG_FAIL, SEC_SAT, 0⟩
def E_SEC_AUTH_FAIL : ErrCtr := ⟨SEC_AUTH_FAIL, SEC_SAT, 1⟩
def E_PER_HB_MISSED : ErrCtr := ⟨PER_HB_MISSED, PER_SAT, 0⟩
def E_PER_CRC_ERR : ErrCtr := ⟨PER_CRC_ERR, PER_SAT, 1⟩
def E_PER_MSG_ERR : ErrCtr := ⟨PER_MSG_ERR, PER_SAT, 2⟩
def E_PER_CONTEST_LOST : ErrCtr := ⟨PER_CONTEST_LOST, PER_SAT, 3⟩
def E_PER_DOUBLE_LOSS : ErrCtr := ⟨PER_DOUBLE_LOSS, PER_SAT, 4⟩
def E_PER_L_FEC_UNCORR (j : Nat) : ErrCtr := ⟨PER_L_FEC_UNCORR j, PER_L_SAT j, 0⟩
def E_HEP_COR_ERR : ErrCtr := ⟨HEP_COR_ERR, HEP_SAT, 0⟩
def E_HEP_NONFATAL_ERR : ErrCtr := ⟨HEP_NONFATAL_ERR, HEP_SAT, 1⟩
def E_HEP_FATAL_ERR : ErrCtr := ⟨HEP_FATAL_ERR, HEP_SAT, 2⟩
def E_HEP_CPL_TIMEOUT : ErrCtr := ⟨HEP_CPL_TIMEOUT, HEP_SAT, 3⟩
def E_HEP_ACCESS_ERR : ErrCtr := ⟨HEP_ACCESS_ERR, HEP_SAT, 4⟩
def E_HEP_HOST_ABORTS : ErrCtr := ⟨HEP_HOST_ABORTS, HEP_SAT, 5⟩
def E_HTH_HEAD_FAILS : ErrCtr := ⟨HTH_HEAD_FAILS, HTH_SAT, 0⟩
def E_CLK_CAL_FAIL : ErrCtr := ⟨CLK_CAL_FAIL, CLK_SAT, 0⟩
def E_EVT_DROPPED : ErrCtr := ⟨EVT_DROPPED, EVT_SAT, 0⟩
def E_EVT_SMB_ERR : ErrCtr := ⟨EVT_SMB_ERR, EVT_SAT, 1⟩

end R

/-- Register rows of IMG_. -/
def rowsIMG : List RegRow :=
  [⟨0x1, (0, 1), (0, 1), 0x0, (8, 1), 32, [⟨0, 4, .wo⟩, ⟨4, 1, .wo⟩, ⟨8, 8, .wo⟩, ⟨16, 2, .wo⟩]⟩,
   ⟨0x1, (0, 1), (0, 1), 0x4, (8, 1), 32, [⟨0, 4, .hw⟩, ⟨4, 1, .hw⟩, ⟨5, 1, .rw1c⟩, ⟨8, 8, .hw⟩, ⟨16, 16, .hw⟩]⟩,
   ⟨0x1, (0, 1), (0, 1), 0x8, (8, 1), 64, [⟨12, 52, .rw⟩]⟩,
   ⟨0x1, (0, 1), (0, 1), 0x10, (8, 1), 32, [⟨0, 25, .rw⟩]⟩,
   ⟨0x1, (0, 1), (0, 1), 0x18, (8, 1), 64, [⟨0, 64, .hw⟩]⟩,
   ⟨0x1, (0, 1), (0, 1), 0x20, (8, 1), 32, [⟨0, 16, .hw⟩, ⟨16, 16, .hw⟩]⟩,
   ⟨0x1, (0, 1), (0, 1), 0x28, (8, 1), 32, [⟨0, 1, .hw⟩, ⟨8, 8, .hw⟩, ⟨16, 16, .hw⟩]⟩,
   ⟨0x1, (0, 1), (0, 1), 0x2C, (8, 1), 32, [⟨0, 1, .hw⟩, ⟨8, 8, .hw⟩, ⟨16, 16, .hw⟩]⟩,
   ⟨0x1, (0, 1), (0, 1), 0x30, (8, 1), 64, [⟨0, 64, .hw⟩]⟩,
   ⟨0x1, (0, 1), (0, 1), 0x38, (8, 1), 64, [⟨0, 64, .hw⟩]⟩,
   ⟨0x1, (0, 1), (0, 1), 0x40, (8, 1), 32, [⟨0, 2, .hw⟩, ⟨8, 8, .hw⟩, ⟨16, 8, .hw⟩]⟩,
   ⟨0x1, (0, 1), (0, 1), 0x44, (8, 1), 32, [⟨0, 4, .hw⟩, ⟨4, 4, .hw⟩, ⟨8, 2, .hw⟩]⟩,
   ⟨0x1, (0, 1), (0, 1), 0x48, (8, 1), 64, [⟨0, 64, .hw⟩]⟩,
   ⟨0x1, (0, 1), (0, 1), 0x50, (8, 1), 32, [⟨0, 32, .hw⟩]⟩,
   ⟨0x1, (0, 1), (0, 1), 0x54, (8, 1), 32, [⟨0, 32, .hw⟩]⟩,
   ⟨0x1, (0, 1), (0, 1), 0x58, (8, 1), 32, [⟨0, 1, .hw⟩, ⟨1, 1, .hw⟩, ⟨8, 1, .wo⟩]⟩,
   ⟨0x1, (0, 1), (0, 1), 0x5C, (8, 1), 32, [⟨0, 1, .hw⟩, ⟨1, 1, .hw⟩]⟩,
   ⟨0x1, (0, 1), (0, 1), 0x60, (8, 1), 32, [⟨0, 16, .hw⟩, ⟨16, 1, .hw⟩]⟩]

/-- Register rows of TRY_. -/
def rowsTRY : List RegRow :=
  [⟨0x8, (24, 1), (0, 1), 0x0, (8, 1), 32, [⟨0, 24, .hw⟩]⟩,
   ⟨0x8, (24, 1), (0, 1), 0x4, (8, 1), 32, [⟨0, 24, .hw⟩]⟩,
   ⟨0x8, (24, 1), (0, 1), 0x8, (8, 1), 32, [⟨0, 11, .ro⟩, ⟨16, 11, .ro⟩]⟩,
   ⟨0x8, (24, 1), (0, 1), 0xC, (8, 1), 32, [⟨0, 16, .ro⟩, ⟨16, 16, .ro⟩]⟩,
   ⟨0x8, (24, 1), (0, 1), 0x10, (8, 1), 32, [⟨0, 8, .ro⟩, ⟨8, 8, .ro⟩, ⟨16, 5, .hw⟩, ⟨24, 8, .hw⟩]⟩,
   ⟨0x8, (24, 1), (0, 1), 0x14, (8, 1), 32, [⟨0, 16, .rw⟩]⟩,
   ⟨0x8, (24, 1), (0, 1), 0x18, (8, 1), 32, [⟨0, 5, .wo⟩, ⟨8, 4, .wo⟩, ⟨31, 1, .wo⟩]⟩,
   ⟨0x8, (24, 1), (0, 1), 0x1C, (8, 1), 32, [⟨0, 2, .hw⟩, ⟨4, 4, .hw⟩, ⟨8, 5, .hw⟩, ⟨16, 4, .hw⟩]⟩,
   ⟨0x8, (24, 1), (0, 1), 0x20, (8, 1), 32, [⟨0, 5, .hw⟩]⟩,
   ⟨0x8, (24, 1), (0, 1), 0x28, (8, 1), 32, [⟨0, 32, .hw⟩]⟩,
   ⟨0x8, (24, 1), (0, 1), 0x2C, (8, 1), 32, [⟨0, 32, .hw⟩]⟩,
   ⟨0x8, (24, 1), (0, 1), 0x30, (8, 1), 32, [⟨0, 32, .hw⟩]⟩,
   ⟨0x8, (24, 1), (0, 1), 0x34, (8, 1), 32, [⟨0, 1, .hw⟩, ⟨1, 1, .hw⟩, ⟨2, 1, .hw⟩, ⟨8, 1, .wo⟩]⟩,
   ⟨0x8, (24, 1), (0, 1), 0x38, (8, 1), 64, [⟨0, 64, .hw⟩]⟩,
   ⟨0x8, (0, 24), (16, 1), 0x0, (8, 1), 32, [⟨0, 2, .hw⟩, ⟨2, 2, .hw⟩, ⟨4, 1, .hw⟩, ⟨5, 1, .hw⟩, ⟨6, 1, .ro⟩, ⟨8, 8, .hw⟩, ⟨16, 16, .ro⟩]⟩,
   ⟨0x8, (0, 24), (16, 1), 0x4, (8, 1), 32, [⟨0, 16, .hw⟩, ⟨16, 16, .hw⟩]⟩,
   ⟨0x8, (0, 24), (16, 1), 0x8, (8, 1), 32, [⟨0, 11, .hw⟩, ⟨16, 5, .hw⟩]⟩,
   ⟨0x8, (0, 24), (16, 1), 0x10, (8, 1), 64, [⟨0, 64, .hw⟩]⟩,
   ⟨0x8, (0, 24), (16, 1), 0x18, (8, 1), 64, [⟨0, 64, .hw⟩]⟩,
   ⟨0x8, (0, 24), (16, 1), 0x20, (8, 1), 64, [⟨0, 64, .hw⟩]⟩,
   ⟨0x8, (0, 24), (16, 1), 0x28, (8, 1), 64, [⟨0, 64, .hw⟩]⟩,
   ⟨0x8, (0, 24), (16, 1), 0x30, (8, 1), 64, [⟨0, 64, .hw⟩]⟩,
   ⟨0x8, (0, 24), (16, 1), 0x38, (8, 1), 32, [⟨0, 32, .hw⟩]⟩,
   ⟨0x8, (0, 24), (16, 1), 0x3C, (8, 1), 32, [⟨0, 32, .hw⟩]⟩,
   ⟨0x8, (0, 24), (16, 1), 0x40, (8, 1), 32, [⟨0, 1, .hw⟩, ⟨1, 1, .hw⟩, ⟨8, 1, .wo⟩]⟩,
   ⟨0x8, (0, 24), (0, 16), 0x0, (8, 1), 32, [⟨0, 3, .hw⟩, ⟨3, 1, .hw⟩, ⟨4, 2, .hw⟩]⟩,
   ⟨0x8, (0, 24), (0, 16), 0x8, (8, 1), 64, [⟨0, 64, .hw⟩]⟩,
   ⟨0x8, (0, 24), (0, 16), 0x10, (8, 1), 32, [⟨0, 32, .hw⟩]⟩,
   ⟨0x8, (0, 24), (0, 16), 0x14, (8, 1), 32, [⟨0, 1, .hw⟩, ⟨8, 1, .wo⟩]⟩,
   ⟨0x8, (0, 24), (0, 16), 0x18, (8, 1), 64, [⟨0, 64, .hw⟩]⟩,
   ⟨0x8, (0, 24), (0, 16), 0x20, (8, 1), 64, [⟨0, 64, .hw⟩]⟩]

/-- Register rows of CMQ_, part 0. -/
def rowsCMQ0 : List RegRow :=
  [⟨0xC, (0, 1), (1, 1), 0x0, (8, 1), 32, [⟨0, 24, .rw⟩]⟩,
   ⟨0xC, (0, 1), (1, 1), 0x4, (8, 1), 32, [⟨0, 1, .hw⟩, ⟨1, 1, .hw⟩, ⟨2, 1, .hw⟩, ⟨3, 1, .hw⟩, ⟨4, 1, .hw⟩]⟩,
   ⟨0xC, (0, 1), (1, 1), 0x8, (8, 1), 32, [⟨0, 24, .hw⟩]⟩,
   ⟨0xC, (0, 1), (1, 1), 0xC, (8, 1), 32, [⟨0, 24, .hw⟩]⟩,
   ⟨0xC, (0, 1), (1, 1), 0x10, (8, 1), 32, [⟨0, 24, .hw⟩]⟩,
   ⟨0xC, (0, 1), (1, 1), 0x14, (8, 1), 32, [⟨0, 26, .hw⟩]⟩,
   ⟨0xC, (0, 1), (1, 1), 0x18, (8, 1), 64, [⟨0, 32, .hw⟩, ⟨32, 32, .hw⟩]⟩,
   ⟨0xC, (0, 1), (1, 1), 0x20, (8, 1), 32, [⟨0, 17, .hw⟩]⟩,
   ⟨0xC, (0, 1), (1, 1), 0x28, (8, 1), 64, [⟨0, 64, .hw⟩]⟩,
   ⟨0xC, (0, 1), (1, 1), 0x30, (8, 1), 64, [⟨0, 64, .hw⟩]⟩,
   ⟨0xC, (0, 1), (1, 1), 0x38, (8, 1), 64, [⟨0, 64, .hw⟩]⟩,
   ⟨0xC, (0, 1), (1, 1), 0x40, (8, 1), 64, [⟨0, 64, .hw⟩]⟩,
   ⟨0xC, (0, 1), (1, 1), 0x48, (8, 1), 64, [⟨0, 64, .hw⟩]⟩,
   ⟨0xC, (0, 1), (1, 1), 0x50, (8, 1), 64, [⟨0, 64, .hw⟩]⟩,
   ⟨0xC, (0, 1), (1, 1), 0x58, (8, 1), 64, [⟨0, 64, .hw⟩]⟩,
   ⟨0xC, (0, 1), (1, 1), 0x60, (8, 1), 64, [⟨0, 64, .hw⟩]⟩,
   ⟨0xC, (0, 1), (1, 1), 0x68, (8, 1), 64, [⟨0, 64, .hw⟩]⟩,
   ⟨0xC, (0, 1), (1, 1), 0x70, (8, 1), 64, [⟨0, 64, .hw⟩]⟩,
   ⟨0xC, (0, 1), (1, 1), 0x78, (8, 1), 32, [⟨0, 32, .hw⟩]⟩,
   ⟨0xC, (0, 1), (1, 1), 0x7C, (8, 1), 32, [⟨0, 32, .hw⟩]⟩,
   ⟨0xC, (0, 1), (1, 1), 0x80, (8, 1), 32, [⟨0, 32, .hw⟩]⟩,
   ⟨0xC, (0, 1), (1, 1), 0x84, (8, 1), 32, [⟨0, 1, .hw⟩, ⟨1, 1, .hw⟩, ⟨2, 1, .hw⟩, ⟨8, 1, .wo⟩]⟩,
   ⟨0xC, (0, 1), (2, 1), 0x0, (8, 1), 32, [⟨0, 17, .hw⟩, ⟨31, 1, .hw⟩]⟩,
   ⟨0xC, (0, 1), (2, 1), 0x4, (8, 1), 32, [⟨0, 19, .hw⟩]⟩,
   ⟨0xC, (0, 1), (2, 1), 0x8, (8, 1), 64, [⟨0, 64, .hw⟩]⟩,
   ⟨0xC, (0, 1), (2, 1), 0x10, (8, 1), 64, [⟨0, 64, .hw⟩]⟩,
   ⟨0xC, (0, 1), (2, 1), 0x18, (8, 1), 64, [⟨0, 64, .hw⟩]⟩,
   ⟨0xC, (0, 1), (2, 1), 0x20, (8, 1), 64, [⟨0, 64, .hw⟩]⟩,
   ⟨0xC, (0, 1), (2, 1), 0x28, (8, 1), 64, [⟨0, 64, .hw⟩]⟩,
   ⟨0xC, (0, 1), (2, 1), 0x30, (8, 1), 64, [⟨0, 64, .hw⟩]⟩,
   ⟨0xC, (0, 1), (2, 1), 0x38, (8, 1), 64, [⟨0, 64, .hw⟩]⟩,
   ⟨0xC, (0, 1), (2, 1), 0x40, (8, 1), 64, [⟨0, 64, .hw⟩]⟩,
   ⟨0xC, (0, 1), (2, 1), 0x48, (8, 1), 64, [⟨0, 64, .hw⟩]⟩,
   ⟨0xC, (0, 1), (2, 1), 0x50, (8, 1), 64, [⟨0, 64, .hw⟩]⟩,
   ⟨0xC, (0, 1), (2, 1), 0x58, (8, 1), 32, [⟨0, 32, .hw⟩]⟩,
   ⟨0xC, (0, 1), (2, 1), 0x5C, (8, 1), 32, [⟨0, 32, .hw⟩]⟩,
   ⟨0xC, (0, 1), (2, 1), 0x60, (8, 1), 32, [⟨0, 32, .hw⟩]⟩,
   ⟨0xC, (0, 1), (2, 1), 0x64, (8, 1), 32, [⟨0, 1, .hw⟩, ⟨1, 1, .hw⟩, ⟨2, 1, .hw⟩, ⟨8, 1, .wo⟩]⟩,
   ⟨0xC, (0, 1), (0, 1), 0x0, (8, 1), 32, [⟨0, 11, .ro⟩, ⟨16, 4, .ro⟩]⟩,
   ⟨0xC, (0, 1), (0, 1), 0x4, (8, 1), 32, [⟨0, 19, .hw⟩]⟩]

/-- Register rows of CMQ_, part 1. -/
def rowsCMQ1 : List RegRow :=
  [⟨0xC, (0, 1), (0, 1), 0x8, (8, 1), 32, [⟨0, 19, .hw⟩]⟩,
   ⟨0xC, (0, 1), (0, 1), 0x10, (8, 1), 64, [⟨0, 32, .hw⟩, ⟨32, 32, .hw⟩]⟩,
   ⟨0xC, (0, 1), (0, 1), 0x18, (8, 1), 64, [⟨0, 64, .hw⟩]⟩,
   ⟨0xC, (0, 1), (0, 1), 0x20, (8, 1), 64, [⟨0, 64, .hw⟩]⟩,
   ⟨0xC, (0, 1), (0, 1), 0x28, (8, 1), 64, [⟨0, 64, .hw⟩]⟩,
   ⟨0xC, (0, 1), (0, 1), 0x30, (8, 1), 64, [⟨0, 64, .hw⟩]⟩,
   ⟨0xC, (0, 1), (0, 1), 0x38, (8, 1), 64, [⟨0, 64, .hw⟩]⟩,
   ⟨0xC, (0, 1), (0, 1), 0x40, (8, 1), 64, [⟨0, 64, .hw⟩]⟩,
   ⟨0xC, (0, 1), (0, 1), 0x48, (8, 1), 64, [⟨0, 64, .hw⟩]⟩,
   ⟨0xC, (0, 1), (0, 1), 0x50, (8, 1), 64, [⟨0, 64, .hw⟩]⟩,
   ⟨0xC, (0, 1), (0, 1), 0x58, (8, 1), 64, [⟨0, 64, .hw⟩]⟩,
   ⟨0xC, (0, 1), (0, 1), 0x60, (8, 1), 64, [⟨0, 64, .hw⟩]⟩,
   ⟨0xC, (0, 1), (0, 1), 0x68, (8, 1), 64, [⟨0, 64, .hw⟩]⟩,
   ⟨0xC, (0, 1), (0, 1), 0x70, (8, 1), 64, [⟨0, 64, .hw⟩]⟩,
   ⟨0xC, (0, 1), (0, 1), 0x78, (8, 1), 32, [⟨0, 32, .hw⟩]⟩,
   ⟨0xC, (0, 1), (0, 1), 0x7C, (8, 1), 32, [⟨0, 32, .hw⟩]⟩,
   ⟨0xC, (0, 1), (0, 1), 0x80, (8, 1), 32, [⟨0, 32, .hw⟩]⟩,
   ⟨0xC, (0, 1), (0, 1), 0x84, (8, 1), 32, [⟨0, 32, .hw⟩]⟩,
   ⟨0xC, (0, 1), (0, 1), 0x88, (8, 1), 32, [⟨0, 4, .hw⟩, ⟨8, 1, .wo⟩]⟩]

/-- Register rows of PAN_. -/
def rowsPAN : List RegRow :=
  [⟨0x11, (0, 1), (0, 1), 0x0, (8, 1), 32, [⟨0, 2, .hw⟩]⟩,
   ⟨0x11, (0, 1), (0, 1), 0x4, (8, 1), 32, [⟨0, 32, .hw⟩]⟩,
   ⟨0x11, (0, 1), (0, 1), 0x8, (8, 1), 32, [⟨0, 18, .hw⟩]⟩,
   ⟨0x11, (0, 1), (0, 1), 0xC, (8, 1), 32, [⟨0, 18, .hw⟩]⟩,
   ⟨0x11, (0, 1), (0, 1), 0x10, (8, 1), 32, [⟨0, 27, .hw⟩]⟩,
   ⟨0x11, (0, 1), (0, 1), 0x18, (8, 1), 64, [⟨0, 64, .hw⟩]⟩,
   ⟨0x11, (0, 1), (0, 1), 0x20, (8, 1), 64, [⟨0, 64, .hw⟩]⟩,
   ⟨0x11, (0, 1), (0, 1), 0x28, (8, 1), 64, [⟨0, 64, .hw⟩]⟩,
   ⟨0x11, (0, 1), (0, 1), 0x30, (8, 1), 64, [⟨0, 64, .hw⟩]⟩,
   ⟨0x11, (0, 1), (0, 1), 0x38, (8, 1), 64, [⟨0, 64, .hw⟩]⟩,
   ⟨0x11, (0, 1), (0, 1), 0x40, (8, 1), 64, [⟨0, 64, .hw⟩]⟩,
   ⟨0x11, (0, 1), (0, 1), 0x48, (8, 1), 64, [⟨0, 64, .hw⟩]⟩,
   ⟨0x11, (0, 1), (0, 1), 0x50, (8, 1), 64, [⟨0, 64, .hw⟩]⟩,
   ⟨0x11, (0, 1), (0, 1), 0x58, (8, 1), 64, [⟨0, 64, .hw⟩]⟩,
   ⟨0x11, (0, 1), (0, 1), 0x60, (8, 1), 64, [⟨0, 64, .hw⟩]⟩,
   ⟨0x11, (0, 1), (0, 1), 0x68, (8, 1), 64, [⟨0, 64, .hw⟩]⟩,
   ⟨0x11, (0, 1), (0, 1), 0x70, (8, 1), 64, [⟨0, 64, .hw⟩]⟩,
   ⟨0x11, (0, 1), (0, 1), 0x78, (8, 1), 64, [⟨0, 64, .hw⟩]⟩,
   ⟨0x11, (0, 1), (0, 1), 0x80, (8, 1), 32, [⟨0, 32, .hw⟩]⟩,
   ⟨0x11, (0, 1), (0, 1), 0x84, (8, 1), 32, [⟨0, 32, .hw⟩]⟩,
   ⟨0x11, (0, 1), (0, 1), 0x88, (8, 1), 32, [⟨0, 32, .hw⟩]⟩,
   ⟨0x11, (0, 1), (0, 1), 0x8C, (8, 1), 32, [⟨0, 32, .hw⟩]⟩,
   ⟨0x11, (0, 1), (0, 1), 0x90, (8, 1), 32, [⟨0, 1, .hw⟩, ⟨1, 1, .hw⟩, ⟨2, 1, .hw⟩, ⟨3, 1, .hw⟩, ⟨8, 1, .wo⟩]⟩]

/-- Register rows of MAP_. -/
def rowsMAP : List RegRow :=
  [⟨0x10, (0, 1), (0, 1), 0x0, (8, 1), 32, [⟨0, 2, .hw⟩, ⟨2, 1, .hw⟩, ⟨3, 1, .hw⟩, ⟨4, 1, .rw1c⟩]⟩,
   ⟨0x10, (0, 1), (0, 1), 0x4, (8, 1), 32, [⟨0, 1, .wo⟩, ⟨1, 1, .wo⟩]⟩,
   ⟨0x10, (0, 1), (0, 1), 0x8, (8, 1), 32, [⟨0, 8, .ro⟩, ⟨8, 4, .ro⟩, ⟨16, 5, .ro⟩]⟩,
   ⟨0x10, (0, 1), (0, 1), 0xC, (8, 1), 32, [⟨0, 16, .ro⟩, ⟨16, 8, .ro⟩]⟩,
   ⟨0x10, (0, 1), (0, 1), 0x10, (8, 1), 32, [⟨0, 22, .hw⟩]⟩,
   ⟨0x10, (0, 1), (0, 1), 0x14, (8, 1), 32, [⟨0, 22, .hw⟩]⟩,
   ⟨0x10, (0, 1), (0, 1), 0x18, (8, 1), 32, [⟨0, 20, .hw⟩]⟩,
   ⟨0x10, (0, 1), (0, 1), 0x1C, (8, 1), 32, [⟨0, 15, .hw⟩]⟩,
   ⟨0x10, (0, 1), (0, 1), 0x20, (8, 1), 32, [⟨0, 13, .hw⟩]⟩,
   ⟨0x10, (0, 1), (0, 1), 0x24, (8, 1), 32, [⟨0, 22, .hw⟩]⟩,
   ⟨0x10, (0, 1), (0, 1), 0x28, (8, 1), 64, [⟨0, 32, .hw⟩, ⟨32, 32, .hw⟩]⟩,
   ⟨0x10, (0, 1), (0, 1), 0x30, (8, 1), 64, [⟨0, 51, .hw⟩]⟩,
   ⟨0x10, (0, 1), (0, 1), 0x38, (8, 1), 64, [⟨0, 64, .hw⟩]⟩,
   ⟨0x10, (0, 1), (0, 1), 0x40, (8, 1), 64, [⟨0, 64, .hw⟩]⟩,
   ⟨0x10, (0, 1), (0, 1), 0x48, (8, 1), 64, [⟨0, 64, .hw⟩]⟩,
   ⟨0x10, (0, 1), (0, 1), 0x50, (8, 1), 64, [⟨0, 64, .hw⟩]⟩,
   ⟨0x10, (0, 1), (0, 1), 0x58, (8, 1), 64, [⟨0, 64, .hw⟩]⟩,
   ⟨0x10, (0, 1), (0, 1), 0x60, (8, 1), 64, [⟨0, 64, .hw⟩]⟩,
   ⟨0x10, (0, 1), (0, 1), 0x68, (8, 1), 64, [⟨0, 64, .hw⟩]⟩,
   ⟨0x10, (0, 1), (0, 1), 0x70, (8, 1), 64, [⟨0, 64, .hw⟩]⟩,
   ⟨0x10, (0, 1), (0, 1), 0x78, (8, 1), 64, [⟨0, 64, .hw⟩]⟩,
   ⟨0x10, (0, 1), (0, 1), 0x80, (8, 1), 64, [⟨0, 64, .hw⟩]⟩,
   ⟨0x10, (0, 1), (0, 1), 0x88, (8, 1), 64, [⟨0, 64, .hw⟩]⟩,
   ⟨0x10, (0, 1), (0, 1), 0x90, (8, 1), 64, [⟨0, 64, .hw⟩]⟩,
   ⟨0x10, (0, 1), (0, 1), 0x98, (8, 1), 64, [⟨0, 64, .hw⟩]⟩,
   ⟨0x10, (0, 1), (0, 1), 0xA0, (8, 1), 64, [⟨0, 64, .hw⟩]⟩,
   ⟨0x10, (0, 1), (0, 1), 0xA8, (8, 1), 32, [⟨0, 32, .hw⟩]⟩,
   ⟨0x10, (0, 1), (0, 1), 0xAC, (8, 1), 32, [⟨0, 32, .hw⟩]⟩,
   ⟨0x10, (0, 1), (0, 1), 0xB0, (8, 1), 32, [⟨0, 32, .hw⟩]⟩,
   ⟨0x10, (0, 1), (0, 1), 0xB4, (8, 1), 32, [⟨0, 32, .hw⟩]⟩,
   ⟨0x10, (0, 1), (0, 1), 0xB8, (8, 1), 32, [⟨0, 1, .hw⟩, ⟨1, 1, .hw⟩, ⟨2, 1, .hw⟩, ⟨3, 1, .hw⟩, ⟨8, 1, .wo⟩]⟩,
   ⟨0x10, (0, 1), (0, 1), 0x100, (16, 16), 64, [⟨0, 33, .rw⟩, ⟨33, 3, .rw⟩, ⟨36, 15, .rw⟩]⟩,
   ⟨0x10, (0, 1), (0, 1), 0x108, (16, 16), 32, [⟨0, 1, .rw⟩, ⟨4, 4, .rw⟩]⟩]

/-- Register rows of MED_, part 0. -/
def rowsMED0 : List RegRow :=
  [⟨0x12, (32, 1), (0, 1), 0x0, (8, 1), 32, [⟨0, 16, .ro⟩, ⟨16, 8, .ro⟩, ⟨24, 8, .ro⟩]⟩,
   ⟨0x12, (32, 1), (0, 1), 0x4, (8, 1), 32, [⟨0, 16, .ro⟩, ⟨16, 16, .ro⟩]⟩,
   ⟨0x12, (32, 1), (0, 1), 0x8, (8, 1), 32, [⟨0, 16, .ro⟩, ⟨16, 16, .hw⟩]⟩,
   ⟨0x12, (32, 1), (0, 1), 0xC, (8, 1), 32, [⟨0, 16, .hw⟩]⟩,
   ⟨0x12, (32, 1), (0, 1), 0x10, (8, 1), 64, [⟨0, 48, .hw⟩]⟩,
   ⟨0x12, (32, 1), (0, 1), 0x18, (8, 1), 32, [⟨0, 5, .hw⟩, ⟨8, 5, .hw⟩, ⟨16, 1, .hw⟩, ⟨17, 1, .hw⟩, ⟨18, 1, .hw⟩]⟩,
   ⟨0x12, (32, 1), (0, 1), 0x1C, (8, 1), 32, [⟨0, 24, .hw⟩]⟩,
   ⟨0x12, (32, 1), (0, 1), 0x20, (8, 1), 32, [⟨0, 5, .hw⟩, ⟨8, 5, .hw⟩]⟩,
   ⟨0x12, (32, 1), (0, 1), 0x24, (8, 1), 32, [⟨0, 1, .hw⟩, ⟨1, 3, .hw⟩, ⟨4, 12, .hw⟩, ⟨16, 1, .hw⟩]⟩,
   ⟨0x12, (32, 1), (0, 1), 0x28, (8, 1), 32, [⟨0, 32, .hw⟩]⟩,
   ⟨0x12, (32, 1), (0, 1), 0x2C, (8, 1), 32, [⟨0, 1, .wo⟩, ⟨1, 1, .wo⟩]⟩,
   ⟨0x12, (32, 1), (0, 1), 0x30, (8, 1), 32, [⟨0, 1, .hw⟩, ⟨16, 15, .hw⟩]⟩,
   ⟨0x12, (32, 1), (0, 1), 0x38, (8, 1), 64, [⟨0, 64, .hw⟩]⟩,
   ⟨0x12, (32, 1), (0, 1), 0x40, (8, 1), 64, [⟨0, 64, .hw⟩]⟩,
   ⟨0x12, (32, 1), (0, 1), 0x48, (8, 1), 64, [⟨0, 64, .hw⟩]⟩,
   ⟨0x12, (32, 1), (0, 1), 0x50, (8, 1), 64, [⟨0, 64, .hw⟩]⟩,
   ⟨0x12, (32, 1), (0, 1), 0x58, (8, 1), 64, [⟨0, 64, .hw⟩]⟩,
   ⟨0x12, (32, 1), (0, 1), 0x60, (8, 1), 64, [⟨0, 64, .hw⟩]⟩,
   ⟨0x12, (32, 1), (0, 1), 0x68, (8, 1), 64, [⟨0, 64, .hw⟩]⟩,
   ⟨0x12, (32, 1), (0, 1), 0x70, (8, 1), 64, [⟨0, 64, .hw⟩]⟩,
   ⟨0x12, (32, 1), (0, 1), 0x78, (8, 1), 64, [⟨0, 64, .hw⟩]⟩,
   ⟨0x12, (32, 1), (0, 1), 0x80, (8, 1), 64, [⟨0, 64, .hw⟩]⟩,
   ⟨0x12, (32, 1), (0, 1), 0x88, (8, 1), 64, [⟨0, 64, .hw⟩]⟩,
   ⟨0x12, (32, 1), (0, 1), 0x90, (8, 1), 64, [⟨0, 64, .hw⟩]⟩,
   ⟨0x12, (32, 1), (0, 1), 0x98, (8, 1), 64, [⟨0, 64, .hw⟩]⟩,
   ⟨0x12, (32, 1), (0, 1), 0xA0, (8, 1), 64, [⟨0, 64, .hw⟩]⟩,
   ⟨0x12, (32, 1), (0, 1), 0xA8, (8, 1), 64, [⟨0, 64, .hw⟩]⟩,
   ⟨0x12, (32, 1), (0, 1), 0xB0, (8, 1), 64, [⟨0, 64, .hw⟩]⟩,
   ⟨0x12, (32, 1), (0, 1), 0xB8, (8, 1), 32, [⟨0, 32, .hw⟩]⟩,
   ⟨0x12, (32, 1), (0, 1), 0xBC, (8, 1), 32, [⟨0, 32, .hw⟩]⟩,
   ⟨0x12, (32, 1), (0, 1), 0xC0, (8, 1), 32, [⟨0, 32, .hw⟩]⟩,
   ⟨0x12, (32, 1), (0, 1), 0xC4, (8, 1), 32, [⟨0, 32, .hw⟩]⟩,
   ⟨0x12, (32, 1), (0, 1), 0xC8, (8, 1), 32, [⟨0, 32, .hw⟩]⟩,
   ⟨0x12, (32, 1), (0, 1), 0xCC, (8, 1), 32, [⟨0, 32, .hw⟩]⟩,
   ⟨0x12, (32, 1), (0, 1), 0xD0, (8, 1), 32, [⟨0, 32, .hw⟩]⟩,
   ⟨0x12, (32, 1), (0, 1), 0xD4, (8, 1), 32, [⟨0, 7, .hw⟩, ⟨8, 1, .wo⟩]⟩,
   ⟨0x12, (0, 32), (0, 1), 0x0, (8, 1), 32, [⟨0, 1, .hw⟩, ⟨1, 1, .hw⟩, ⟨2, 1, .hw⟩, ⟨3, 1, .hw⟩, ⟨4, 1, .hw⟩, ⟨5, 1, .hw⟩]⟩,
   ⟨0x12, (0, 32), (0, 1), 0x4, (8, 1), 32, [⟨0, 1, .wo⟩]⟩,
   ⟨0x12, (0, 32), (0, 1), 0x8, (8, 1), 64, [⟨0, 11, .hw⟩, ⟨11, 2, .hw⟩, ⟨14, 4, .hw⟩, ⟨18, 6, .hw⟩, ⟨24, 24, .hw⟩, ⟨48, 12, .hw⟩]⟩,
   ⟨0x12, (0, 32), (0, 1), 0x10, (8, 1), 32, [⟨0, 32, .hw⟩]⟩]

/-- Register rows of MED_, part 1. -/
def rowsMED1 : List RegRow :=
  [⟨0x12, (0, 32), (0, 1), 0x14, (8, 1), 32, [⟨0, 24, .hw⟩]⟩,
   ⟨0x12, (0, 32), (0, 1), 0x18, (8, 1), 32, [⟨0, 6, .hw⟩]⟩,
   ⟨0x12, (0, 32), (0, 1), 0x20, (8, 1), 64, [⟨0, 32, .hw⟩, ⟨32, 32, .hw⟩]⟩,
   ⟨0x12, (0, 32), (0, 1), 0x28, (8, 1), 64, [⟨0, 64, .hw⟩]⟩,
   ⟨0x12, (0, 32), (0, 1), 0x30, (8, 1), 64, [⟨0, 64, .hw⟩]⟩,
   ⟨0x12, (0, 32), (0, 1), 0x38, (8, 1), 64, [⟨0, 64, .hw⟩]⟩,
   ⟨0x12, (0, 32), (0, 1), 0x40, (8, 1), 32, [⟨0, 32, .hw⟩]⟩,
   ⟨0x12, (0, 32), (0, 1), 0x44, (8, 1), 32, [⟨0, 32, .hw⟩]⟩,
   ⟨0x12, (0, 32), (0, 1), 0x48, (8, 1), 32, [⟨0, 1, .hw⟩, ⟨1, 1, .hw⟩, ⟨8, 1, .wo⟩]⟩,
   ⟨0x12, (32, 1), (1, 1), 0x0, (8, 1), 32, [⟨0, 32, .hw⟩]⟩,
   ⟨0x12, (32, 1), (1, 1), 0x4, (8, 1), 32, [⟨0, 32, .hw⟩]⟩,
   ⟨0x12, (32, 1), (1, 1), 0x8, (8, 1), 32, [⟨0, 8, .ro⟩, ⟨8, 8, .ro⟩]⟩,
   ⟨0x12, (0, 32), (1, 1), 0x0, (8, 1), 32, [⟨0, 3, .hw⟩, ⟨3, 3, .hw⟩, ⟨6, 1, .hw⟩, ⟨7, 1, .rw1c⟩, ⟨8, 1, .hw⟩]⟩,
   ⟨0x12, (0, 32), (1, 1), 0x4, (8, 1), 32, [⟨0, 1, .wo⟩, ⟨1, 1, .wo⟩, ⟨2, 1, .wo⟩]⟩,
   ⟨0x12, (0, 32), (1, 1), 0x8, (8, 1), 32, [⟨0, 16, .hw⟩, ⟨16, 16, .hw⟩]⟩,
   ⟨0x12, (0, 32), (1, 1), 0xC, (8, 1), 32, [⟨0, 11, .hw⟩, ⟨16, 9, .hw⟩]⟩,
   ⟨0x12, (0, 32), (1, 1), 0x10, (8, 1), 32, [⟨0, 16, .hw⟩]⟩,
   ⟨0x12, (0, 32), (1, 1), 0x18, (8, 1), 64, [⟨0, 64, .hw⟩]⟩,
   ⟨0x12, (0, 32), (1, 1), 0x20, (8, 1), 64, [⟨0, 64, .hw⟩]⟩,
   ⟨0x12, (0, 32), (1, 1), 0x28, (8, 1), 64, [⟨0, 64, .hw⟩]⟩,
   ⟨0x12, (0, 32), (1, 1), 0x30, (8, 1), 64, [⟨0, 64, .hw⟩]⟩,
   ⟨0x12, (0, 32), (1, 1), 0x38, (8, 1), 64, [⟨0, 64, .hw⟩]⟩,
   ⟨0x12, (0, 32), (1, 1), 0x40, (8, 1), 32, [⟨0, 32, .hw⟩]⟩,
   ⟨0x12, (0, 32), (1, 1), 0x44, (8, 1), 32, [⟨0, 32, .hw⟩]⟩,
   ⟨0x12, (0, 32), (1, 1), 0x48, (8, 1), 32, [⟨0, 32, .hw⟩]⟩,
   ⟨0x12, (0, 32), (1, 1), 0x4C, (8, 1), 32, [⟨0, 32, .hw⟩]⟩,
   ⟨0x12, (0, 32), (1, 1), 0x50, (8, 1), 32, [⟨0, 32, .hw⟩]⟩,
   ⟨0x12, (0, 32), (1, 1), 0x54, (8, 1), 32, [⟨0, 32, .hw⟩]⟩,
   ⟨0x12, (0, 32), (1, 1), 0x58, (8, 1), 32, [⟨0, 6, .hw⟩, ⟨8, 1, .wo⟩]⟩]

/-- Register rows of FRT_. -/
def rowsFRT : List RegRow :=
  [⟨0xA, (16, 1), (0, 1), 0x0, (8, 1), 32, [⟨0, 2, .ro⟩, ⟨4, 3, .ro⟩, ⟨8, 6, .ro⟩, ⟨16, 3, .ro⟩, ⟨20, 6, .ro⟩]⟩,
   ⟨0xA, (16, 1), (0, 1), 0x8, (8, 1), 64, [⟨0, 48, .ro⟩]⟩,
   ⟨0xA, (16, 1), (0, 1), 0x10, (8, 1), 32, [⟨0, 16, .ro⟩]⟩,
   ⟨0xA, (16, 1), (0, 1), 0x14, (8, 1), 32, [⟨0, 4, .hw⟩, ⟨4, 1, .hw⟩, ⟨8, 8, .ro⟩]⟩,
   ⟨0xA, (16, 1), (0, 1), 0x18, (8, 1), 64, [⟨0, 64, .hw⟩]⟩,
   ⟨0xA, (0, 16), (0, 1), 0x0, (8, 1), 32, [⟨0, 1, .hw⟩, ⟨1, 1, .hw⟩, ⟨2, 1, .hw⟩, ⟨3, 3, .hw⟩]⟩,
   ⟨0xA, (0, 16), (0, 1), 0x4, (8, 1), 32, [⟨0, 1, .wo⟩, ⟨1, 1, .wo⟩]⟩,
   ⟨0xA, (0, 16), (0, 1), 0x8, (8, 4), 64, [⟨0, 32, .rw⟩, ⟨32, 6, .rw⟩, ⟨63, 1, .rw⟩]⟩,
   ⟨0xA, (0, 16), (0, 1), 0x60, (8, 1), 64, [⟨0, 48, .rw⟩, ⟨63, 1, .rw⟩]⟩,
   ⟨0xA, (0, 16), (0, 1), 0x68, (8, 1), 32, [⟨0, 1, .rw⟩, ⟨16, 16, .rw⟩]⟩,
   ⟨0xA, (0, 16), (0, 1), 0x70, (8, 1), 64, [⟨0, 64, .hw⟩]⟩,
   ⟨0xA, (0, 16), (0, 1), 0x78, (8, 1), 64, [⟨0, 64, .hw⟩]⟩,
   ⟨0xA, (0, 16), (0, 1), 0x80, (8, 1), 64, [⟨0, 64, .hw⟩]⟩,
   ⟨0xA, (0, 16), (0, 1), 0x88, (8, 1), 64, [⟨0, 64, .hw⟩]⟩,
   ⟨0xA, (0, 16), (0, 1), 0x90, (8, 1), 64, [⟨0, 64, .hw⟩]⟩,
   ⟨0xA, (0, 16), (0, 1), 0x98, (8, 1), 64, [⟨0, 64, .hw⟩]⟩,
   ⟨0xA, (0, 16), (0, 1), 0xA0, (8, 1), 64, [⟨0, 64, .hw⟩]⟩,
   ⟨0xA, (0, 16), (0, 1), 0xA8, (8, 1), 64, [⟨0, 64, .hw⟩]⟩,
   ⟨0xA, (0, 16), (0, 1), 0xB0, (8, 1), 64, [⟨0, 64, .hw⟩]⟩,
   ⟨0xA, (0, 16), (0, 1), 0xB8, (8, 1), 32, [⟨0, 32, .hw⟩]⟩,
   ⟨0xA, (0, 16), (0, 1), 0xBC, (8, 1), 32, [⟨0, 32, .hw⟩]⟩,
   ⟨0xA, (0, 16), (0, 1), 0xC0, (8, 1), 32, [⟨0, 1, .hw⟩, ⟨1, 1, .hw⟩, ⟨8, 1, .wo⟩]⟩,
   ⟨0xA, (0, 16), (0, 4), 0x100, (8, 1), 32, [⟨0, 1, .hw⟩, ⟨1, 1, .hw⟩, ⟨2, 1, .hw⟩]⟩,
   ⟨0xA, (0, 16), (0, 4), 0x108, (8, 1), 64, [⟨0, 64, .hw⟩]⟩,
   ⟨0xA, (0, 16), (0, 4), 0x110, (8, 1), 32, [⟨0, 32, .hw⟩]⟩,
   ⟨0xA, (0, 16), (0, 4), 0x114, (8, 1), 32, [⟨0, 1, .hw⟩, ⟨8, 1, .wo⟩]⟩,
   ⟨0xA, (0, 16), (0, 1), 0x30, (24, 2), 64, [⟨0, 64, .rw⟩]⟩,
   ⟨0xA, (0, 16), (0, 1), 0x38, (24, 2), 64, [⟨0, 64, .rw⟩]⟩,
   ⟨0xA, (0, 16), (0, 1), 0x40, (24, 2), 64, [⟨0, 8, .rw⟩, ⟨63, 1, .rw⟩]⟩]

/-- Register rows of TRN_, part 0. -/
def rowsTRN0 : List RegRow :=
  [⟨0xB, (0, 1), (0, 1), 0x0, (8, 1), 32, [⟨0, 5, .ro⟩, ⟨5, 3, .ro⟩, ⟨8, 3, .ro⟩]⟩,
   ⟨0xB, (0, 1), (0, 1), 0x4, (8, 1), 32, [⟨0, 7, .ro⟩, ⟨8, 8, .ro⟩, ⟨16, 8, .ro⟩, ⟨24, 4, .ro⟩]⟩,
   ⟨0xB, (0, 1), (0, 1), 0x8, (8, 1), 32, [⟨0, 8, .ro⟩, ⟨8, 4, .ro⟩, ⟨12, 4, .ro⟩, ⟨16, 8, .ro⟩, ⟨24, 8, .ro⟩]⟩,
   ⟨0xB, (0, 1), (0, 1), 0xC, (8, 1), 32, [⟨0, 8, .ro⟩, ⟨8, 8, .ro⟩, ⟨16, 16, .ro⟩]⟩,
   ⟨0xB, (0, 1), (0, 1), 0x10, (8, 1), 32, [⟨0, 15, .hw⟩, ⟨16, 11, .hw⟩]⟩,
   ⟨0xB, (0, 1), (0, 1), 0x14, (8, 1), 32, [⟨0, 13, .hw⟩]⟩,
   ⟨0xB, (0, 1), (0, 1), 0x18, (4, 8), 32, [⟨0, 14, .rw⟩]⟩,
   ⟨0xB, (0, 1), (0, 1), 0x38, (8, 1), 32, [⟨0, 12, .rw⟩]⟩,
   ⟨0xB, (0, 1), (0, 1), 0x40, (8, 1), 64, [⟨0, 64, .hw⟩]⟩,
   ⟨0xB, (0, 1), (0, 1), 0x48, (8, 1), 64, [⟨0, 64, .hw⟩]⟩,
   ⟨0xB, (0, 1), (0, 1), 0x50, (8, 1), 64, [⟨0, 64, .hw⟩]⟩,
   ⟨0xB, (0, 1), (0, 1), 0x58, (8, 1), 64, [⟨0, 64, .hw⟩]⟩,
   ⟨0xB, (0, 1), (0, 1), 0x60, (8, 1), 64, [⟨0, 64, .hw⟩]⟩,
   ⟨0xB, (0, 1), (0, 1), 0x68, (8, 1), 64, [⟨0, 64, .hw⟩]⟩,
   ⟨0xB, (0, 1), (0, 1), 0x70, (8, 1), 64, [⟨0, 64, .hw⟩]⟩,
   ⟨0xB, (0, 1), (0, 1), 0x78, (8, 1), 64, [⟨0, 64, .hw⟩]⟩,
   ⟨0xB, (0, 1), (0, 1), 0x80, (8, 1), 64, [⟨0, 64, .hw⟩]⟩,
   ⟨0xB, (0, 1), (0, 1), 0x88, (8, 1), 64, [⟨0, 64, .hw⟩]⟩,
   ⟨0xB, (0, 1), (0, 1), 0x90, (8, 1), 64, [⟨0, 64, .hw⟩]⟩,
   ⟨0xB, (0, 1), (0, 1), 0x98, (8, 1), 64, [⟨0, 64, .hw⟩]⟩,
   ⟨0xB, (0, 1), (0, 1), 0xA0, (8, 1), 64, [⟨0, 64, .hw⟩]⟩,
   ⟨0xB, (0, 1), (0, 1), 0xA8, (8, 1), 64, [⟨0, 64, .hw⟩]⟩,
   ⟨0xB, (0, 1), (0, 1), 0xB0, (8, 1), 32, [⟨0, 32, .hw⟩]⟩,
   ⟨0xB, (0, 1), (0, 1), 0xB4, (8, 1), 32, [⟨0, 32, .hw⟩]⟩,
   ⟨0xB, (0, 1), (0, 1), 0xB8, (8, 1), 32, [⟨0, 32, .hw⟩]⟩,
   ⟨0xB, (0, 1), (0, 1), 0xBC, (8, 1), 32, [⟨0, 32, .hw⟩]⟩,
   ⟨0xB, (0, 1), (0, 1), 0xC0, (8, 1), 32, [⟨0, 32, .hw⟩]⟩,
   ⟨0xB, (0, 1), (0, 1), 0xC4, (8, 1), 32, [⟨0, 32, .hw⟩]⟩,
   ⟨0xB, (0, 1), (0, 1), 0xC8, (8, 1), 32, [⟨0, 6, .hw⟩, ⟨8, 1, .wo⟩]⟩,
   ⟨0xB, (0, 1), (1, 8), 0x0, (8, 1), 32, [⟨0, 3, .hw⟩, ⟨3, 1, .hw⟩, ⟨16, 16, .hw⟩]⟩,
   ⟨0xB, (0, 1), (1, 8), 0x8, (8, 1), 64, [⟨0, 24, .hw⟩, ⟨24, 2, .hw⟩, ⟨32, 4, .hw⟩, ⟨36, 7, .hw⟩, ⟨48, 10, .hw⟩]⟩,
   ⟨0xB, (0, 1), (1, 8), 0x10, (8, 1), 64, [⟨0, 24, .hw⟩, ⟨32, 24, .hw⟩]⟩,
   ⟨0xB, (0, 1), (1, 8), 0x18, (8, 1), 32, [⟨0, 24, .hw⟩, ⟨24, 3, .hw⟩]⟩,
   ⟨0xB, (0, 1), (1, 8), 0x20, (8, 1), 32, [⟨0, 14, .hw⟩, ⟨16, 8, .hw⟩, ⟨24, 4, .hw⟩]⟩,
   ⟨0xB, (0, 1), (1, 8), 0x28, (8, 1), 64, [⟨0, 32, .hw⟩, ⟨32, 32, .hw⟩]⟩,
   ⟨0xB, (0, 1), (1, 8), 0x30, (8, 1), 64, [⟨0, 64, .hw⟩]⟩,
   ⟨0xB, (0, 1), (1, 8), 0x38, (8, 1), 64, [⟨0, 64, .hw⟩]⟩,
   ⟨0xB, (0, 1), (1, 8), 0x40, (8, 1), 64, [⟨0, 64, .hw⟩]⟩,
   ⟨0xB, (0, 1), (9, 1), 0x0, (8, 1), 32, [⟨0, 32, .hw⟩]⟩,
   ⟨0xB, (0, 1), (9, 1), 0x8, (8, 1), 64, [⟨0, 36, .hw⟩]⟩]

/-- Register rows of TRN_, part 1. -/
def rowsTRN1 : List RegRow :=
  [⟨0xB, (0, 1), (9, 1), 0x10, (8, 1), 64, [⟨0, 36, .hw⟩]⟩,
   ⟨0xB, (0, 1), (9, 1), 0x18, (8, 1), 32, [⟨0, 1, .hw⟩, ⟨1, 1, .hw⟩, ⟨2, 1, .hw⟩, ⟨3, 1, .hw⟩, ⟨8, 14, .hw⟩]⟩]

/-- Register rows of INS_. -/
def rowsINS : List RegRow :=
  [⟨0xD, (0, 256), (0, 4), 0x0, (8, 1), 32, [⟨0, 3, .hw⟩, ⟨3, 1, .hw⟩, ⟨4, 1, .hw⟩, ⟨16, 16, .hw⟩]⟩,
   ⟨0xD, (0, 256), (0, 4), 0x4, (8, 1), 32, [⟨0, 12, .hw⟩]⟩,
   ⟨0xD, (0, 256), (0, 4), 0x8, (8, 1), 32, [⟨0, 32, .hw⟩]⟩,
   ⟨0xD, (0, 256), (0, 4), 0x10, (8, 1), 64, [⟨0, 32, .hw⟩, ⟨32, 32, .hw⟩]⟩,
   ⟨0xD, (0, 256), (0, 4), 0x18, (8, 1), 32, [⟨0, 9, .hw⟩, ⟨16, 13, .hw⟩]⟩,
   ⟨0xD, (0, 256), (0, 4), 0x1C, (8, 1), 32, [⟨0, 19, .hw⟩]⟩,
   ⟨0xD, (0, 256), (0, 4), 0x20, (8, 1), 64, [⟨0, 64, .hw⟩]⟩,
   ⟨0xD, (0, 256), (0, 4), 0x28, (8, 1), 64, [⟨0, 64, .hw⟩]⟩,
   ⟨0xD, (0, 256), (0, 4), 0x30, (8, 1), 64, [⟨0, 64, .hw⟩]⟩,
   ⟨0xD, (0, 256), (0, 4), 0x38, (8, 1), 64, [⟨0, 64, .hw⟩]⟩,
   ⟨0xD, (0, 256), (0, 4), 0x40, (8, 1), 64, [⟨0, 64, .hw⟩]⟩,
   ⟨0xD, (0, 256), (0, 4), 0x48, (8, 1), 64, [⟨0, 64, .hw⟩]⟩,
   ⟨0xD, (0, 256), (0, 4), 0x50, (8, 1), 64, [⟨0, 64, .hw⟩]⟩,
   ⟨0xD, (0, 1), (0, 1), 0x100, (8, 1), 32, [⟨0, 11, .hw⟩, ⟨16, 13, .hw⟩]⟩,
   ⟨0xD, (0, 1), (0, 1), 0x104, (8, 1), 32, [⟨0, 1, .rw⟩, ⟨1, 11, .rw⟩, ⟨12, 4, .rw⟩, ⟨16, 4, .rw⟩]⟩,
   ⟨0xD, (0, 1), (0, 1), 0x108, (8, 1), 64, [⟨12, 52, .rw⟩]⟩,
   ⟨0xD, (0, 1), (0, 1), 0x120, (8, 1), 64, [⟨12, 52, .rw⟩]⟩,
   ⟨0xD, (0, 1), (0, 1), 0x130, (8, 1), 32, [⟨0, 1, .hw⟩, ⟨1, 3, .hw⟩, ⟨4, 1, .hw⟩, ⟨16, 10, .hw⟩]⟩,
   ⟨0xD, (0, 1), (0, 1), 0x134, (8, 1), 32, [⟨0, 18, .hw⟩]⟩,
   ⟨0xD, (0, 1), (0, 1), 0x138, (8, 1), 32, [⟨0, 12, .rw⟩]⟩,
   ⟨0xD, (0, 1), (0, 1), 0x140, (8, 1), 64, [⟨0, 1, .hw⟩, ⟨1, 3, .hw⟩, ⟨16, 16, .hw⟩, ⟨32, 20, .hw⟩, ⟨52, 10, .hw⟩]⟩,
   ⟨0xD, (0, 1), (0, 1), 0x148, (8, 1), 64, [⟨0, 64, .hw⟩]⟩,
   ⟨0xD, (0, 1), (0, 1), 0x150, (8, 1), 64, [⟨0, 64, .hw⟩]⟩,
   ⟨0xD, (0, 1), (0, 1), 0x158, (8, 1), 64, [⟨0, 64, .hw⟩]⟩,
   ⟨0xD, (0, 1), (0, 1), 0x160, (8, 1), 64, [⟨0, 64, .hw⟩]⟩,
   ⟨0xD, (0, 1), (0, 1), 0x168, (8, 1), 32, [⟨0, 32, .hw⟩]⟩,
   ⟨0xD, (0, 1), (0, 1), 0x16C, (8, 1), 32, [⟨0, 32, .hw⟩]⟩,
   ⟨0xD, (0, 1), (0, 1), 0x170, (8, 1), 32, [⟨0, 32, .hw⟩]⟩,
   ⟨0xD, (0, 1), (0, 1), 0x174, (8, 1), 32, [⟨0, 3, .hw⟩, ⟨8, 1, .wo⟩]⟩,
   ⟨0xD, (0, 1), (0, 1), 0x114, (8, 1), 32, [⟨0, 12, .rw⟩]⟩,
   ⟨0xD, (0, 1), (0, 1), 0x118, (8, 1), 32, [⟨0, 12, .hw⟩]⟩,
   ⟨0xD, (0, 1), (0, 1), 0x128, (8, 1), 32, [⟨0, 12, .rw⟩]⟩,
   ⟨0xD, (0, 1), (0, 1), 0x12C, (8, 1), 32, [⟨0, 12, .hw⟩]⟩]

/-- Register rows of SNP_. -/
def rowsSNP : List RegRow :=
  [⟨0x13, (0, 1), (0, 1), 0x0, (8, 1), 32, [⟨0, 21, .hw⟩]⟩,
   ⟨0x13, (0, 1), (0, 1), 0x4, (8, 1), 32, [⟨0, 7, .hw⟩]⟩,
   ⟨0x13, (0, 1), (0, 1), 0x8, (8, 1), 64, [⟨0, 64, .hw⟩]⟩,
   ⟨0x13, (0, 1), (0, 1), 0x10, (8, 1), 64, [⟨0, 64, .hw⟩]⟩,
   ⟨0x13, (0, 1), (0, 1), 0x18, (8, 1), 64, [⟨0, 64, .hw⟩]⟩,
   ⟨0x13, (0, 1), (0, 1), 0x20, (8, 1), 64, [⟨0, 64, .hw⟩]⟩,
   ⟨0x13, (0, 1), (0, 1), 0x28, (8, 1), 64, [⟨0, 64, .hw⟩]⟩,
   ⟨0x13, (0, 1), (0, 1), 0x30, (8, 1), 32, [⟨0, 32, .hw⟩]⟩,
   ⟨0x13, (0, 1), (0, 1), 0x34, (8, 1), 32, [⟨0, 1, .hw⟩, ⟨8, 1, .wo⟩]⟩,
   ⟨0x13, (1, 64), (0, 1), 0x0, (8, 1), 32, [⟨0, 1, .rw⟩, ⟨4, 4, .rw⟩, ⟨8, 15, .rw⟩]⟩,
   ⟨0x13, (1, 64), (0, 1), 0x8, (8, 1), 64, [⟨0, 64, .rw⟩]⟩,
   ⟨0x13, (1, 64), (0, 1), 0x10, (8, 1), 64, [⟨0, 64, .rw⟩]⟩,
   ⟨0x13, (1, 64), (0, 1), 0x18, (8, 1), 64, [⟨0, 32, .rw⟩, ⟨32, 32, .rw⟩]⟩,
   ⟨0x13, (1, 64), (0, 1), 0x20, (8, 1), 32, [⟨0, 8, .rw⟩]⟩,
   ⟨0x13, (1, 64), (0, 1), 0x24, (8, 1), 32, [⟨0, 1, .wo⟩, ⟨1, 1, .wo⟩, ⟨2, 1, .wo⟩]⟩,
   ⟨0x13, (1, 64), (0, 1), 0x28, (8, 1), 32, [⟨0, 3, .hw⟩, ⟨3, 1, .hw⟩, ⟨4, 4, .hw⟩, ⟨8, 2, .hw⟩]⟩,
   ⟨0x13, (1, 64), (0, 1), 0x2C, (8, 1), 32, [⟨0, 32, .hw⟩]⟩,
   ⟨0x13, (1, 64), (0, 1), 0x30, (8, 1), 64, [⟨0, 64, .hw⟩]⟩,
   ⟨0x13, (1, 64), (0, 1), 0x38, (8, 1), 64, [⟨0, 64, .hw⟩]⟩,
   ⟨0x13, (1, 64), (0, 1), 0x40, (8, 1), 64, [⟨0, 64, .hw⟩]⟩,
   ⟨0x13, (1, 64), (0, 1), 0x48, (8, 1), 64, [⟨0, 64, .hw⟩]⟩,
   ⟨0x13, (1, 64), (0, 1), 0x50, (8, 1), 32, [⟨0, 32, .hw⟩]⟩,
   ⟨0x13, (1, 64), (0, 1), 0x54, (8, 1), 32, [⟨0, 32, .hw⟩]⟩,
   ⟨0x13, (1, 64), (0, 1), 0x58, (8, 1), 32, [⟨0, 32, .hw⟩]⟩,
   ⟨0x13, (1, 64), (0, 1), 0x5C, (8, 1), 32, [⟨0, 3, .hw⟩, ⟨8, 1, .wo⟩]⟩]

/-- Register rows of SEC_. -/
def rowsSEC : List RegRow :=
  [⟨0x4, (0, 1), (0, 1), 0x0, (8, 1), 32, [⟨0, 2, .hw⟩, ⟨2, 1, .hw⟩, ⟨3, 1, .hw⟩, ⟨4, 1, .hw⟩, ⟨5, 1, .hw⟩, ⟨6, 1, .hw⟩]⟩,
   ⟨0x4, (0, 1), (0, 1), 0x4, (8, 1), 32, [⟨0, 4, .wo⟩, ⟨4, 2, .wo⟩, ⟨16, 16, .wo⟩]⟩,
   ⟨0x4, (0, 1), (0, 1), 0x8, (8, 1), 32, [⟨0, 1, .hw⟩, ⟨8, 8, .hw⟩]⟩,
   ⟨0x4, (0, 1), (0, 1), 0x10, (8, 1), 64, [⟨0, 64, .ro⟩]⟩,
   ⟨0x4, (0, 1), (0, 1), 0x18, (8, 1), 64, [⟨0, 64, .hw⟩]⟩,
   ⟨0x4, (0, 1), (0, 1), 0x20, (8, 1), 64, [⟨0, 32, .hw⟩, ⟨32, 1, .hw⟩, ⟨33, 1, .hw⟩]⟩,
   ⟨0x4, (0, 1), (0, 1), 0x28, (8, 1), 64, [⟨0, 64, .rw⟩]⟩,
   ⟨0x4, (0, 1), (0, 1), 0x30, (8, 1), 64, [⟨12, 52, .rw⟩]⟩,
   ⟨0x4, (0, 1), (0, 1), 0x38, (8, 1), 32, [⟨0, 12, .wo⟩, ⟨16, 1, .wo⟩]⟩,
   ⟨0x4, (0, 1), (0, 1), 0x3C, (8, 1), 32, [⟨0, 12, .hw⟩, ⟨12, 3, .hw⟩, ⟨16, 8, .hw⟩]⟩,
   ⟨0x4, (0, 1), (0, 1), 0x40, (8, 1), 32, [⟨0, 1, .hw⟩, ⟨1, 1, .hw⟩]⟩,
   ⟨0x4, (0, 1), (0, 1), 0x44, (8, 1), 32, [⟨0, 6, .wo⟩, ⟨8, 1, .wo⟩, ⟨9, 1, .wo⟩, ⟨16, 1, .hw⟩, ⟨24, 8, .hw⟩]⟩,
   ⟨0x4, (0, 1), (0, 1), 0x48, (8, 1), 64, [⟨0, 64, .hw⟩]⟩,
   ⟨0x4, (0, 1), (0, 1), 0x50, (8, 1), 64, [⟨0, 64, .hw⟩]⟩,
   ⟨0x4, (0, 1), (0, 1), 0x58, (8, 1), 64, [⟨0, 64, .hw⟩]⟩,
   ⟨0x4, (0, 1), (0, 1), 0x60, (8, 1), 64, [⟨0, 64, .hw⟩]⟩,
   ⟨0x4, (0, 1), (0, 1), 0x68, (8, 1), 32, [⟨0, 32, .hw⟩]⟩,
   ⟨0x4, (0, 1), (0, 1), 0x6C, (8, 1), 32, [⟨0, 32, .hw⟩]⟩,
   ⟨0x4, (0, 1), (0, 1), 0x70, (8, 1), 32, [⟨0, 1, .hw⟩, ⟨1, 1, .hw⟩, ⟨8, 1, .wo⟩]⟩,
   ⟨0x4, (0, 1), (0, 1), 0x100, (8, 32), 64, [⟨0, 64, .rw⟩]⟩,
   ⟨0x4, (0, 1), (1, 1), 0x0, (8, 1), 32, [⟨0, 4, .hw⟩, ⟨4, 1, .hw⟩, ⟨16, 16, .hw⟩]⟩,
   ⟨0x4, (0, 1), (16, 16), 0x0, (8, 1), 32, [⟨0, 1, .wo⟩, ⟨1, 1, .wo⟩, ⟨2, 1, .rw⟩, ⟨3, 1, .rw⟩, ⟨4, 2, .rw⟩]⟩,
   ⟨0x4, (0, 1), (16, 16), 0x4, (8, 1), 32, [⟨0, 3, .hw⟩, ⟨8, 8, .hw⟩]⟩,
   ⟨0x4, (0, 1), (16, 16), 0x8, (8, 1), 64, [⟨4, 60, .rw⟩]⟩,
   ⟨0x4, (0, 1), (16, 16), 0x10, (8, 1), 64, [⟨4, 60, .rw⟩]⟩,
   ⟨0x4, (0, 1), (16, 16), 0x20, (8, 4), 64, [⟨0, 64, .wo⟩]⟩,
   ⟨0x4, (0, 1), (16, 16), 0x40, (8, 4), 64, [⟨0, 64, .wo⟩]⟩,
   ⟨0x4, (0, 1), (2, 1), 0x0, (8, 1), 32, [⟨0, 3, .rw⟩]⟩,
   ⟨0x4, (0, 1), (2, 1), 0x4, (8, 1), 32, [⟨0, 3, .rw⟩, ⟨3, 1, .rw⟩, ⟨4, 1, .wo⟩, ⟨8, 8, .rw⟩]⟩,
   ⟨0x4, (0, 1), (2, 1), 0x8, (8, 1), 32, [⟨0, 1, .hw⟩, ⟨1, 1, .hw⟩, ⟨2, 1, .rw1c⟩, ⟨3, 1, .rw1c⟩, ⟨4, 1, .rw1c⟩, ⟨5, 1, .rw1c⟩]⟩,
   ⟨0x4, (0, 1), (2, 1), 0x18, (8, 1), 64, [⟨0, 64, .hw⟩]⟩,
   ⟨0x4, (0, 1), (2, 1), 0x40, (4, 16), 32, [⟨0, 32, .hw⟩]⟩,
   ⟨0x4, (0, 1), (16, 16), 0x18, (8, 1), 32, [⟨0, 25, .rw⟩]⟩,
   ⟨0x4, (0, 1), (16, 16), 0x1C, (8, 1), 32, [⟨0, 25, .hw⟩]⟩,
   ⟨0x4, (0, 1), (2, 1), 0xC, (8, 1), 32, [⟨0, 32, .wo⟩]⟩,
   ⟨0x4, (0, 1), (2, 1), 0x10, (8, 1), 32, [⟨0, 32, .wo⟩]⟩,
   ⟨0x4, (0, 1), (2, 1), 0x14, (8, 1), 32, [⟨0, 2, .wo⟩, ⟨8, 24, .wo⟩]⟩]

/-- Register rows of PER_. -/
def rowsPER : List RegRow :=
  [⟨0x14, (0, 1), (0, 1), 0x0, (8, 1), 32, [⟨0, 3, .hw⟩, ⟨3, 1, .hw⟩, ⟨4, 1, .hw⟩, ⟨5, 1, .hw⟩, ⟨6, 1, .hw⟩, ⟨8, 4, .hw⟩]⟩,
   ⟨0x14, (0, 1), (0, 1), 0x8, (8, 1), 64, [⟨0, 64, .hw⟩]⟩,
   ⟨0x14, (0, 1), (0, 1), 0x10, (8, 1), 64, [⟨0, 32, .hw⟩, ⟨32, 32, .hw⟩]⟩,
   ⟨0x14, (0, 1), (0, 1), 0x18, (8, 1), 32, [⟨0, 16, .hw⟩, ⟨16, 11, .hw⟩]⟩,
   ⟨0x14, (0, 1), (0, 1), 0x20, (8, 1), 64, [⟨0, 64, .hw⟩]⟩,
   ⟨0x14, (0, 1), (0, 1), 0x28, (8, 1), 64, [⟨0, 16, .hw⟩, ⟨16, 16, .hw⟩, ⟨32, 16, .hw⟩, ⟨48, 16, .hw⟩]⟩,
   ⟨0x14, (0, 1), (0, 1), 0x30, (8, 1), 32, [⟨0, 21, .hw⟩]⟩,
   ⟨0x14, (0, 1), (0, 1), 0x34, (8, 1), 32, [⟨0, 1, .wo⟩]⟩,
   ⟨0x14, (0, 1), (0, 1), 0x38, (8, 1), 64, [⟨0, 64, .hw⟩]⟩,
   ⟨0x14, (0, 1), (0, 1), 0x40, (8, 1), 64, [⟨0, 64, .hw⟩]⟩,
   ⟨0x14, (0, 1), (0, 1), 0x48, (8, 1), 64, [⟨0, 64, .hw⟩]⟩,
   ⟨0x14, (0, 1), (0, 1), 0x50, (8, 1), 64, [⟨0, 64, .hw⟩]⟩,
   ⟨0x14, (0, 1), (0, 1), 0x58, (8, 1), 64, [⟨0, 64, .hw⟩]⟩,
   ⟨0x14, (0, 1), (0, 1), 0x60, (8, 1), 64, [⟨0, 64, .hw⟩]⟩,
   ⟨0x14, (0, 1), (0, 1), 0x68, (8, 1), 64, [⟨0, 64, .hw⟩]⟩,
   ⟨0x14, (0, 1), (0, 1), 0x70, (8, 1), 64, [⟨0, 64, .hw⟩]⟩,
   ⟨0x14, (0, 1), (0, 1), 0x78, (8, 1), 64, [⟨0, 64, .hw⟩]⟩,
   ⟨0x14, (0, 1), (0, 1), 0x80, (8, 1), 32, [⟨0, 32, .hw⟩]⟩,
   ⟨0x14, (0, 1), (0, 1), 0x84, (8, 1), 32, [⟨0, 32, .hw⟩]⟩,
   ⟨0x14, (0, 1), (0, 1), 0x88, (8, 1), 32, [⟨0, 32, .hw⟩]⟩,
   ⟨0x14, (0, 1), (0, 1), 0x8C, (8, 1), 32, [⟨0, 32, .hw⟩]⟩,
   ⟨0x14, (0, 1), (0, 1), 0x90, (8, 1), 32, [⟨0, 32, .hw⟩]⟩,
   ⟨0x14, (0, 1), (0, 1), 0x94, (8, 1), 32, [⟨0, 5, .hw⟩, ⟨8, 1, .wo⟩]⟩,
   ⟨0x14, (0, 1), (1, 8), 0x0, (8, 1), 32, [⟨0, 1, .hw⟩, ⟨1, 1, .hw⟩, ⟨2, 1, .hw⟩, ⟨3, 1, .ro⟩]⟩,
   ⟨0x14, (0, 1), (1, 8), 0x8, (8, 1), 64, [⟨0, 64, .hw⟩]⟩,
   ⟨0x14, (0, 1), (1, 8), 0x10, (8, 1), 32, [⟨0, 32, .hw⟩]⟩,
   ⟨0x14, (0, 1), (1, 8), 0x14, (8, 1), 32, [⟨0, 1, .hw⟩, ⟨8, 1, .wo⟩]⟩]

/-- Register rows of HEP_. -/
def rowsHEP : List RegRow :=
  [⟨0x5, (0, 1), (0, 1), 0x0, (8, 1), 32, [⟨0, 16, .ro⟩, ⟨16, 8, .ro⟩]⟩,
   ⟨0x5, (0, 1), (0, 1), 0x4, (8, 1), 32, [⟨0, 4, .hw⟩, ⟨4, 4, .hw⟩, ⟨8, 1, .hw⟩, ⟨9, 1, .hw⟩]⟩,
   ⟨0x5, (0, 1), (0, 1), 0x8, (8, 1), 32, [⟨0, 1, .hw⟩, ⟨1, 1, .hw⟩, ⟨2, 1, .hw⟩, ⟨3, 1, .hw⟩, ⟨4, 1, .hw⟩, ⟨5, 1, .hw⟩]⟩,
   ⟨0x5, (0, 1), (0, 1), 0xC, (8, 1), 32, [⟨0, 1, .rw1c⟩, ⟨1, 1, .rw1c⟩]⟩,
   ⟨0x5, (0, 1), (0, 1), 0x10, (8, 1), 32, [⟨0, 1, .rw⟩, ⟨1, 1, .rw⟩]⟩,
   ⟨0x5, (0, 1), (0, 1), 0x14, (8, 1), 32, [⟨0, 11, .rw⟩]⟩,
   ⟨0x5, (0, 1), (0, 1), 0x18, (8, 1), 32, [⟨0, 16, .rw⟩]⟩,
   ⟨0x5, (0, 1), (0, 1), 0x1C, (8, 1), 32, [⟨0, 16, .hw⟩]⟩,
   ⟨0x5, (0, 1), (0, 1), 0x20, (8, 1), 64, [⟨0, 64, .hw⟩]⟩,
   ⟨0x5, (0, 1), (0, 1), 0x28, (8, 1), 64, [⟨0, 64, .hw⟩]⟩,
   ⟨0x5, (0, 1), (0, 1), 0x30, (8, 1), 64, [⟨0, 64, .hw⟩]⟩,
   ⟨0x5, (0, 1), (0, 1), 0x38, (8, 1), 64, [⟨0, 64, .hw⟩]⟩,
   ⟨0x5, (0, 1), (0, 1), 0x40, (8, 1), 64, [⟨0, 64, .hw⟩]⟩,
   ⟨0x5, (0, 1), (0, 1), 0x48, (8, 1), 32, [⟨0, 32, .hw⟩]⟩,
   ⟨0x5, (0, 1), (0, 1), 0x4C, (8, 1), 32, [⟨0, 32, .hw⟩]⟩,
   ⟨0x5, (0, 1), (0, 1), 0x50, (8, 1), 32, [⟨0, 32, .hw⟩]⟩,
   ⟨0x5, (0, 1), (0, 1), 0x54, (8, 1), 32, [⟨0, 32, .hw⟩]⟩,
   ⟨0x5, (0, 1), (0, 1), 0x58, (8, 1), 32, [⟨0, 32, .hw⟩]⟩,
   ⟨0x5, (0, 1), (0, 1), 0x5C, (8, 1), 32, [⟨0, 32, .hw⟩]⟩,
   ⟨0x5, (0, 1), (0, 1), 0x64, (8, 1), 32, [⟨0, 19, .hw⟩]⟩,
   ⟨0x5, (0, 1), (0, 1), 0x60, (8, 1), 32, [⟨0, 6, .hw⟩, ⟨8, 1, .wo⟩]⟩]

/-- Register rows of HTH_. -/
def rowsHTH : List RegRow :=
  [⟨0x0, (0, 1), (0, 1), 0x0, (8, 1), 32, [⟨0, 3, .hw⟩, ⟨4, 4, .hw⟩, ⟨8, 1, .hw⟩, ⟨9, 1, .hw⟩, ⟨10, 1, .hw⟩]⟩,
   ⟨0x0, (0, 1), (0, 1), 0x4, (8, 1), 32, [⟨0, 4, .hw⟩, ⟨8, 8, .hw⟩]⟩,
   ⟨0x0, (0, 1), (0, 1), 0x8, (8, 1), 64, [⟨0, 64, .hw⟩]⟩,
   ⟨0x0, (0, 1), (0, 1), 0x10, (8, 1), 32, [⟨0, 24, .hw⟩, ⟨24, 2, .hw⟩, ⟨26, 1, .rw1c⟩]⟩,
   ⟨0x0, (0, 1), (0, 1), 0x14, (8, 1), 32, [⟨0, 32, .hw⟩]⟩,
   ⟨0x0, (0, 1), (0, 1), 0x24, (8, 1), 32, [⟨0, 1, .wo⟩]⟩,
   ⟨0x0, (0, 1), (0, 1), 0x28, (8, 1), 32, [⟨0, 8, .hw⟩, ⟨8, 8, .hw⟩]⟩,
   ⟨0x0, (0, 1), (0, 1), 0x30, (8, 1), 64, [⟨0, 64, .hw⟩]⟩,
   ⟨0x0, (0, 1), (0, 1), 0x38, (8, 1), 64, [⟨0, 64, .hw⟩]⟩,
   ⟨0x0, (0, 1), (0, 1), 0x40, (8, 1), 32, [⟨0, 32, .hw⟩]⟩,
   ⟨0x0, (0, 1), (0, 1), 0x44, (8, 1), 32, [⟨0, 1, .hw⟩, ⟨8, 1, .wo⟩]⟩,
   ⟨0x0, (0, 1), (0, 1), 0x18, (8, 1), 32, [⟨0, 16, .ro⟩, ⟨16, 8, .ro⟩, ⟨24, 4, .ro⟩]⟩,
   ⟨0x0, (0, 1), (0, 1), 0x1C, (8, 1), 32, [⟨0, 8, .ro⟩, ⟨8, 8, .ro⟩, ⟨16, 16, .ro⟩]⟩,
   ⟨0x0, (0, 1), (0, 1), 0x20, (8, 1), 32, [⟨0, 16, .ro⟩, ⟨16, 16, .ro⟩]⟩]

/-- Register rows of CLK_. -/
def rowsCLK : List RegRow :=
  [⟨0x2, (0, 1), (0, 1), 0x0, (8, 1), 32, [⟨0, 1, .hw⟩, ⟨1, 1, .hw⟩, ⟨2, 1, .hw⟩, ⟨8, 24, .hw⟩]⟩,
   ⟨0x2, (0, 1), (0, 1), 0x4, (8, 1), 32, [⟨0, 11, .ro⟩, ⟨16, 11, .hw⟩, ⟨31, 1, .hw⟩]⟩,
   ⟨0x2, (0, 1), (0, 1), 0x10, (8, 1), 32, [⟨0, 8, .ro⟩]⟩,
   ⟨0x2, (0, 1), (0, 1), 0x14, (8, 1), 32, [⟨0, 3, .wo⟩, ⟨8, 5, .wo⟩, ⟨31, 1, .wo⟩]⟩,
   ⟨0x2, (0, 1), (0, 1), 0x18, (8, 1), 32, [⟨0, 2, .hw⟩, ⟨4, 4, .hw⟩, ⟨8, 3, .hw⟩, ⟨16, 5, .hw⟩]⟩,
   ⟨0x2, (0, 1), (0, 1), 0x20, (8, 1), 64, [⟨0, 64, .hw⟩]⟩,
   ⟨0x2, (0, 1), (0, 1), 0x28, (8, 1), 64, [⟨0, 64, .hw⟩]⟩,
   ⟨0x2, (0, 1), (0, 1), 0x30, (8, 1), 32, [⟨0, 32, .hw⟩]⟩,
   ⟨0x2, (0, 1), (0, 1), 0x34, (8, 1), 32, [⟨0, 1, .hw⟩, ⟨8, 1, .wo⟩]⟩,
   ⟨0x2, (0, 1), (0, 1), 0x8, (8, 1), 32, [⟨0, 10, .hw⟩]⟩,
   ⟨0x2, (0, 1), (0, 1), 0xC, (8, 1), 32, [⟨0, 12, .hw⟩]⟩]

/-- Register rows of EVT_. -/
def rowsEVT : List RegRow :=
  [⟨0x3, (0, 1), (0, 1), 0x0, (8, 1), 32, [⟨0, 32, .hw⟩]⟩,
   ⟨0x3, (0, 1), (0, 1), 0x4, (8, 1), 32, [⟨0, 32, .hw⟩]⟩,
   ⟨0x3, (0, 1), (0, 1), 0x8, (8, 1), 32, [⟨0, 5, .rw⟩]⟩,
   ⟨0x3, (0, 1), (0, 1), 0x10, (8, 1), 64, [⟨0, 64, .rw⟩]⟩,
   ⟨0x3, (0, 1), (0, 1), 0x18, (8, 1), 32, [⟨0, 3, .rw⟩, ⟨3, 1, .rw⟩, ⟨4, 11, .rw⟩]⟩,
   ⟨0x3, (0, 1), (0, 1), 0x1C, (8, 1), 32, [⟨0, 1, .rw1c⟩]⟩,
   ⟨0x3, (0, 1), (0, 1), 0x28, (8, 1), 64, [⟨0, 64, .hw⟩]⟩,
   ⟨0x3, (0, 1), (0, 1), 0x30, (8, 1), 64, [⟨0, 64, .hw⟩]⟩,
   ⟨0x3, (0, 1), (0, 1), 0x38, (8, 1), 64, [⟨0, 64, .hw⟩]⟩,
   ⟨0x3, (0, 1), (0, 1), 0x40, (8, 1), 32, [⟨0, 32, .hw⟩]⟩,
   ⟨0x3, (0, 1), (0, 1), 0x44, (8, 1), 32, [⟨0, 32, .hw⟩]⟩,
   ⟨0x3, (0, 1), (0, 1), 0x48, (8, 1), 32, [⟨0, 2, .hw⟩, ⟨8, 1, .wo⟩]⟩]

/-- Every register row of the spec. -/
def regRows : List RegRow :=
  rowsIMG ++ rowsTRY ++ rowsCMQ0 ++ rowsCMQ1 ++ rowsPAN ++ rowsMAP ++ rowsMED0 ++ rowsMED1 ++ rowsFRT ++ rowsTRN0 ++ rowsTRN1 ++ rowsINS ++ rowsSNP ++ rowsSEC ++ rowsPER ++ rowsHEP ++ rowsHTH ++ rowsCLK ++ rowsEVT

/-- Pages with a CLR field: steward, first unit and count, first subunit and count, offset of the SAT register, and the
offsets of the Error counters its CLR clears, the counter of SAT bit 0 first (R573). -/
structure SatRow where
  stw : Nat
  unit : Nat × Nat
  sub : Nat × Nat
  off : Nat
  ctrs : List Nat
  deriving DecidableEq, Repr

/-- Every SAT register and its counters. -/
def satRows : List SatRow :=
  [⟨0x1, (0, 1), (0, 1), 0x58, [0x50, 0x54]⟩,
   ⟨0x8, (24, 1), (0, 1), 0x34, [0x28, 0x2C, 0x30]⟩,
   ⟨0x8, (0, 24), (16, 1), 0x40, [0x38, 0x3C]⟩,
   ⟨0x8, (0, 24), (0, 16), 0x14, [0x10]⟩,
   ⟨0xC, (0, 1), (1, 1), 0x84, [0x78, 0x7C, 0x80]⟩,
   ⟨0xC, (0, 1), (2, 1), 0x64, [0x58, 0x5C, 0x60]⟩,
   ⟨0x11, (0, 1), (0, 1), 0x90, [0x80, 0x84, 0x88, 0x8C]⟩,
   ⟨0x10, (0, 1), (0, 1), 0xB8, [0xA8, 0xAC, 0xB0, 0xB4]⟩,
   ⟨0x12, (32, 1), (0, 1), 0xD4, [0xB8, 0xBC, 0xC0, 0xC4, 0xC8, 0xCC, 0xD0]⟩,
   ⟨0x12, (0, 32), (0, 1), 0x48, [0x40, 0x44]⟩,
   ⟨0x12, (0, 32), (1, 1), 0x58, [0x40, 0x44, 0x48, 0x4C, 0x50, 0x54]⟩,
   ⟨0xA, (0, 16), (0, 1), 0xC0, [0xB8, 0xBC]⟩,
   ⟨0xA, (0, 16), (0, 4), 0x114, [0x110]⟩,
   ⟨0xB, (0, 1), (0, 1), 0xC8, [0xB0, 0xB4, 0xB8, 0xBC, 0xC0, 0xC4]⟩,
   ⟨0xC, (0, 1), (0, 1), 0x88, [0x78, 0x7C, 0x80, 0x84]⟩,
   ⟨0xD, (0, 1), (0, 1), 0x174, [0x168, 0x16C, 0x170]⟩,
   ⟨0x13, (0, 1), (0, 1), 0x34, [0x30]⟩,
   ⟨0x13, (1, 64), (0, 1), 0x5C, [0x50, 0x54, 0x58]⟩,
   ⟨0x4, (0, 1), (0, 1), 0x70, [0x68, 0x6C]⟩,
   ⟨0x14, (0, 1), (0, 1), 0x94, [0x80, 0x84, 0x88, 0x8C, 0x90]⟩,
   ⟨0x14, (0, 1), (1, 8), 0x14, [0x10]⟩,
   ⟨0x5, (0, 1), (0, 1), 0x60, [0x48, 0x4C, 0x50, 0x54, 0x58, 0x5C]⟩,
   ⟨0x0, (0, 1), (0, 1), 0x44, [0x40]⟩,
   ⟨0x2, (0, 1), (0, 1), 0x34, [0x30]⟩,
   ⟨0x3, (0, 1), (0, 1), 0x48, [0x40, 0x44]⟩]

/-- A register whose reset value is not zero: place and value. -/
structure ResetRow where
  stw : Nat
  unit : Nat × Nat
  sub : Nat × Nat
  off : Nat
  val : Nat
  deriving DecidableEq, Repr

/-- The registers whose reset value the tables give as other than zero. Fields the tables mark Image or Fused count as
zero here: DESIGN CHOICE (log entry 2), unsafe; an image load and the fuses set them. -/
def resetRows : List ResetRow :=
  [⟨0x1, (0, 1), (0, 1), 0x40, 0x3⟩,
   ⟨0x8, (24, 1), (0, 1), 0x10, 0x1F0000⟩,
   ⟨0x8, (24, 1), (0, 1), 0x14, 0xC8⟩,
   ⟨0x8, (0, 24), (16, 1), 0x4, 0xFFFF⟩,
   ⟨0xC, (0, 1), (1, 1), 0x4, 0x1⟩,
   ⟨0xC, (0, 1), (1, 1), 0x14, 0x2000000⟩,
   ⟨0xC, (0, 1), (2, 1), 0x0, 0x10000⟩,
   ⟨0x10, (0, 1), (0, 1), 0x0, 0x4⟩,
   ⟨0x10, (0, 1), (0, 1), 0x8, 0x110410⟩,
   ⟨0xC, (0, 1), (0, 1), 0x0, 0x80000⟩,
   ⟨0xD, (0, 1), (0, 1), 0x104, 0x44000⟩,
   ⟨0x13, (1, 64), (0, 1), 0x18, 0xFFFFFFFF⟩,
   ⟨0x14, (0, 1), (5, 4), 0x0, 0x8⟩,
   ⟨0x5, (0, 1), (0, 1), 0x0, 0x8100⟩,
   ⟨0x0, (0, 1), (0, 1), 0x0, 0x21⟩,
   ⟨0x3, (0, 1), (0, 1), 0x18, 0x2⟩]

/-- A register field whose reset value is marked Image: the field, the region whose record carries it (TYPE × 65536 + UNIT) and
whether the host may write it (R44). TRAY, PORTS mode and INSTANCE_LIMITS fields have their places in R53, R55 and R56 and are
not listed. -/
structure ImageField where
  fld : Field
  region : Nat
  rw : Bool
  deriving DecidableEq, Repr

/-- Every such field. Which region carries a field whose steward shares several is DEDUCED (log entry 2). -/
def imageFields : List ImageField :=
  [⟨⟨0x2060008, 0, 11⟩, 131080, false⟩,
   ⟨⟨0x2060008, 16, 11⟩, 131080, false⟩,
   ⟨⟨0x206000C, 0, 16⟩, 131080, false⟩,
   ⟨⟨0x206000C, 16, 16⟩, 131080, false⟩,
   ⟨⟨0x2060010, 0, 8⟩, 131080, false⟩,
   ⟨⟨0x2060010, 8, 8⟩, 131080, false⟩,
   ⟨⟨0x3000200, 0, 24⟩, 131084, true⟩,
   ⟨⟨0x400000C, 0, 16⟩, 131088, false⟩,
   ⟨⟨0x400000C, 16, 8⟩, 131088, false⟩,
   ⟨⟨0x4000100, 0, 33⟩, 131088, true⟩,
   ⟨⟨0x4000110, 0, 33⟩, 131088, true⟩,
   ⟨⟨0x4000120, 0, 33⟩, 131088, true⟩,
   ⟨⟨0x4000130, 0, 33⟩, 131088, true⟩,
   ⟨⟨0x4000140, 0, 33⟩, 131088, true⟩,
   ⟨⟨0x4000150, 0, 33⟩, 131088, true⟩,
   ⟨⟨0x4000160, 0, 33⟩, 131088, true⟩,
   ⟨⟨0x4000170, 0, 33⟩, 131088, true⟩,
   ⟨⟨0x4000180, 0, 33⟩, 131088, true⟩,
   ⟨⟨0x4000190, 0, 33⟩, 131088, true⟩,
   ⟨⟨0x40001A0, 0, 33⟩, 131088, true⟩,
   ⟨⟨0x40001B0, 0, 33⟩, 131088, true⟩,
   ⟨⟨0x40001C0, 0, 33⟩, 131088, true⟩,
   ⟨⟨0x40001D0, 0, 33⟩, 131088, true⟩,
   ⟨⟨0x40001E0, 0, 33⟩, 131088, true⟩,
   ⟨⟨0x40001F0, 0, 33⟩, 131088, true⟩,
   ⟨⟨0x4000100, 33, 3⟩, 131088, true⟩,
   ⟨⟨0x4000110, 33, 3⟩, 131088, true⟩,
   ⟨⟨0x4000120, 33, 3⟩, 131088, true⟩,
   ⟨⟨0x4000130, 33, 3⟩, 131088, true⟩,
   ⟨⟨0x4000140, 33, 3⟩, 131088, true⟩,
   ⟨⟨0x4000150, 33, 3⟩, 131088, true⟩,
   ⟨⟨0x4000160, 33, 3⟩, 131088, true⟩,
   ⟨⟨0x4000170, 33, 3⟩, 131088, true⟩,
   ⟨⟨0x4000180, 33, 3⟩, 131088, true⟩,
   ⟨⟨0x4000190, 33, 3⟩, 131088, true⟩,
   ⟨⟨0x40001A0, 33, 3⟩, 131088, true⟩,
   ⟨⟨0x40001B0, 33, 3⟩, 131088, true⟩,
   ⟨⟨0x40001C0, 33, 3⟩, 131088, true⟩,
   ⟨⟨0x40001D0, 33, 3⟩, 131088, true⟩,
   ⟨⟨0x40001E0, 33, 3⟩, 131088, true⟩] ++
  [⟨⟨0x40001F0, 33, 3⟩, 131088, true⟩,
   ⟨⟨0x4000100, 36, 15⟩, 131088, true⟩,
   ⟨⟨0x4000110, 36, 15⟩, 131088, true⟩,
   ⟨⟨0x4000120, 36, 15⟩, 131088, true⟩,
   ⟨⟨0x4000130, 36, 15⟩, 131088, true⟩,
   ⟨⟨0x4000140, 36, 15⟩, 131088, true⟩,
   ⟨⟨0x4000150, 36, 15⟩, 131088, true⟩,
   ⟨⟨0x4000160, 36, 15⟩, 131088, true⟩,
   ⟨⟨0x4000170, 36, 15⟩, 131088, true⟩,
   ⟨⟨0x4000180, 36, 15⟩, 131088, true⟩,
   ⟨⟨0x4000190, 36, 15⟩, 131088, true⟩,
   ⟨⟨0x40001A0, 36, 15⟩, 131088, true⟩,
   ⟨⟨0x40001B0, 36, 15⟩, 131088, true⟩,
   ⟨⟨0x40001C0, 36, 15⟩, 131088, true⟩,
   ⟨⟨0x40001D0, 36, 15⟩, 131088, true⟩,
   ⟨⟨0x40001E0, 36, 15⟩, 131088, true⟩,
   ⟨⟨0x40001F0, 36, 15⟩, 131088, true⟩,
   ⟨⟨0x4000108, 0, 1⟩, 131088, true⟩,
   ⟨⟨0x4000118, 0, 1⟩, 131088, true⟩,
   ⟨⟨0x4000128, 0, 1⟩, 131088, true⟩,
   ⟨⟨0x4000138, 0, 1⟩, 131088, true⟩,
   ⟨⟨0x4000148, 0, 1⟩, 131088, true⟩,
   ⟨⟨0x4000158, 0, 1⟩, 131088, true⟩,
   ⟨⟨0x4000168, 0, 1⟩, 131088, true⟩,
   ⟨⟨0x4000178, 0, 1⟩, 131088, true⟩,
   ⟨⟨0x4000188, 0, 1⟩, 131088, true⟩,
   ⟨⟨0x4000198, 0, 1⟩, 131088, true⟩,
   ⟨⟨0x40001A8, 0, 1⟩, 131088, true⟩,
   ⟨⟨0x40001B8, 0, 1⟩, 131088, true⟩,
   ⟨⟨0x40001C8, 0, 1⟩, 131088, true⟩,
   ⟨⟨0x40001D8, 0, 1⟩, 131088, true⟩,
   ⟨⟨0x40001E8, 0, 1⟩, 131088, true⟩,
   ⟨⟨0x40001F8, 0, 1⟩, 131088, true⟩,
   ⟨⟨0x4000108, 4, 4⟩, 131088, true⟩,
   ⟨⟨0x4000118, 4, 4⟩, 131088, true⟩,
   ⟨⟨0x4000128, 4, 4⟩, 131088, true⟩,
   ⟨⟨0x4000138, 4, 4⟩, 131088, true⟩,
   ⟨⟨0x4000148, 4, 4⟩, 131088, true⟩,
   ⟨⟨0x4000158, 4, 4⟩, 131088, true⟩,
   ⟨⟨0x4000168, 4, 4⟩, 131088, true⟩] ++
  [⟨⟨0x4000178, 4, 4⟩, 131088, true⟩,
   ⟨⟨0x4000188, 4, 4⟩, 131088, true⟩,
   ⟨⟨0x4000198, 4, 4⟩, 131088, true⟩,
   ⟨⟨0x40001A8, 4, 4⟩, 131088, true⟩,
   ⟨⟨0x40001B8, 4, 4⟩, 131088, true⟩,
   ⟨⟨0x40001C8, 4, 4⟩, 131088, true⟩,
   ⟨⟨0x40001D8, 4, 4⟩, 131088, true⟩,
   ⟨⟨0x40001E8, 4, 4⟩, 131088, true⟩,
   ⟨⟨0x40001F8, 4, 4⟩, 131088, true⟩,
   ⟨⟨0x4880000, 0, 16⟩, 393216, false⟩,
   ⟨⟨0x4880000, 16, 8⟩, 393216, false⟩,
   ⟨⟨0x4880000, 24, 8⟩, 393216, false⟩,
   ⟨⟨0x4880004, 0, 16⟩, 393216, false⟩,
   ⟨⟨0x4880004, 16, 16⟩, 393216, false⟩,
   ⟨⟨0x4880008, 0, 16⟩, 393216, false⟩,
   ⟨⟨0x4880208, 0, 8⟩, 131090, false⟩,
   ⟨⟨0x4880208, 8, 8⟩, 131090, false⟩,
   ⟨⟨0x2840000, 4, 3⟩, 262144, false⟩,
   ⟨⟨0x2840000, 8, 6⟩, 262144, false⟩,
   ⟨⟨0x2840000, 16, 3⟩, 262144, false⟩,
   ⟨⟨0x2840000, 20, 6⟩, 262144, false⟩,
   ⟨⟨0x2840010, 0, 16⟩, 262144, false⟩,
   ⟨⟨0x2840014, 8, 8⟩, 262144, false⟩,
   ⟨⟨0x2C00000, 0, 5⟩, 131083, false⟩,
   ⟨⟨0x2C00000, 5, 3⟩, 131083, false⟩,
   ⟨⟨0x2C00000, 8, 3⟩, 131083, false⟩,
   ⟨⟨0x2C00004, 0, 7⟩, 131083, false⟩,
   ⟨⟨0x2C00004, 8, 8⟩, 131083, false⟩,
   ⟨⟨0x2C00004, 16, 8⟩, 131083, false⟩,
   ⟨⟨0x2C00004, 24, 4⟩, 131083, false⟩,
   ⟨⟨0x2C00008, 0, 8⟩, 131083, false⟩,
   ⟨⟨0x2C00008, 8, 4⟩, 131083, false⟩,
   ⟨⟨0x2C00008, 12, 4⟩, 131083, false⟩,
   ⟨⟨0x2C00008, 16, 8⟩, 131083, false⟩,
   ⟨⟨0x2C00008, 24, 8⟩, 131083, false⟩,
   ⟨⟨0x2C0000C, 0, 8⟩, 131083, false⟩,
   ⟨⟨0x2C0000C, 8, 8⟩, 131083, false⟩,
   ⟨⟨0x2C0000C, 16, 16⟩, 131083, false⟩,
   ⟨⟨0x800004, 0, 11⟩, 131074, false⟩,
   ⟨⟨0x800010, 0, 8⟩, 65536, false⟩] ++
  [⟨⟨0x18, 0, 16⟩, 65536, false⟩,
   ⟨⟨0x18, 16, 8⟩, 65536, false⟩,
   ⟨⟨0x18, 24, 4⟩, 65536, false⟩,
   ⟨⟨0x1C, 0, 8⟩, 65536, false⟩,
   ⟨⟨0x1C, 8, 8⟩, 65536, false⟩,
   ⟨⟨0x1C, 16, 16⟩, 65536, false⟩,
   ⟨⟨0x20, 0, 16⟩, 65536, false⟩,
   ⟨⟨0x20, 16, 16⟩, 65536, false⟩]

/-- `a` lies in a range given by its first value and its count. -/
def inSpan (a : Nat) (r : Nat × Nat) : Bool := decide (r.1 ≤ a ∧ a < r.1 + r.2)

/-- The STW, UNIT, SUB and REG fields of a structure address (R13). -/
def saParts (a : Nat) : Nat × Nat × Nat × Nat := (a / 0x400000, a / 0x4000 % 256, a / 0x200 % 32, a % 0x200)

/-- The value a register takes at reset. -/
def regReset (a : Nat) : Nat :=
  match saParts a with
  | (st, u, b, o) =>
    match resetRows.find? (fun r => r.stw == st && r.off == o && inSpan u r.unit && inSpan b r.sub) with
    | some r => r.val
    | none => 0

/-- Whether a row holds the register at an SA, and the SA is that register's first byte. -/
def rowAt (a : Nat) (r : RegRow) : Bool :=
  match saParts a with
  | (st, u, b, o) =>
    r.stw == st && inSpan u r.unit && inSpan b r.sub && decide (r.off ≤ o) &&
      decide ((o - r.off) % r.rep.1 = 0) && decide ((o - r.off) / r.rep.1 < r.rep.2)

/-- The row of the register whose first byte stands at an SA; none where no register starts there. -/
def regRow (a : Nat) : Option RegRow := regRows.find? (rowAt a)

end Sys2Proof.Machine
end

