-- ==== Sys2Proof/Machine/Ops.lean ====
section
/-! DEFINITION. The named operations over registers, counters, DRAM, events and outputs that every family of commands is
written with. -/

namespace Sys2Proof.Machine

/-- The value of the register at an SA: what `regs` lists, or the reset value. -/
def Dev.rd (d : Dev) (a : Nat) : Nat := (tabGet (BitVec.ofNat 64 (regReset a)) d.regs a).toNat

/-- Write the register at an SA; a value equal to the reset value is listed nowhere. -/
def Dev.wr (d : Dev) (a v : Nat) : Dev :=
  { d with regs := tabSet (BitVec.ofNat 64 (regReset a)) d.regs a (BitVec.ofNat 64 v) }

/-- The value of a register field. -/
def Dev.getF (d : Dev) (f : Field) : Nat := bitsAt (d.rd f.sa) f.lo f.w

/-- Write a register field; the other bits keep their values. -/
def Dev.setF (d : Dev) (f : Field) (v : Nat) : Dev := d.wr f.sa (setBitsAt (d.rd f.sa) f.lo f.w v)

/-- A one-bit field. -/
def Dev.getB (d : Dev) (f : Field) : Bool := d.getF f != 0

/-- Write a one-bit field. -/
def Dev.setB (d : Dev) (f : Field) (b : Bool) : Dev := d.setF f (b2n b)

/-- Show a level: a field that shows the value already is left alone. -/
def Dev.setIf (d : Dev) (f : Field) (v : Nat) : Dev := if d.getF f = v then d else d.setF f v

/-- The time base in ns, `HTH_TIME` (R542). -/
def Dev.now (d : Dev) : Nat := d.rd R.HTH_TIME

/-- Raise a Statistics counter: 64 bits, wrapping (R571). -/
def Dev.stat (d : Dev) (a n : Nat) : Dev := d.wr a ((d.rd a + n) % 2 ^ 64)

/-- Append to the log of outputs. -/
def Dev.emit (d : Dev) (o : Out) : Dev := { d with out := d.out ++ [o] }

/-- Draw a free number below `n` (log entry 1). -/
def Dev.drawNat (d : Dev) (n : Nat) : Nat × Dev :=
  (Config.freeNat d.freeCtr % n, { d with freeCtr := d.freeCtr + 1 })

/-- Draw `n` free bytes (log entry 1). -/
def Dev.drawBytes (d : Dev) (n : Nat) : Bytes × Dev :=
  ((List.range n).map (Config.freeByte d.freeCtr), { d with freeCtr := d.freeCtr + 1 })

/-- Severity and class of an event code (R570). -/
def evMeta (code : Nat) : Nat × Nat :=
  if code % 256 = 0xFF then (2, 5) else
  match code with
  | 0x0001 => (0, 0) | 0x0002 => (2, 2) | 0x0003 => (4, 2) | 0x0004 => (2, 2) | 0x0005 => (4, 2) | 0x0006 => (2, 0)
  | 0x0101 => (2, 1) | 0x0102 => (4, 1) | 0x0103 => (0, 1) | 0x0104 => (1, 1) | 0x0105 => (3, 1) | 0x0106 => (3, 2)
  | 0x0201 => (3, 2) | 0x0301 => (2, 5) | 0x0401 => (4, 4) | 0x0402 => (3, 4) | 0x0403 => (3, 4) | 0x0404 => (1, 4)
  | 0x0501 => (2, 2) | 0x0502 => (4, 2) | 0x0801 => (2, 2) | 0x0802 => (3, 2) | 0x0803 => (3, 2) | 0x0804 => (3, 2)
  | 0x0805 => (2, 1) | 0x0A01 => (3, 2) | 0x0A02 => (1, 0) | 0x0B01 => (3, 2) | 0x0B02 => (1, 0) | 0x0C01 => (3, 1)
  | 0x0C02 => (2, 0) | 0x0D01 => (1, 0) | 0x0D02 => (2, 5) | 0x1001 => (3, 3) | 0x1101 => (1, 5) | 0x1102 => (2, 5)
  | 0x1103 => (2, 2) | 0x1104 => (0, 0) | 0x1201 => (3, 1) | 0x1202 => (3, 1) | 0x1203 => (2, 2) | 0x1204 => (2, 5)
  | 0x1205 => (3, 5) | 0x1206 => (3, 5) | 0x1207 => (3, 1) | 0x1208 => (4, 3) | 0x1301 => (3, 0) | 0x1401 => (4, 0)
  | 0x1402 => (2, 2) | 0x1403 => (4, 3)
  | _ => (0, 0)

/-- Capacity of the recorder's input queue (R566). -/
def evtQueueMax : Nat := 256

/-- Put one event into the recorder's input queue, or count it as masked under R567 or dropped under R566. Counting a drop
in `EVT_DROPPED` is left to `Dev.postEv`. -/
def Dev.enqueueEv (d : Dev) (e : Ev) : Dev :=
  if (evMeta e.code).1 < 2 ∧ bitAt (d.rd R.EVT_MASK) (e.code / 256) then d.stat R.EVT_MASKED 1
  else if d.evt.queue.length ≥ evtQueueMax then { d with evt := { d.evt with dropped := d.evt.dropped + 1 } }
  else { d with evt := { d.evt with queue := d.evt.queue ++ [e] } }

/-- The register page of an SA. -/
def pageOf (a : Nat) : Nat := a / 0x200 * 0x200

/-- The event of a full counter (R574) reaches the recorder; one dropped there counts in `EVT_DROPPED` as any other (R566). Where that
fills `EVT_DROPPED` itself, the event of that counter finds the queue full too. -/
def Dev.satEv (d : Dev) (e : Ev) : Dev :=
  let d1 := d.enqueueEv e
  let v := d1.rd R.EVT_DROPPED
  if d1.evt.dropped = d.evt.dropped ∨ v ≥ 0xFFFFFFFF then d1
  else if v + 1 < 0xFFFFFFFF then d1.wr R.EVT_DROPPED (v + 1)
  else ({ d1 with evt := { d1.evt with dropped := d1.evt.dropped + 1 } }.wr R.EVT_DROPPED 0xFFFFFFFF).setF
    ⟨R.E_EVT_DROPPED.satSa, R.E_EVT_DROPPED.satBit, 1⟩ 1

/-- Raise an Error counter (R571): it sticks at FFFFFFFFh, where its SAT bit is set and one event is posted (R574). -/
def Dev.err (d : Dev) (c : ErrCtr) : Dev :=
  let v := d.rd c.sa
  if v ≥ 0xFFFFFFFF then d
  else
    let d := d.wr c.sa (v + 1)
    if v + 1 = 0xFFFFFFFF then
      (d.setF ⟨c.satSa, c.satBit, 1⟩ 1).satEv
        ⟨c.sa / 0x400000 * 256 + 0xFF, d.now, pageOf c.sa, c.sa, 0, 0, 0⟩
    else d

/-- An event reaches the recorder (R566): a drop counts in `EVT_DROPPED`. -/
def Dev.postEv (d : Dev) (e : Ev) : Dev :=
  let d' := d.enqueueEv e
  if d'.evt.dropped = d.evt.dropped then d' else d'.err R.E_EVT_DROPPED

/-- A steward's own register page, the SRC_SA of events that concern no other unit (R563). -/
def ownPage (stw : Nat) : Nat :=
  match stw with
  | 0x08 => sa 0x08 24 0 0
  | 0x0A => sa 0x0A 16 0 0
  | 0x12 => sa 0x12 32 0 0
  | s => sa s 0 0 0

/-- Post an event of a unit's register page, its cause being now. -/
def Dev.postAt (d : Dev) (code src : Nat) (ps : List Nat) : Dev :=
  d.postEv ⟨code, d.now, src, ps.getD 0 0, ps.getD 1 0, ps.getD 2 0, ps.getD 3 0⟩

/-- Post an event of a steward's own page. -/
def Dev.post (d : Dev) (code : Nat) (ps : List Nat) : Dev := d.postAt code (ownPage (code / 256)) ps

/-- One entry of the MSI-X table; an entry never written is masked (R530). -/
def Dev.vector (d : Dev) (v : Nat) : MsixEnt := tabGet ⟨0, 0, true⟩ d.hep.vectors v

/-- Host DMA may be issued: Bus Master Enable set, not in D3hot, no endpoint reset (R535, R537). -/
def Dev.dmaOn (d : Dev) : Bool :=
  d.getB R.HEP_FUNC_BME && !d.getB R.HEP_FUNC_D3HOT && !d.getB R.HEP_FUNC_RESETTING

/-- Send an MSI-X message, or set the vector's pending bit (R530). While host DMA is stopped no message is issued and nothing
is pending (R535). -/
def Dev.msix (d : Dev) (v : Nat) (pasid : Option Nat) : Dev :=
  if !d.getB R.HEP_FUNC_MSIX_EN || d.hep.funcMask || (d.vector v).masked then
    { d with hep := { d.hep with pba := tabSet false d.hep.pba v true } }
  else if d.dmaOn then
    (d.emit (.msix (d.vector v).addr (d.vector v).data pasid)).stat R.HEP_MSIX_SENT 1
  else d

/-- Write bytes to host memory by DMA. -/
def Dev.hostWrite (d : Dev) (addr : Nat) (b : Bytes) (pasid : Option Nat) : Dev :=
  (d.emit (.hostWrite addr b pasid)).stat R.HEP_DMA_WR_BYTES b.length

/-- Issue a DMA read on the lowest free of the 512 tags (R517; which tag is the model's choice, log entry 6); with none free it waits. -/
def Dev.hostRead (d : Dev) (work : DmaWork) (addr len : Nat) (pasid : Option Nat) : Dev :=
  match lowestBelow 512 (fun t => d.hep.reads.all fun r => r.tag != t) with
  | none => { d with hep := { d.hep with waiting := d.hep.waiting ++ ([(work, addr, len, pasid)] : List _) } }
  | some t => { d.emit (.hostRead t addr len pasid) with
      hep := { d.hep with reads := d.hep.reads ++ [⟨t, work, len, false⟩] } }

/-- One byte of the DRAM that tickets address; a byte nothing has written reads as zero (DESIGN CHOICE, log entry 7). -/
def memRead (m : List Host.Cell) (a : Nat) : Byte := tabGet 0#8 m a

/-- Write one byte of DRAM. -/
def memWrite (m : List Host.Cell) (a : Nat) (b : Byte) : List Host.Cell := tabSet 0#8 m a b

/-- The cells that bytes from an address up make: a byte that reads as an unlisted one is not listed. -/
def memCells (a : Nat) (b : Bytes) : List Host.Cell :=
  match b with
  | [] => []
  | x :: r => if x = 0#8 then memCells (a + 1) r else (a, x) :: memCells (a + 1) r

/-- Write bytes from an address up. -/
def memWriteAll (m : List Host.Cell) (a : Nat) (b : Bytes) : List Host.Cell :=
  let stop := a + b.length
  (m.takeWhile fun e => decide (e.1 < a)) ++ memCells a b ++ m.dropWhile fun e => decide (e.1 < stop)

/-- Read bytes from an address up, of cells none of which lies below it. -/
def memRun (m : List Host.Cell) (a n : Nat) : Bytes :=
  match n with
  | 0 => []
  | n + 1 => match m with
    | [] => 0#8 :: memRun [] (a + 1) n
    | (k, v) :: r => if k = a then v :: memRun r (a + 1) n else 0#8 :: memRun ((k, v) :: r) (a + 1) n

/-- The canonical form of the DRAM list: addresses strictly rising and no byte that an unlisted address reads as. -/
def memWf (m : List Host.Cell) : Bool := tabSorted m && tabNoDefault (fun _ => 0#8) m

/-- Size of the DRAM address space: 36 address bits (R94). -/
def dramSize : Nat := 2 ^ 36

/-- Bytes of DRAM from an address up. -/
def Dev.memBytes (d : Dev) (a n : Nat) : Bytes := memRun (d.dram.dropWhile fun e => decide (e.1 < a)) a n

/-- Store bytes in DRAM. -/
def Dev.memStore (d : Dev) (a : Nat) (b : Bytes) : Dev := { d with dram := memWriteAll d.dram a b }

/-- Bounds of the structure's fixed numbers (R27, R38, R14). -/
def trayCount : Nat := 24
/-- Rolls of one tray. -/
def rollCount : Nat := 16
/-- Modules of the array. -/
def moduleCount : Nat := 32
/-- Bytes of a chunk, a crumb and a block (R38). -/
def chunkBytes : Nat := 16384
/-- Bytes of a crumb. -/
def crumbBytes : Nat := 256
/-- Bytes of a block. -/
def blockBytes : Nat := 4096

/-- The head's own number, 0 while it has none (R26). -/
def Dev.headNum (d : Dev) : Nat := d.per.head.getD 0

/-- Head states of `HTH_STATE.STATE` (R547). -/
def stReset : Nat := 0
/-- STARTING. -/
def stStarting : Nat := 1
/-- SERVING. -/
def stServing : Nat := 2
/-- FLUSH. -/
def stFlush : Nat := 3
/-- HALTED. -/
def stHalted : Nat := 4
/-- FENCED. -/
def stFenced : Nat := 5

/-- Move list elements that satisfy `p` through `f`. -/
def mapWhere {α : Type} (p : α → Bool) (f : α → α) (l : List α) : List α := l.map fun x => if p x then f x else x

/-- Apply a step to each element in turn. -/
def forEach {α : Type} (l : List α) (f : α → Dev → Dev) (d : Dev) : Dev := l.foldl (fun d x => f x d) d

/-- Apply a step only where a condition holds. -/
def Dev.when (d : Dev) (c : Bool) (f : Dev → Dev) : Dev := if c then f d else d

/-- A region that holds the rebake slot: its type and its unit (R45). -/
def rebaking (d : Dev) (type unit : Nat) : Bool :=
  match d.img.rebake with
  | some r => r.key == type * 65536 + unit
  | none => false

/-- A steward whose region is being rebaked issues no ticket and holds what is asked of it (R77, log entry 123). -/
def stewardHeld (d : Dev) (stw : Nat) : Bool := rebaking d 2 stw

/-- A message from the peer has arrived whole (R496). -/
def rxMsg (d : Dev) : Dev := d.stat R.PER_MSGS_RX 1

/-- Any access discards both latches; an access that uses one has read it before (R17, R18). -/
def dropLatches (d : Dev) : Dev := { d with readLatch := none, writeLatch := none }

/-- The host has written the run-time settings of a register (R44): they stand until the next start. -/
def hostSetAll (a : Nat) (d : Dev) : Dev :=
  let l := (imageFields.filter fun f => f.rw && f.fld.sa == a).map fun f => (f.fld.sa, f.fld.lo)
  if l.isEmpty then d
  else { d with img := { d.img with hostSet := d.img.hostSet.filter (fun x => !l.contains x) ++ l } }

/-- Show the modules of the current solo pair (`MED_M_STATE.SOLO_HOLDER`). -/
def soloHolders (l : List Nat) (d : Dev) : Dev :=
  forEach (List.range moduleCount) (fun m d => d.setIf (R.MED_M_STATE_SOLO_HOLDER m) (b2n (l.contains m))) d

end Sys2Proof.Machine
end

