-- ==== Sys2Proof/Machine/Transport.lean ====
section
/-! DEFINITION. Queue pairs and their messages, memory windows (R351 to R379, R493). -/

namespace Sys2Proof.Machine

/-- Receive buffers a queue pair starts with, and keeps posted beyond the newest message taken (DESIGN CHOICE, log entry 13). -/
def qpBuffers : Nat := 1024

/-- A context in RESET (R353). MSN and SSN count from 1 (log entry 13). -/
def qpFresh : Qp :=
  { st := .reset, spread := false, gen := 0, dest := 0, port := 0, inst := 0, pmtu := 2, use := .none, peerFlush := false,
    sendPsn := 0, nextMsn := 1, nextSsn := 1, timeouts := 0, rnrCount := 0, rnrWait := false, msgs := [], pkts := [],
    ackPsn := 0, recvLimit := qpBuffers, doneRx := 0, paths := [], nextPath := 0, recvPsn := 0, nakSent := false,
    ackPending := 0, recvFree := qpBuffers, recvLen := none, writeVa := 0, writeKey := 0, writeLeft := 0, rx := [], seen := [],
    msnDone := 0, ssnDone := 0, flushMsn := 0, lastSack := 0, sackPath := 0, lastCnp := none, rate := 0, calm := 0, cnps := 0,
    txBytes := 0, rxBytes := 0, retx := 0 }

/-- A queue pair. -/
def Dev.qp (d : Dev) (n : Nat) : Qp := tabGet qpFresh d.net.qps n
/-- Change a queue pair. -/
def Dev.modQp (d : Dev) (n : Nat) (f : Qp → Qp) : Dev :=
  { d with net := { d.net with qps := tabPut d.net.qps n (f (d.qp n)) } }

/-- Where the Thagrait queue pairs stand in the table: CONTROL 1, MIRROR 2, FORWARD 3, BULK 4 (R493). -/
def peerQp (k : Nat) : Nat := 0x10000 + k
/-- A queue pair of the Thagrait link. -/
def isPeerQp (n : Nat) : Bool := decide (n ≥ 0x10000)

/-- Difference of PSNs modulo 2^24 (PSN class of R571). -/
def psnSub (a b : Nat) : Nat := (a + 2 ^ 24 - b % 2 ^ 24) % 2 ^ 24
/-- A PSN lies before another. -/
def psnLt (a b : Nat) : Bool := newerW 24 b a

/-- Payload bytes of one packet at a path MTU code (R381). -/
def mtuBytes (c : Nat) : Nat := if c = 0 then 1024 else if c = 1 then 2048 else 4096
/-- Path MTU of a queue pair; 4,096 bytes in Spread mode (R366). -/
def mtuOf (q : Qp) : Nat := if q.spread then 4096 else mtuBytes q.pmtu

/-- PSNs a message takes (R366; IBTA for Standard mode). -/
def psnCount (q : Qp) (m : TxMsg) : Nat :=
  match m.kind with
  | .flush => 1
  | _ => Nat.max 1 ((m.len + mtuOf q - 1) / mtuOf q)

/-- The SPXH (R367). -/
def spxh (m : TxMsg) (off path : Nat) (retx : Bool) : Bytes :=
  let key := match m.kind with
    | .write => m.key
    | .send => m.ssn
    | _ => 0
  let len := match m.kind with
    | .flush => 0
    | _ => m.len
  leBytes 4 m.msn ++ leBytes 4 len ++ leBytes 4 off ++ leBytes 4 key ++
    leBytes 8 m.va ++ leBytes 1 path ++ leBytes 1 (b2n retx) ++ zeros 6

/-- BTH opcode of a Spread packet (R366). -/
def spOpcode (k : MsgKind) : Nat :=
  match k with
  | .write => 0xC0
  | .send => 0xC1
  | .flush => 0xC2
  | .readReq => 0x0C

/-- BTH opcode of a Standard-mode packet: first, middle, last or only of its message (IBTA). -/
def rcOpcode (k : MsgKind) (first last : Bool) : Nat :=
  let base := match k with
    | .send => 0
    | _ => 6
  match k with
  | .readReq => 0x0C
  | .flush => 0x1C
  | _ => if first && last then base + 4 else if first then base else if last then base + 2 else base + 1

/-- The opcode of a packet of a message; the last one of a SEND that names a key is SEND with Invalidate (R351, R384). -/
def rcCode (m : TxMsg) (first last : Bool) : Nat :=
  if m.kind == .send && last && m.key != 0 then (if first then 0x17 else 0x16) else rcOpcode m.kind first last

/-- Count one packet sent on a queue pair. -/
def countTx (n bytes : Nat) (again : Bool) (d : Dev) : Dev :=
  let q := d.qp n
  let d1 := d.modQp n fun q => { q with txBytes := (q.txBytes + bytes) % 2 ^ 64, retx := (q.retx + b2n again) % 2 ^ 64 }
  if isPeerQp n then d1
  else
    let d2 := d1.stat R.TRN_TX_PKTS 1
    if again then d2.stat (if q.spread then R.TRN_RETX_SPREAD else R.TRN_RETX_STD) 1 else d2

/-- Paths of a Spread queue pair (R365, R493). -/
def pathCount (d : Dev) (n : Nat) : Nat := if isPeerQp n then 2 else Nat.max 1 (d.getF R.TRN_SPREAD_PATHS)

/-- A path never used. -/
def pathFresh : Path := ⟨false, []⟩

/-- The path of the next packet after one (R365): the next that is not suspended; where all are, the next. -/
def pathAfter (d : Dev) (n from' : Nat) : Nat :=
  let q := d.qp n
  let c := pathCount d n
  match (List.range c).find? fun i => !(tabGet pathFresh q.paths ((from' + i) % c)).suspended with
  | some i => (from' + i) % c
  | none => from' % c

/-- Send or send again packet `i` of a message. -/
def sendPacket (n : Nat) (m : TxMsg) (i path : Nat) (again : Bool) (d : Dev) : Dev :=
  let q := d.qp n
  let u := mtuOf q
  let last := i + 1 == m.count
  let body := match m.kind with
    | .write => slice m.data (i * u) (Nat.min u (m.len - i * u))
    | .send => slice m.data (i * u) (Nat.min u (m.len - i * u))
    | _ => []
  let psn := (m.first + i) % 2 ^ 24
  let d1 := if q.spread then d.emit (.packet n (spOpcode m.kind) psn path 0 (spxh m (i * u) path again ++ body))
    else d.emit (.packet n (rcCode m (i == 0) last) psn m.va (m.key + m.len * 2 ^ 32) body)
  countTx n body.length again d1

/-- Change a message of a queue pair. -/
def modMsg (n msn : Nat) (f : TxMsg → TxMsg) (d : Dev) : Dev :=
  d.modQp n fun q => { q with msgs := mapWhere (fun m => m.msn == msn) f q.msgs }

/-- Send a message for the first time: its PSNs, and a packet for each (one for a READ request, whose responses take the PSNs). -/
def sendMsg (n : Nat) (m : TxMsg) (d : Dev) : Dev :=
  let q := d.qp n
  let c := psnCount q m
  let m1 := { m with sent := true, first := q.sendPsn, count := c }
  let d1 := (modMsg n m.msn (fun _ => m1) d).modQp n fun q => { q with sendPsn := (q.sendPsn + c) % 2 ^ 24 }
  let idx := match m.kind with
    | .readReq => [0]
    | _ => List.range c
  forEach idx (fun i d =>
    let p := pathAfter d n (d.qp n).nextPath
    let d2 := sendPacket n m1 i p false d
    d2.modQp n fun q => { q with
      nextPath := p + 1
      pkts := q.pkts ++ [⟨(m1.first + i) % 2 ^ 24, m.msn, i, p, d.now, 1⟩] }) d1

/-- A message may be sent now: the queue pair is in RTS and not in an RNR wait; at most 16 READs outstanding (R351); in Spread
mode within the window and the receive limit of R369. -/
def mayPost (q : Qp) (m : TxMsg) : Bool :=
  q.st == .rts && !q.rnrWait &&
    (if q.spread then decide (psnSub q.sendPsn q.ackPsn + psnCount q m ≤ 1024) &&
        (m.kind != .send || !newerW 32 m.ssn q.recvLimit)
     else m.kind != .readReq || decide ((q.msgs.filter fun x => x.sent && x.kind == .readReq).length < 16))

/-- Send what waits on a queue pair, oldest first. -/
def pumpMsgs (n : Nat) (l : List TxMsg) (d : Dev) : Dev :=
  match l with
  | [] => d
  | m :: rest => if mayPost (d.qp n) m then pumpMsgs n rest (sendMsg n m d) else d

/-- Send what waits on a queue pair. -/
def pumpQp (n : Nat) (d : Dev) : Dev := pumpMsgs n ((d.qp n).msgs.filter fun m => !m.sent) d

/-- Post a message on a queue pair (R351, R366). Nothing is posted on one that is not connected. -/
def postMsg (n : Nat) (kind : MsgKind) (work : MsgWork) (data : Bytes) (len key va : Nat) (d : Dev) : Dev :=
  let q := d.qp n
  if q.st ≠ .rts then d
  else
    let m : TxMsg := ⟨q.nextMsn, kind, work, false, 0, 0, data, len, key, va, q.nextSsn⟩
    pumpQp n (d.modQp n fun q => { q with
      nextMsn := (q.nextMsn + 1) % 2 ^ 32
      nextSsn := (q.nextSsn + b2n (kind == .send)) % 2 ^ 32
      msgs := q.msgs ++ [m] })

/-- Post one message whose bytes are its data. -/
def postSend (n : Nat) (b : Bytes) (d : Dev) : Dev := postMsg n .send .none b b.length 0 0 d

/-- A sent message whose packets have all been covered. A READ is whole when its data has arrived (R355). -/
def msgCovered (q : Qp) (m : TxMsg) : Bool :=
  m.sent && (match m.kind with
    | .readReq => decide (m.data.length ≥ m.len)
    | .flush => !q.spread && q.pkts.all (fun p => p.msn != m.msn)
    | _ => q.pkts.all fun p => p.msn != m.msn)

/-- Take the messages that are complete out of a queue pair, and send what waits. -/
def takeDone (n : Nat) (d : Dev) : List TxMsg × Dev :=
  let q := d.qp n
  (q.msgs.filter (msgCovered q), pumpQp n (d.modQp n fun q => { q with msgs := q.msgs.filter fun m => !msgCovered q m }))

/-- Packets up to and including a PSN are covered in Standard mode (R355); progress ends the count of timeouts (R360). -/
def coverUpto (n psn : Nat) (d : Dev) : Dev :=
  d.modQp n fun q =>
    let rest := q.pkts.filter fun p => psnLt psn p.psn
    if rest.length < q.pkts.length then
      { q with pkts := rest, timeouts := 0, rnrCount := 0, ackPsn := (rest.head?.map (·.psn)).getD q.sendPsn }
    else q

/-- Send a packet again: the message as it stands in its source (R356). -/
def resend (n : Nat) (p : TxPkt) (path : Nat) (d : Dev) : Dev :=
  match (d.qp n).msgs.find? fun m => m.msn == p.msn with
  | none => d
  | some m =>
    (sendPacket n m p.off path true d).modQp n fun q => { q with
      pkts := mapWhere (fun x => x.psn == p.psn) (fun x => { x with path := path, time := d.now, sends := x.sends + 1 }) q.pkts }

/-- Go back to a PSN and send again from it, in Standard mode (R360). -/
def goBack (n psn : Nat) (d : Dev) : Dev :=
  forEach ((d.qp n).pkts.filter fun p => !psnLt p.psn psn) (fun p d => resend n p p.path d) d

/-- Bring the transport's level registers up to date. -/
def syncNet (d : Dev) : Dev :=
  let used := d.net.qps.filter fun e => !isPeerQp e.1 && e.2.st != .reset
  ((d.setF R.TRN_USE_QPS used.length).setF R.TRN_USE_SPREAD (used.filter fun e => e.2.spread).length).setF
    R.TRN_MW_USE_WINDOWS (d.net.windows.filter fun e => e.2.valid).length

/-- A window never created. -/
def winFresh : MemWin := ⟨0, 0, 0, 0, 0, 0, false, false⟩
/-- A window. -/
def Dev.win (d : Dev) (w : Nat) : MemWin := tabGet winFresh d.net.windows w
/-- R_Key of a window (R377). -/
def winKey (d : Dev) (w : Nat) : Nat := w % 4096 + (d.win w).tag * 4096

/-- Rewrite a window (R379): the tag rises where the base changes, the length shortens or a right is withdrawn. -/
def rewriteWindow (w base len rights qpn : Nat) (d : Dev) : Dev :=
  let x := d.win w
  let cut := x.valid && (x.base != base || decide (len < x.len) || (List.range 3).any fun i =>
    bitAt x.rights i && !bitAt rights i)
  let y : MemWin := ⟨(x.tag + b2n cut) % 2 ^ 20, base, len, rights, qpn, (d.qp qpn).gen, true, x.valid⟩
  syncNet (({ d with net := { d.net with windows := tabPut d.net.windows w y } }).stat R.TRN_MW_REWRITES 1)

/-- The lowest free window. -/
def freeWindow (d : Dev) : Option Nat := lowestBelow 4096 fun w => !(d.win w).valid

/-- A packet passes its window check (R378): right 0 write, 1 read, 2 flush. -/
def winOk (d : Dev) (n key va len right : Nat) : Bool :=
  let x := d.win (key % 4096)
  x.valid && x.tag == key / 4096 && x.qpn == n && x.qpGen == (d.qp n).gen && bitAt x.rights right &&
    decide (va + len ≤ x.len)

/-- A queue pair enters ERR (R363): its messages are flushed to their issuers, an event is posted and the error counted. -/
def qpError (n : Nat) (d : Dev) : Dev :=
  let q := d.qp n
  if q.st = .err ∨ q.st = .reset then d
  else
    let d1 := d.modQp n fun q => { q with st := .err, msgs := [], pkts := [], rx := [], recvLen := none }
    let d2 : Dev := { d1 with net := { d1.net with erred := d1.net.erred ++ [(n, q.msgs.map (·.work))] } }
    if isPeerQp n then d1 else (d2.postAt 0x0B02 (ownPage 0x0B) [n, q.gen]).err R.E_TRN_QP_ERRORS

/-- A context is reset for reuse (R354): its generation rises. -/
def resetQp (n : Nat) (d : Dev) : Dev :=
  syncNet (d.modQp n fun q => { qpFresh with gen := (q.gen + 1) % 2 ^ 16 })

/-- Bring the four queue pairs of the Thagrait link up from PSN 0 and MSN 0 (R493). -/
def resetPeerQps (d : Dev) : Dev :=
  forEach [1, 2, 3, 4] (fun k d => d.modQp (peerQp k) fun q => { qpFresh with
    st := .rts, spread := true, gen := (q.gen + 1) % 2 ^ 16, dest := k, use := .peer k,
    paths := (if d.getB R.PER_STATE_SUB0_UP then [] else [(0, ⟨true, []⟩)]) ++ if d.getB R.PER_STATE_SUB1_UP then [] else [(1, ⟨true, []⟩)] }) d

/-- QPN that carries a message type (R497). -/
def mtypeQp (mtype : Nat) : Nat :=
  if [0x04, 0x40, 0x44].contains mtype then 4
  else if [0x24, 0x25, 0x30, 0x31, 0x32].contains mtype then 3 else 1

/-- The bytes of a message to the peer (R496). -/
def msgBytes (mtype tag : Nat) (args : List Nat) (body : Bytes) : Bytes :=
  let h := leBytes 1 mtype ++ leBytes 1 1 ++ zeros 2 ++ leBytes 4 tag ++ leBytes 4 body.length ++ zeros 4 ++
    (List.range 5).flatMap (fun i => leBytes 8 (args.getD i 0)) ++ zeros 4
  h ++ leBytes 4 (crcNat h) ++ body

/-- Send a message to the peer (R496): one SP_SEND on its queue pair. The log of outputs names the message too. -/
def sendPeer (mtype tag : Nat) (args : List Nat) (body : Bytes) (d : Dev) : Dev :=
  let b := msgBytes mtype tag args body
  postSend (peerQp (mtypeQp mtype)) b ((d.emit (.peer mtype tag b)).stat R.PER_MSGS_TX 1)

/-- Write into one of the peer's mirror windows (R149, R498): 0 staging, 1 descriptors, 2 journal. -/
def mirrorWrite (k off : Nat) (b : Bytes) (d : Dev) : Dev :=
  postMsg (peerQp 2) .write .none b b.length (tabGet 0 d.per.windows k) off (d.stat R.PER_MIRROR_BYTES b.length)

end Sys2Proof.Machine
end

