-- ==== Sys2Proof/Machine/Fence.lean ====
section
/-! DEFINITION. Queue pairs entering ERR, front links going down, and the self-fence of the head (R343, R363, R495, R547, R559). -/

namespace Sys2Proof.Machine

/-- A front port beside its registers: nothing heard, nothing paused. -/
def portFresh : Port := ⟨false, false, [], none, none, none, 0, 0⟩

/-- A front port (R339). -/
def Dev.port (d : Dev) (p : Nat) : Port := tabGet portFresh d.net.ports p

/-- Change a front port. -/
def Dev.modPort (d : Dev) (p : Nat) (f : Port → Port) : Dev :=
  { d with net := { d.net with ports := tabPut d.net.ports p (f (d.port p)) } }

/-- Number of configured ports by `FRT_CLASS.MODE` (R55, R339). -/
def Dev.portCount (d : Dev) : Nat := 4 * 2 ^ (d.getF R.FRT_CLASS_MODE % 4)

/-- Lanes of a port, numbered within it (R339). -/
def portLanes (d : Dev) (p : Nat) : List Nat := if p < d.portCount then List.range (16 / d.portCount) else []

/-- A front link goes down with a cause (R343): Standard-mode queue pairs bound to the port enter ERR; Spread-mode ones lose
the paths on that port only. -/
def portLinkDown (p cause : Nat) (d : Dev) : Dev :=
  if !d.getB (R.FRT_P_STATE_LINK_UP p) then d
  else
    let d1 := (((d.setB (R.FRT_P_STATE_LINK_UP p) false).setF (R.FRT_P_STATE_DOWN_CAUSE p) cause).setB
      (R.FRT_P_STATE_PAUSED p) false).setB (R.FRT_P_STATE_XOFF_SENT p) false
    let d2 := (forEach (portLanes d p) (fun j d => (d.setB (R.FRT_L_STATE_SIGNAL p j) false).setB (R.FRT_L_STATE_ALIGNED p j) false)
      (d1.modPort p fun x => { x with pause := [], bringUp := false })).postAt 0x0A02 (sa 0x0A p 0 0) [p, cause]
    forEach (d2.net.qps.filter fun e => !e.2.spread && e.2.port == p && e.2.st != .reset) (fun e => qpError e.1) d2

/-- All front links go down. -/
def allPortsDown (cause : Nat) (d : Dev) : Dev := forEach (List.range 16) (fun p => portLinkDown p cause) d

/-- Set the head's state (R547). -/
def setHeadState (st : Nat) (d : Dev) : Dev := d.setF R.HTH_STATE_STATE st

/-- The head is self-fenced: the media commands R495 still allows are STATUS, WITNESS_READ and SB_READ. -/
def Dev.fenced (d : Dev) : Bool := d.getF R.HTH_STATE_STATE == stFenced

/-- The peer is in service: the heads are paired (R499). -/
def Dev.peerUp (d : Dev) : Bool := d.getF R.PER_STATE_STATE == 3

/-- Staging, descriptors and journal of this head are mirrored: while paired, and while a survivor fills the returned head's mirror (R149, R510
step 6). -/
def Dev.mirrors (d : Dev) : Bool := d.peerUp || d.per.joinStep == 6

/-- This head is in service: step 12 of its start has ended and it serves (R551, R552). -/
def Dev.inService (d : Dev) : Bool := d.getF R.HTH_STATE_STATE == stServing && d.getB R.HTH_STATE_IO_READY

/-- The 16-byte SELF_FENCE body (R495). -/
def selfFenceBody (d : Dev) (cause : Nat) : Bytes :=
  leBytes 1 cause ++ zeros 3 ++ leBytes 2 (d.per.fenceWord % 65536) ++ zeros 2 ++ leBytes 8 d.now

/-- Up sublinks of the Thagrait link (R491). -/
def upSublinks (d : Dev) : List Nat :=
  (if d.getB R.PER_STATE_SUB0_UP then [0] else []) ++ (if d.getB R.PER_STATE_SUB1_UP then [1] else [])

/-- Send a frame of a link frame type on every up sublink; the log shows it as message type 100h + TYPE with the sublink as
TAG (R492). -/
def sendFrame (type : Nat) (body : Bytes) (d : Dev) : Dev :=
  forEach (upSublinks d) (fun j d => d.emit (.peer (0x100 + type) j body)) d

/-- Self-fence times within the last hour (R559). -/
def recentFences (d : Dev) : List Nat := d.hth.fenceTimes.filter fun t => decide (d.now - t < 3600000000000)

/-- The head self-fences with a cause (R495): three SELF_FENCE frames on each up sublink, front links and sublinks down, state FENCED,
FAULT_L low. The third self-fence within an hour sets the lockout (R559). -/
def selfFence (cause : Nat) (d : Dev) : Dev :=
  if d.fenced then d
  else
    let body := selfFenceBody d cause
    let d1 := sendFrame 2 body (sendFrame 2 body (sendFrame 2 body d))
    let d2 := allPortsDown 0 d1
    let d3 := (((setHeadState stFenced ((d2.setB R.PER_STATE_SUB0_UP false).setB R.PER_STATE_SUB1_UP false)).setF R.PER_STATE_STATE 7).setF
      R.PER_STATE_FENCE_CAUSE cause)
    let times := d.now :: recentFences d
    let d4 := { d3.setB R.HTH_STATE_IO_READY false with
      hth := { d3.hth with fenceTimes := times, fenceCause := cause, faultL := false } }
    let d5 := d4.emit (.faultL false)
    if times.length ≥ 3 then (d5.setB R.HTH_STATE_LOCKOUT true).post 0x0005 [] else d5

/-- The Hearth declares the head failed (R548): an event, the count, and the self-fence. -/
def headFail (cause : Nat) (d : Dev) : Dev :=
  if d.fenced then d
  else selfFence cause ((d.post 0x0003 [cause]).err R.E_HTH_HEAD_FAILS)

end Sys2Proof.Machine
end

