-- ==== Sys2Proof/Machine/Keys.lean ====
section
/-! DEFINITION. Key derivation, epochs and the key store's formats (R460 to R463, R467 to R472). -/

namespace Sys2Proof.Machine

/-- One step of AES key wrap (SP 800-38F): the pair of integrity half and the registers, at step `t` on register `i`. -/
def kwStep (ks : List Bytes) (n : Nat) (s : Bytes × List Bytes) (t : Nat) : Bytes × List Bytes :=
  let i := t % n
  let b := aesEnc ks (s.1 ++ s.2.getD i [])
  (xorB (b.take 8) (beBytes 8 (t + 1)), s.2.set i (b.drop 8))

/-- AES key wrap of whole 8-byte units. -/
def kwWrap (key p : Bytes) : Bytes :=
  let ks := aesKeys key
  let n := p.length / 8
  let r := (List.range n).map fun i => slice p (8 * i) 8
  let s := (List.range (6 * n)).foldl (kwStep ks n) (List.replicate 8 0xA6#8, r)
  s.1 ++ s.2.flatten

/-- One step of AES key unwrap. -/
def kwUnstep (ks : List Bytes) (n : Nat) (s : Bytes × List Bytes) (t : Nat) : Bytes × List Bytes :=
  let i := t % n
  let b := aesDec ks (xorB s.1 (beBytes 8 (t + 1)) ++ s.2.getD i [])
  (b.take 8, s.2.set i (b.drop 8))

/-- AES key unwrap: the plain text where the integrity check holds (R461). -/
def kwUnwrap (key c : Bytes) : Option Bytes :=
  let ks := aesKeys key
  let n := c.length / 8 - 1
  let r := (List.range n).map fun i => slice c (8 * i + 8) 8
  let s := (List.range (6 * n)).reverse.foldl (kwUnstep ks n) (c.take 8, r)
  if s.1 = List.replicate 8 0xA6#8 then some s.2.flatten else none

/-- The context block of a derivation (R468). -/
def kdfContext (domain nsg epoch extraA extraB : Nat) (tenant : Bytes) : Bytes :=
  leBytes 1 1 ++ zeros 1 ++ leBytes 2 domain ++ leBytes 4 nsg ++ leBytes 4 epoch ++ leBytes 4 extraA ++
    leBytes 8 extraB ++ zeros 8 ++ slice tenant 0 32

/-- A domain of the key store; one never created is not in use, at epoch 0. -/
def Dev.domain (d : Dev) (n : Nat) : Domain :=
  match d.sec.store with
  | none => ⟨false, false, 0, zeros 32⟩
  | some ks => tabGet ⟨false, false, 0, zeros 32⟩ ks.domains n

/-- The full epochs of a domain that can be derived: the current one and, while a raise is in its drain phase, the one
before (R472). -/
def liveEpochs (d : Dev) (dom : Nat) : List Nat :=
  let e := (d.domain dom).epoch
  match d.sec.raise with
  | some r => if r.dom = dom ∧ r.phase = 3 ∧ e > 0 then [e, e - 1] else [e]
  | none => [e]

/-- The full epoch that twelve bits select among the derivable ones (R472). -/
def pickEpoch (d : Dev) (dom e12 : Nat) : Option Nat := (liveEpochs d dom).find? fun e => e % 4096 == e12 % 4096

/-- A purpose's key under the array root for a domain and a full epoch (R469): DATA 1, DEDUP 2, INSTANCE 3. -/
def domainKey (d : Dev) (purpose dom epoch extraA extraB bits : Nat) : Option Bytes :=
  match d.sec.root with
  | none => none
  | some r => some (kdf r purpose (kdfContext dom 0 epoch extraA extraB (d.domain dom).tenant) bits)

/-- The stream key of a replication stream unit (R469, R471). -/
def replKey (d : Dev) (unit : Nat) : Option Bytes :=
  match d.sec.store with
  | none => none
  | some ks =>
    let c := d.getF (R.SNP_S_KEY_KEY_CTX unit)
    match tabFind ks.repl (c % 64) with
    | none => none
    | some secret =>
      some (kdf secret 8 (kdfContext 0 0 0 (c / 64 % 2) (d.rd (R.SNP_S_ID unit)) (zeros 32)) 256)

/-- The key a key context index names (R471); none for a retired epoch or a malformed index. -/
def ctxKey (d : Dev) (idx : Nat) : Option Bytes :=
  let p := idx % 16
  if idx / 2 ^ 28 ≠ 0 then none
  else if p = 1 ∨ p = 2 then
    match pickEpoch d (bitsAt idx 4 12) (bitsAt idx 16 12) with
    | none => none
    | some e => domainKey d p (bitsAt idx 4 12) e 0 0 (if p = 1 then 512 else 256)
  else if p = 8 then (if bitsAt idx 10 18 = 0 then replKey d (bitsAt idx 4 6) else none)
  else none

/-- The key context index of a domain key (R471). -/
def keyIndex (purpose dom epoch : Nat) : Nat := purpose + dom % 4096 * 16 + epoch % 4096 * 65536

/-- The fingerprint of a chunk under a de-duplication key (R176). -/
def fingerprint (key chunk : Bytes) : Bytes :=
  hmac sha256P key ((List.range 8).flatMap fun k => sha sha256P (slice chunk (2048 * k) 2048))

/-- Bucket and tag of a fingerprint (R177). -/
def fpBucket (f : Bytes) : Nat := fieldAt f 0 8 % 2 ^ 27
/-- The 64-bit fingerprint tag (R177). -/
def fpTag (f : Bytes) : Nat := fieldAt f 8 8

/-- The zero fingerprint of a domain and epoch (R135, R179). -/
def zeroFp (d : Dev) (dom epoch : Nat) : Option Bytes :=
  match domainKey d 2 dom epoch 0 0 256 with
  | none => none
  | some k => some (fingerprint k (zeros chunkBytes))

/-- The XTS tweak of a content handle (R143). -/
def handleTweak (h : Nat) : Bytes := leBytes 8 h ++ zeros 8

/-- The identity scalar of the device (R460). -/
def identityScalar (root : Bytes) : Nat :=
  beNat ((kdf root 6 (kdfContext 0 0 0 0 0 (zeros 32)) 512).take 48) % (p384N - 1) + 1

/-- The key store's header unit (R462). -/
def storeHeaderBody (head : Nat) (ks : KeyStore) (time : Nat) (wrapKey : Bytes) : Bytes :=
  leBytes 4 0x5254534B ++ leBytes 1 1 ++ leBytes 1 head ++ zeros 2 ++ leBytes 4 ks.kseq ++ leBytes 4 ks.starts ++
    leBytes 8 ks.arrayId ++ leBytes 8 time ++ slice ks.wrapped 0 40 ++ zeros 56 ++
    ((List.range 64).flatMap fun j =>
      match tabFind ks.repl j with
      | some s => leBytes 1 1 ++ zeros 7 ++ slice (kwWrap wrapKey s) 0 40
      | none => zeros 48) ++ zeros 892

/-- A domain record of the key store (R462). -/
def domainRecord (n : Nat) (x : Domain) : Bytes :=
  let b := (if x.inUse then leBytes 2 n else zeros 2) ++ leBytes 1 (b2n x.inUse + 2 * b2n x.walk) ++ zeros 1 ++
    leBytes 4 x.epoch ++ slice x.tenant 0 32 ++ zeros 4
  b ++ leBytes 4 (crcNat b)

/-- Domain page `p` of the key store (R462). -/
def domainPage (ks : KeyStore) (p : Nat) : Bytes :=
  leBytes 2 p ++ zeros 2 ++ leBytes 4 ks.kseq ++ zeros 8 ++
    ((List.range 85).flatMap fun r =>
      domainRecord (p * 85 + r + 1) (tabGet ⟨false, false, 0, zeros 32⟩ ks.domains (p * 85 + r + 1)))

/-- The 50 units of a key store as one run (R462). -/
def storeBytes (head : Nat) (ks : KeyStore) (time : Nat) (wrapKey : Bytes) : Bytes :=
  let h := storeHeaderBody head ks time wrapKey
  h ++ leBytes 4 (crcNat h) ++ (List.range 49).flatMap (domainPage ks)

/-- The certificate is valid under the fused maker key hash (R460). -/
def certValid (d : Dev) (c : Bytes) : Bool :=
  c.length == 384 && fieldAt c 380 4 == crcNat (slice c 0 380) &&
    sha sha384P (slice c 120 97) == d.sec.fuses.certHash &&
    ecdsaVerify (slice c 120 97) (slice c 0 224) (slice c 224 48) (slice c 272 48)

end Sys2Proof.Machine
end

