-- ==== Sys2Proof/Machine/Squeeze.lean ====
section
/-! DEFINITION. The predictive residue coder: SQUEEZE and UNSQUEEZE (R208 to R231). A slice's bytes are held newest first while
they are coded. -/

namespace Sys2Proof.Machine

/-- The mark EMPTY of a match table entry (R210). -/
def sqEmpty : Nat := 2048

/-- State of one slice while its bytes pass: the bytes so far, newest first, and the match table (R210). -/
structure SliceSt where
  i : Nat
  rev : Bytes
  table : Array Nat

/-- A slice before its first byte. -/
def sliceStart : SliceSt := ⟨0, [], Array.replicate 1024 sqEmpty⟩

/-- The hash of the three bytes before a position (R210). -/
def sliceHash (s : SliceSt) : Nat :=
  (((s.rev.getD 2 0#8).toNat <<< 2) ^^^ ((s.rev.getD 1 0#8).toNat <<< 1) ^^^ (s.rev.getD 0 0#8).toNat) &&& 0x3FF

/-- The prediction of a mode at the next position (R209). -/
def predict (s : SliceSt) (mode : Nat) : Byte :=
  if mode ≤ 3 then s.rev.getD (2 ^ mode - 1) 0#8
  else if mode = 4 then
    if s.i < 3 then 0#8
    else
      let q := s.table.getD (sliceHash s) sqEmpty
      if q = sqEmpty then 0#8 else s.rev.getD (s.i - 1 - q) 0#8
  else 0#8

/-- The residue of a byte under a mode (R209). -/
def residue (s : SliceSt) (mode : Nat) (b : Byte) : Byte :=
  if mode ≤ 3 then b - predict s mode else if mode = 4 then b ^^^ predict s mode else b

/-- The byte that a residue stands for (R209). -/
def rebuild (s : SliceSt) (mode : Nat) (r : Byte) : Byte :=
  if mode ≤ 3 then predict s mode + r else if mode = 4 then predict s mode ^^^ r else r

/-- Take one byte into the slice: the match table is updated in every mode (R210). -/
def slicePush (s : SliceSt) (b : Byte) : SliceSt :=
  ⟨s.i + 1, b :: s.rev, if s.i < 3 then s.table else s.table.setIfInBounds (sliceHash s) s.i⟩

/-- The residues of a slice under all six modes, position by position. -/
def sliceResidues : SliceSt → Bytes → List (List Byte)
  | _, [] => []
  | s, b :: r => (List.range 6).map (fun m => residue s m b) :: sliceResidues (slicePush s b) r

/-- The lowest mode with the fewest non-zero residues over a segment (R220). -/
def pickMode (seg : List (List Byte)) : Nat :=
  ((List.range 6).foldl (fun (best : Nat × Nat) m =>
    let c := (seg.filter fun row => row.getD m 0#8 != 0#8).length
    if c < best.2 then (m, c) else best) (0, seg.length + 1)).1

/-- A token of a slice stream (R211). -/
inductive SqToken where
  | res (v : Nat)
  | zrun (len : Nat)
  | fin

/-- Cut residues into tokens (R221): `run` zero residues wait to be written. -/
def tokens : Nat → List Byte → List SqToken
  | run, [] => (if run ≥ 4 then [.zrun run] else List.replicate run (.res 0)) ++ [.fin]
  | run, r :: rest =>
    if r = 0#8 then tokens (run + 1) rest
    else (if run ≥ 4 then [.zrun run] else List.replicate run (.res 0)) ++ .res r.toNat :: tokens 0 rest

/-- The symbol of a token (R211). -/
def tokSym (t : SqToken) : Nat :=
  match t with
  | .res v => v
  | .zrun _ => 256
  | .fin => 257

/-- Extra bits of a token (R211). -/
def tokExtra (t : SqToken) : Nat :=
  match t with
  | .zrun l => 4 + Nat.log2 l
  | _ => 0

/-- A node of the Huffman procedure: weight and the leaves below it. -/
abbrev HNode := Nat × List Nat

/-- Insert a node after every node of equal weight: nodes of equal weight stay in order of creation (R222). -/
def hInsert (n : HNode) : List HNode → List HNode
  | [] => [n]
  | m :: r => if n.1 < m.1 then n :: m :: r else m :: hInsert n r

/-- Merge the two lightest nodes until one is left; each merge adds one to the lengths of the leaves below (R222). -/
def hMerge : Nat → List HNode → List Nat → List Nat
  | 0, _, ls => ls
  | n + 1, a :: b :: r, ls =>
    let syms := a.2 ++ b.2
    hMerge n (hInsert (a.1 + b.1, syms) r) (syms.foldl (fun ls s => ls.set s (ls.getD s 0 + 1)) ls)
  | _ + 1, _, ls => ls

/-- The leaves in order of weight, then symbol. -/
def hLeaves (counts : List Nat) : List HNode :=
  (counts.zipIdx.filter fun p => p.1 != 0).foldl (fun l p => hInsert (p.1, [p.2]) l) []

/-- Pair up the items of a list in order: the packages of package-merge. -/
def packages : List HNode → List HNode
  | a :: b :: r => (a.1 + b.1, a.2 ++ b.2) :: packages r
  | _ => []

/-- Merge leaves and packages by weight, leaves before packages among equals (R222). -/
def mergeLists : Nat → List HNode → List HNode → List HNode
  | 0, _, _ => []
  | _ + 1, [], ps => ps
  | _ + 1, ls, [] => ls
  | n + 1, l :: ls, p :: ps => if l.1 ≤ p.1 then l :: mergeLists n ls (p :: ps) else p :: mergeLists n (l :: ls) ps

/-- The item list of package-merge after `n` further levels. -/
def pmLevels (leaves : List HNode) : Nat → List HNode → List HNode
  | 0, l => l
  | n + 1, l => pmLevels leaves n (mergeLists (2 * leaves.length + 2) leaves (packages l))

/-- Code lengths limited to 12 by package-merge (R222). -/
def pmLengths (counts : List Nat) : List Nat :=
  let leaves := hLeaves counts
  let items := (pmLevels leaves 11 leaves).take (2 * leaves.length - 2)
  (items.flatMap (·.2)).foldl (fun ls s => ls.set s (ls.getD s 0 + 1)) (List.replicate 258 0)

/-- The code lengths of the standard library SQUEEZE (R222). -/
def codeLengths (counts : List Nat) : List Nat :=
  let h := hMerge 258 (hLeaves counts) (List.replicate 258 0)
  if h.all (fun l => decide (l ≤ 12)) then h else pmLengths counts

/-- The first codeword of each length (R217): `n` lengths left, from length `l`. -/
def firstCodes (lens : List Nat) : Nat → Nat → Nat → List Nat
  | 0, _, _ => []
  | n + 1, l, code =>
    let c := (code + (if l = 1 then 0 else (lens.filter (· == l - 1)).length)) * 2
    c :: firstCodes lens n (l + 1) c

/-- The canonical codeword of every symbol as (length, value) (R217). -/
def codeWords (lens : List Nat) : List (Nat × Nat) :=
  let first := firstCodes lens 12 1 0
  lens.zipIdx.map fun p =>
    (p.1, first.getD (p.1 - 1) 0 + ((lens.take p.2).filter (· == p.1)).length)

/-- The low `n` bits of a number, least significant first (R214, extra fields). -/
def lsbBits : Nat → Nat → List Bool
  | 0, _ => []
  | n + 1, v => (v % 2 == 1) :: lsbBits n (v / 2)

/-- The bits of a codeword, most significant first (R214). -/
def msbBits (n v : Nat) : List Bool := (lsbBits n v).reverse

/-- The bits of a token. -/
def tokBits (codes : List (Nat × Nat)) (t : SqToken) : List Bool :=
  let c := codes.getD (tokSym t) (0, 0)
  msbBits c.1 c.2 ++
    match t with
    | .zrun l => lsbBits 4 (Nat.log2 l) ++ lsbBits (Nat.log2 l) (l - 2 ^ Nat.log2 l)
    | _ => []

/-- The number that up to `n` bits spell, least significant first. -/
def bitsNat : List Bool → Nat
  | [] => 0
  | b :: r => b2n b + 2 * bitsNat r

/-- Pack bits into bytes, bit 0 of a byte first (R214). -/
def packBits : Nat → List Bool → Bytes
  | 0, _ => []
  | n + 1, bs => if bs.isEmpty then [] else BitVec.ofNat 8 (bitsNat (bs.take 8)) :: packBits n (bs.drop 8)

/-- The bits of bytes, bit 0 of a byte first. -/
def unpackBits (b : Bytes) : List Bool := b.flatMap fun x => lsbBits 8 x.toNat

/-- What SQUEEZE decides before it writes: modes and tokens by slice, code lengths, total length in bytes (R220 to R223). -/
def squeezePlan (chunk : Bytes) : List Nat × List (List SqToken) × List Nat × Nat :=
  let slices := (List.range 8).map fun k => sliceResidues sliceStart (slice chunk (2048 * k) 2048)
  let modes := slices.flatMap fun rows => (List.range 8).map fun m => pickMode ((rows.drop (256 * m)).take 256)
  let toks := slices.zipIdx.map fun p =>
    tokens 0 (p.1.zipIdx.map fun q => q.1.getD (modes.getD (8 * p.2 + q.2 / 256) 0) 0#8)
  let counts := toks.flatten.foldl (fun (a : Array Nat) t => a.setIfInBounds (tokSym t) (a.getD (tokSym t) 0 + 1))
    (Array.replicate 258 0)
  let lens := codeLengths counts.toList
  let bits := (counts.toList.zip lens).foldl (fun n p => n + p.1 * p.2) 0 +
    toks.flatten.foldl (fun n t => n + tokExtra t) 0
  (modes, toks, lens, 192 + (bits + 7) / 8)

/-- Running bit offsets of the slice streams. -/
def sliceOffs : Nat → List (List Bool) → List Nat
  | _, [] => []
  | o, s :: r => o :: sliceOffs (o + s.length) r

/-- Pack code lengths two to a byte (R216). -/
def packLens : List Nat → Bytes
  | a :: b :: r => BitVec.ofNat 8 (a + 16 * b) :: packLens r
  | _ => []

/-- SQUEEZE within a budget in bytes (R223): the crumbs' bytes and the crumb count, or nothing when over budget. -/
def squeeze (chunk : Bytes) (budget : Nat) : Option (Bytes × Nat) :=
  let (modes, toks, lens, bytes) := squeezePlan chunk
  if bytes > budget then none
  else
    let n := (bytes + 255) / 256
    let codes := codeWords lens
    let streams := toks.map fun ts => ts.flatMap (tokBits codes)
    let hdr := leBytes 1 1 ++ leBytes 1 n ++ leBytes 2 bytes ++
      leBytes 24 (modes.zipIdx.foldl (fun v p => v + p.1 * 8 ^ p.2) 0) ++ packLens lens ++ zeros 3 ++
      (sliceOffs 0 streams).flatMap (leBytes 4)
    let body := hdr ++ packBits 16384 streams.flatten
    some (body ++ zeros (256 * n - body.length), n)

/-- Read one symbol: `n` lengths left to try, at length `l` (R226, READ_SYMBOL). -/
def readSymbol (counts : List Nat) (sorted : Array Nat) :
    Nat → Nat → Nat → Nat → Nat → List Bool → Option (Nat × List Bool)
  | 0, _, _, _, _, _ => none
  | _ + 1, _, _, _, _, [] => none
  | n + 1, l, code, first, index, b :: r =>
    let code := code + b2n b
    let c := counts.getD l 0
    if code < first + c then some (sorted.getD (index + code - first) 0, r)
    else readSymbol counts sorted n (l + 1) (code * 2) ((first + c) * 2) (index + c) r

/-- Read a field of `w` bits, least significant first. -/
def readField (w : Nat) (bs : List Bool) : Option (Nat × List Bool) :=
  if bs.length < w then none else some (bitsNat (bs.take w), bs.drop w)

/-- Emit one residue into a slice (R226, EMIT). -/
def emitRes (modes : List Nat) (k : Nat) (s : SliceSt) (r : Byte) : SliceSt :=
  slicePush s (rebuild s (modes.getD (8 * k + s.i / 256) 0) r)

/-- Emit `n` zero residues. -/
def emitZeros (modes : List Nat) (k : Nat) : Nat → SliceSt → SliceSt
  | 0, s => s
  | n + 1, s => emitZeros modes k n (emitRes modes k s 0#8)

/-- Decode a slice's symbols (R226, DECODE_SLICE): the slice and the bits left after END. -/
def decodeSlice (modes counts : List Nat) (sorted : Array Nat) (k : Nat) :
    Nat → SliceSt → List Bool → Option (SliceSt × List Bool)
  | 0, _, _ => none
  | n + 1, s, bs =>
    match readSymbol counts sorted 12 1 0 0 0 bs with
    | none => none
    | some (sym, bs) =>
      if sym = 257 then (if s.i = 2048 then some (s, bs) else none)
      else if s.i = 2048 then none
      else if sym = 256 then
        match readField 4 bs with
        | none => none
        | some (e, bs) =>
          if e < 1 ∨ e > 11 then none
          else match readField e bs with
            | none => none
            | some (v, bs) =>
              if s.i + 2 ^ e + v > 2048 then none
              else decodeSlice modes counts sorted k n (emitZeros modes k (2 ^ e + v) s) bs
      else decodeSlice modes counts sorted k n (emitRes modes k s (BitVec.ofNat 8 sym)) bs

/-- Decode slice `k` between two bit offsets; `none` under D7 to D9 (R226). -/
def decodeAt (modes counts : List Nat) (sorted : Array Nat) (bits : List Bool) (k start nextOff endbit : Nat) :
    Option Bytes :=
  let lim := if k < 7 then Nat.min nextOff endbit else endbit
  match decodeSlice modes counts sorted k 2050 sliceStart ((bits.take lim).drop start) with
  | none => none
  | some (s, rest) =>
    let pos := Nat.max lim start - rest.length
    if k < 7 ∧ pos ≠ nextOff then none
    else if k = 7 ∧ pos + 7 < lim then none
    else some s.rev.reverse

/-- The code lengths of a compressed chunk's header (R216). -/
def headerLens (b : Bytes) : List Nat :=
  (List.range 258).map fun s => ((slice b 28 129).getD (s / 2) 0#8).toNat / 16 ^ (s % 2) % 16

/-- UNSQUEEZE (R226): the chunk, or nothing where the input is invalid. `n` is the ARGS crumb count. -/
def unsqueeze (b : Bytes) (n : Nat) : Option Bytes :=
  let bytes := fieldAt b 2 2
  let modes := (List.range 64).map fun x => bitsAt (fieldAt b 4 24) (3 * x) 3
  let lens := headerLens b
  let offs := (List.range 8).map fun k => bitsAt (fieldAt b (160 + 4 * k) 4) 0 17
  if b.length ≠ 256 * n ∨ fieldAt b 1 1 ≠ n ∨ n < 1 ∨ n > 60 then none
  else if fieldAt b 0 1 ≠ 1 then none
  else if bytes < 193 ∨ bytes > 256 * n ∨ bytes ≤ 256 * (n - 1) then none
  else if modes.any (fun m => decide (m ≥ 6)) then none
  else if lens.any (fun l => decide (l > 12)) ∨ lens.getD 257 0 = 0 then none
  else if lens.foldl (fun s l => if l = 0 then s else s + 2 ^ (12 - l)) 0 ≠ 4096 then none
  else if offs.getD 0 0 ≠ 0 then none
  else
    let counts := (List.range 13).map fun l => if l = 0 then 0 else (lens.filter (· == l)).length
    let sorted := ((List.range 12).flatMap fun l =>
      (lens.zipIdx.filter fun p => p.1 == l + 1).map (·.2)).toArray
    let bits := unpackBits (b.drop 192)
    let endbit := 8 * (bytes - 192)
    let parts := (List.range 8).map fun k =>
      decodeAt modes counts sorted bits k (offs.getD k 0) (offs.getD (k + 1) 0) endbit
    if parts.all Option.isSome then some (parts.flatMap fun p => p.getD []) else none

end Sys2Proof.Machine
end

