-- ==== Sys2Proof/Machine/Personality.lean ====
section
/-! DEFINITION. Tickets, completions and what each personality computes (R91 to R97, R176, R223, R226, R143, R452). The output of a
ticket depends only on the ticket, its input bytes and its keys (R89). -/

namespace Sys2Proof.Machine

/-- Completion statuses (R97). -/
def tkOk : Nat := 0
/-- OVER_BUDGET. -/
def tkOverBudget : Nat := 1
/-- STALE. -/
def tkStale : Nat := 2
/-- CRC_FAIL. -/
def tkCrcFail : Nat := 3
/-- COMPARE_FAIL. -/
def tkCompareFail : Nat := 4
/-- INPUT_INVALID. -/
def tkInvalid : Nat := 5

/-- Personality codes (R52). -/
def pChunker : Nat := 1
/-- DIGEST. -/
def pDigest : Nat := 2
/-- SQUEEZE. -/
def pSqueeze : Nat := 3
/-- UNSQUEEZE. -/
def pUnsqueeze : Nat := 4
/-- SEAL. -/
def pSeal : Nat := 5
/-- UNSEAL. -/
def pUnseal : Nat := 6
/-- MAPWALK. -/
def pMapwalk : Nat := 7
/-- PLACE. -/
def pPlace : Nat := 8
/-- MOVER. -/
def pMover : Nat := 9
/-- STREAMSEAL. -/
def pStreamSeal : Nat := 10

/-- Control-class personalities (R52). -/
def isControl (pers : Nat) : Bool := pers == pMapwalk || pers == pPlace

/-- Bytes 0 to 59 of a ticket (R94). -/
def ticketBody (t : Ticket) : Bytes :=
  leBytes 1 t.pers ++ leBytes 1 t.plane ++ leBytes 1 t.issuer ++ leBytes 1 t.flags ++ leBytes 4 t.seq ++
    leBytes 2 t.inst ++ leBytes 2 t.instGen ++ leBytes 4 t.job ++ leBytes 8 t.inAddr ++ leBytes 8 t.outAddr ++
    leBytes 4 t.inLen ++ leBytes 4 t.outLimit ++ leBytes 16 t.args ++ leBytes 4 t.issueNs

/-- The CRC a ticket must carry (R94). -/
def ticketCrc (t : Ticket) : Nat := crcNat (ticketBody t)

/-- The ticket with its CRC. -/
def sealTicket (t : Ticket) : Ticket := { t with crc := ticketCrc t }

/-- The ticket's CRC is right (R96). -/
def ticketOk (t : Ticket) : Bool := t.crc == ticketCrc t

/-- The 32 bytes of a completion (R97). -/
def completionBytes (c : Completion) : Bytes :=
  let b := leBytes 4 c.seq ++ leBytes 4 c.job ++ leBytes 2 c.inst ++ leBytes 2 c.instGen ++ leBytes 1 c.status ++
    leBytes 1 c.tray ++ leBytes 1 c.roll ++ zeros 1 ++ leBytes 4 c.outLen ++ leBytes 8 c.result
  b ++ leBytes 4 (crcNat b)

/-- ARGS bytes 0 to 7, 8 to 11 and 12 to 15 (R95). -/
def argsA (t : Ticket) : Nat := t.args % 2 ^ 64
/-- ARGS bytes 8 to 11. -/
def argsB (t : Ticket) : Nat := t.args / 2 ^ 64 % 2 ^ 32
/-- ARGS bytes 12 to 15. -/
def argsC (t : Ticket) : Nat := t.args / 2 ^ 96 % 2 ^ 32

/-- The three parts of ARGS as one number (R95). -/
def mkArgs (a b c : Nat) : Nat := a % 2 ^ 64 + b % 2 ^ 32 * 2 ^ 64 + c % 2 ^ 32 * 2 ^ 96

/-- What a ticket's run gives: status, output, RESULT. -/
structure PersOut where
  status : Nat
  out : Bytes
  result : Nat
  deriving DecidableEq, Repr

/-- A run that ends INPUT_INVALID. -/
def persInvalid : PersOut := ⟨tkInvalid, [], 0⟩

/-- CHUNKER's partial chunks of a ticket: whether the first chunk and the last one are (R133). -/
def chunkerParts (off n inLen : Nat) : Bool × Bool :=
  let last := (off + inLen) % chunkBytes ≠ 0
  if n = 1 then (decide (off ≠ 0) || decide last, false) else (decide (off ≠ 0), decide last)

/-- CHUNKER (R91, R133): new data laid over the before-images, which follow it in chunk order; whole chunks come out. -/
def runChunker (t : Ticket) (inp : Bytes) : PersOut :=
  let off := argsB t
  let n := argsC t
  let ps := chunkerParts off n t.inLen
  let images := b2n ps.1 + b2n ps.2
  let newLen := t.inLen - images * chunkBytes
  if n < 1 ∨ n > 4 ∨ off ≥ chunkBytes ∨ t.inLen > 131072 ∨ t.inLen ≤ images * chunkBytes ∨
      (off + newLen + chunkBytes - 1) / chunkBytes ≠ n ∨ t.outLimit < n * chunkBytes then persInvalid
  else
    let imgA := if ps.1 then slice inp newLen chunkBytes else zeros chunkBytes
    let imgB := if ps.2 then slice inp (newLen + b2n ps.1 * chunkBytes) chunkBytes else zeros chunkBytes
    let base := imgA ++ zeros ((n - 2) * chunkBytes) ++ (if n > 1 then imgB else [])
    ⟨tkOk, overlay base off (slice inp 0 newLen), 0⟩

/-- DIGEST (R176). -/
def runDigest (d : Dev) (t : Ticket) (inp : Bytes) : PersOut :=
  if t.inLen ≠ chunkBytes ∨ t.outLimit < 32 then persInvalid
  else match ctxKey d (argsB t) with
    | some k => if argsB t % 16 = 2 then ⟨tkOk, fingerprint k inp, 0⟩ else persInvalid
    | none => persInvalid

/-- SQUEEZE (R223, R224). -/
def runSqueeze (t : Ticket) (inp : Bytes) : PersOut :=
  if t.inLen ≠ chunkBytes ∨ t.outLimit % 256 ≠ 0 ∨ t.outLimit < 256 ∨ t.outLimit > 15360 then persInvalid
  else match squeeze inp t.outLimit with
    | some (b, n) => ⟨tkOk, b, n⟩
    | none => ⟨tkOverBudget, [], 0⟩

/-- UNSQUEEZE (R226). -/
def runUnsqueeze (t : Ticket) (inp : Bytes) : PersOut :=
  if t.outLimit < chunkBytes then persInvalid
  else match unsqueeze inp (argsB t) with
    | some b => ⟨tkOk, b, 0⟩
    | none => persInvalid

/-- SEAL and UNSEAL (R143): one XTS data unit, tweaked with the content handle. -/
def runSeal (d : Dev) (t : Ticket) (inp : Bytes) : PersOut :=
  if t.inLen = 0 ∨ t.inLen % 256 ≠ 0 ∨ t.inLen > chunkBytes ∨ t.outLimit < t.inLen then persInvalid
  else match ctxKey d (argsB t) with
    | some k =>
      if argsB t % 16 ≠ 1 then persInvalid
      else ⟨tkOk, (if t.pers = pSeal then xtsEnc k (handleTweak (argsA t)) inp
        else xtsDec k (handleTweak (argsA t)) inp), 0⟩
    | none => persInvalid

/-- STREAMSEAL (R452, R454): header, body and, when opening, tag; the nonce is STREAM_ID and FRAME_SEQ of the header. The key context's stream
unit gives the direction: a receiver opens, and a result of 1 says that the tag does not verify. -/
def runStreamSeal (d : Dev) (t : Ticket) (inp : Bytes) : PersOut :=
  if t.inLen < 64 + 256 ∨ t.inLen > 65536 ∨ t.outLimit < t.inLen + 16 then persInvalid
  else match ctxKey d (argsB t) with
    | some k =>
      let iv := slice inp 8 4 ++ slice inp 16 8
      let head := slice inp 0 64
      let r := gcmSeal k iv head (inp.drop 64)
      if argsB t % 16 ≠ 8 then persInvalid
      else if d.getF (R.SNP_S_CFG_ROLE (bitsAt (argsB t) 4 6)) = 0 then ⟨tkOk, head ++ r.1 ++ r.2, 0⟩
      else
        let n := t.inLen - 80
        let body := slice inp 64 n
        let plain := gcmCtr (aesKeys k) iv body
        ⟨tkOk, head ++ plain, b2n (gcmOpen k iv head body (slice inp (64 + n) 16)).isNone⟩
    | none => persInvalid

/-- The control personalities and MOVER: their issuer writes the records or crumbs they are to emit as their input, and they
emit them (the element-level formats are opaque, R91; DESIGN CHOICE, log entry 8). -/
def runCopy (t : Ticket) (inp : Bytes) (maxIn maxOut : Nat) : PersOut :=
  if t.inLen > maxIn ∨ inp.length > maxOut ∨ inp.length > t.outLimit then persInvalid else ⟨tkOk, inp, 0⟩

/-- What a personality computes from its input bytes. -/
def runPersonality (d : Dev) (t : Ticket) (inp : Bytes) : PersOut :=
  if t.pers = pChunker then runChunker t inp
  else if t.pers = pDigest then runDigest d t inp
  else if t.pers = pSqueeze then runSqueeze t inp
  else if t.pers = pUnsqueeze then runUnsqueeze t inp
  else if t.pers = pSeal ∨ t.pers = pUnseal then runSeal d t inp
  else if t.pers = pMapwalk then runCopy t inp 32768 512
  else if t.pers = pPlace then runCopy t inp 4096 512
  else if t.pers = pMover then runCopy t inp chunkBytes chunkBytes
  else if t.pers = pStreamSeal then runStreamSeal d t inp
  else persInvalid

/-- Whether a run leaves the bytes at OUT_ADDR undefined up to OUT_LIMIT (R223, R226). -/
def persUndefined (p : PersOut) : Bool := p.status == tkOverBudget || p.status == tkInvalid

end Sys2Proof.Machine
end

