-- ==== Sys2Proof/Machine/TrayOps.lean ====
section
/-! DEFINITION. Rings, groups, issuers and faults: the operations under the tray commands (R96 to R118, R605). -/

namespace Sys2Proof.Machine

/-- A tray with an empty ring. -/
def trayFresh : TrayX := ⟨[], 0, false, 0, [], none, false, 0, false, false⟩
/-- A roll with nothing recorded. -/
def rollFresh : RollX := ⟨0, false, 0, []⟩

/-- A tray beside its registers. -/
def Dev.trayX (d : Dev) (t : Nat) : TrayX := tabGet trayFresh d.tray.trays t
/-- Change a tray. -/
def Dev.modTray (d : Dev) (t : Nat) (f : TrayX → TrayX) : Dev :=
  { d with tray := { d.tray with trays := tabPut d.tray.trays t (f (d.trayX t)) } }
/-- A roll beside its registers. -/
def Dev.rollX (d : Dev) (t r : Nat) : RollX := tabGet rollFresh d.tray.rolls (t * 16 + r)
/-- Change a roll. -/
def Dev.modRoll (d : Dev) (t r : Nat) (f : RollX → RollX) : Dev :=
  { d with tray := { d.tray with rolls := tabPut d.tray.rolls (t * 16 + r) (f (d.rollX t r)) } }

/-- Power state of a tray (R110): 0 Cold, 1 Proof, 2 Bake, 3 Fenced. -/
def Dev.power (d : Dev) (t : Nat) : Nat := d.getF (R.TRY_TC_STATE_POWER t)
/-- Plane of a tray. -/
def Dev.plane (d : Dev) (t : Nat) : Nat := d.getF (R.TRY_TC_STATE_PLANE t)
/-- Personality of a tray. -/
def Dev.pers (d : Dev) (t : Nat) : Nat := d.getF (R.TRY_TC_STATE_PERS t)
/-- The tray is draining. -/
def Dev.draining (d : Dev) (t : Nat) : Bool := d.getB (R.TRY_TC_STATE_DRAIN t)
/-- The tray is going Cold. -/
def Dev.goingCold (d : Dev) (t : Nat) : Bool := d.getB (R.TRY_TC_STATE_GOING_COLD t)
/-- State of a roll (`TRY_ROLL_STATE.STATE`): 0 idle, 1 data ticket, 2 twin holder, 3 twin partner, 4 testing, 5 reloading,
6 fenced, 7 Cold. -/
def Dev.rollState (d : Dev) (t r : Nat) : Nat := d.getF (R.TRY_ROLL_STATE_STATE t r)
/-- A roll can take work: usable and idle, and not waited for by a test (R115). -/
def rollFree (d : Dev) (t r : Nat) : Bool :=
  bitAt (d.getF (R.TRY_TC_ROLLS_USABLE t)) r && d.rollState t r == 0 &&
    !(d.tray.test.phase == 1 && d.tray.test.roll == t * 16 + r)

/-- Mark a roll usable or out (`TRY_TC_ROLLS`) and set its state. -/
def setRoll (t r st : Nat) (d : Dev) : Dev :=
  let out := decide (st = 4 ∨ st = 5 ∨ st = 6)
  let d1 := d.setF (R.TRY_ROLL_STATE_STATE t r) st
  (d1.setF ⟨R.TRY_TC_ROLLS t, r, 1⟩ (b2n (!out))).setF ⟨R.TRY_TC_ROLLS t, 16 + r, 1⟩ (b2n out)

/-- The slot is waiting to run: unstarted or in retry state. -/
def slotWaiting (s : Slot) : Bool := s.st == .unstarted || s.st == .retry

/-- Tickets waiting in a tray's ring. -/
def waitingCount (d : Dev) (t : Nat) : Nat := ((d.trayX t).ring.filter slotWaiting).length

/-- Rolls of a tray running a ticket or lent to a twin. -/
def busyCount (d : Dev) (t : Nat) : Nat :=
  ((List.range 16).filter fun r => d.rollState t r ≥ 1 && d.rollState t r ≤ 3).length

/-- Bring `TRY_TC_DEPTH` up to date. -/
def syncDepth (t : Nat) (d : Dev) : Dev :=
  (d.setF (R.TRY_TC_DEPTH_UNSTARTED t) (waitingCount d t)).setF (R.TRY_TC_DEPTH_RUNNING t) (busyCount d t)

/-- Trays that carry a personality in a plane and are not fenced (R101). -/
def groupTrays (d : Dev) (plane pers : Nat) : List Nat :=
  (List.range trayCount).filter fun t => d.plane t == plane && d.pers t == pers && d.power t != 3

/-- Trays of a group at Bake. -/
def bakeTrays (d : Dev) (plane pers : Nat) : List Nat := (groupTrays d plane pers).filter fun t => d.power t == 2

/-- A group is open while two of its trays are at Bake, or its only tray is (R111, R112). -/
def groupOpen (d : Dev) (plane pers : Nat) : Bool :=
  decide ((bakeTrays d plane pers).length ≥ 2) ||
    (decide ((groupTrays d plane pers).length = 1) && decide ((bakeTrays d plane pers).length = 1))

/-- Siblings of a tray: the other trays of its group at Bake and not fenced. -/
def siblings (d : Dev) (t : Nat) : List Nat :=
  (bakeTrays d (d.plane t) (d.pers t)).filter fun v => v != t

/-- Ring order from a tray: t + 1, t + 2, … round to t + 23 (R103). -/
def ringOrder (t : Nat) : List Nat := (List.range 23).map fun k => (t + k + 1) % trayCount

/-- Trays an issuer may route to: at Bake, not draining, not going Cold (R101). -/
def routable (d : Dev) (plane pers : Nat) : List Nat :=
  (bakeTrays d plane pers).filter fun t => !d.draining t && !d.goingCold t

/-- The ring of a tray has a free slot (R100). -/
def ringRoom (d : Dev) (t : Nat) : Bool := decide ((d.trayX t).ring.length < 1024)

/-- The first of the trays with the fewest waiting tickets among those with room (R101). -/
def pickTray (d : Dev) (plane pers : Nat) : Option Nat :=
  ((routable d plane pers).filter (ringRoom d)).foldl (fun b t =>
    match b with
    | none => some t
    | some x => if waitingCount d t < waitingCount d x then some t else some x) none

/-- Give a tray a power state (R110): `TRY_BAKE` and `TRY_FENCED` follow it, and the time at Bake ends up in `TRY_TC_BAKE_NS`. -/
def setPower (t p : Nat) (d : Dev) : Dev :=
  let spent := if d.power t = 2 then d.now - (d.trayX t).bakeSince else 0
  let d1 := ((d.setF (R.TRY_TC_STATE_POWER t) p).setF ⟨R.TRY_BAKE, t, 1⟩ (b2n (p == 2))).setF
    ⟨R.TRY_FENCED, t, 1⟩ (b2n (p == 3))
  let d2 := (d1.stat (R.TRY_TC_BAKE_NS t) spent).setB (R.TRY_TC_STATE_GOING_COLD t) false
  d2.modTray t fun x => { x with bakeSince := d.now }

/-- Show rolls that hold nothing else as Cold, or as idle again (`TRY_ROLL_STATE.STATE` 7 and 0). -/
def markRolls (t old new : Nat) (d : Dev) : Dev :=
  forEach ((List.range 16).filter fun r => d.rollState t r == old) (fun r d => d.setF (R.TRY_ROLL_STATE_STATE t r) new) d

/-- Start waking a Cold tray: its PLL starts (R110). -/
def wakeTray (t : Nat) (d : Dev) : Dev :=
  if d.power t = 0 then (setPower t 1 d).modTray t fun x => { x with pll := false }
  else if d.power t = 2 ∧ d.goingCold t then d.setB (R.TRY_TC_STATE_GOING_COLD t) false
  else d

/-- Wake trays of a closed group, lowest first, until two are at Bake or on their way (R111). -/
def openGroup (plane pers : Nat) (d : Dev) : Dev :=
  let on := ((groupTrays d plane pers).filter fun t => (d.power t == 1 || d.power t == 2) && !d.goingCold t).length
  let cold := (groupTrays d plane pers).filter fun t => d.power t == 0 || d.goingCold t
  forEach (cold.take (2 - on)) wakeTray d

/-- Send a completion to a ticket's issuer, counted with the ring it is sent from (R97). -/
def sendCpl (t r status : Nat) (tk : Ticket) (outLen result : Nat) (d0 : Dev) : Dev :=
  let d := d0.stat (R.TRY_TC_DONE t) 1
  { d with tray := { d.tray with cpls := d.tray.cpls ++
      [⟨tk.issuer, tk.seq, tk.job, tk.inst, tk.instGen, status, t, r, outLen, result⟩] } }

/-- Whether an outstanding ticket is the issuer's SEQ. -/
def isOut (issuer seq : Nat) (o : Outst) : Bool := o.tk.issuer == issuer && o.tk.seq == seq

/-- The outstanding entry of an issuer's SEQ (R98). -/
def Dev.outst (d : Dev) (issuer seq : Nat) : Option Outst := d.tray.outst.find? (isOut issuer seq)

/-- Change outstanding entries. -/
def Dev.modOut (d : Dev) (issuer seq : Nat) (f : Outst → Outst) : Dev :=
  { d with tray := { d.tray with outst := mapWhere (isOut issuer seq) f d.tray.outst } }

/-- Fence a tray: its network port closes (R110, R116). -/
def closePort (t : Nat) (d : Dev) : Dev := setPower t 3 d

/-- The roll's ticket state entry for a slot that runs on a roll. -/
def runsOn (r : Nat) (s : Slot) : Bool :=
  match s.st with
  | .running q _ _ => q == r
  | _ => false

/-- The partner roll of a running slot. -/
def partnerOf (s : Slot) : Option Nat :=
  match s.st with
  | .running _ p _ => p
  | _ => none

/-- Free a roll that ran or was lent: idle, unless it has been fenced or is under test meanwhile. -/
def freeRoll (t r : Nat) (d : Dev) : Dev :=
  if 1 ≤ d.rollState t r ∧ d.rollState t r ≤ 3 then
    syncDepth t ((setRoll t r 0 d).modRoll t r fun x => { x with sigs := [] })
  else d

/-- Free a roll by its number tray × 16 + roll. -/
def freeRollN (n : Option Nat) (d : Dev) : Dev :=
  match n with
  | none => d
  | some x => freeRoll (x / 16) (x % 16) d

/-- Change one slot of a tray's ring. -/
def modSlot (t : Nat) (s : Slot) (f : Slot → Slot) (d : Dev) : Dev :=
  d.modTray t fun x => { x with ring := mapWhere (· == s) f x.ring }

/-- Take one slot out of a tray's ring. -/
def dropSlot (t : Nat) (s : Slot) (d : Dev) : Dev :=
  d.modTray t fun x => { x with ring := x.ring.filter (· != s) }

/-- Put a running slot back to retry state, releasing both rolls of a twin, without using an attempt (R109, R116). -/
def retrySlot (t : Nat) (s : Slot) (d : Dev) : Dev :=
  let d1 := freeRollN (partnerOf s) d
  syncDepth t (modSlot t s (fun s => { s with st := .retry }) d1)

/-- Every slot that holds a roll as its twin partner. -/
def lentSlots (d : Dev) (n : Nat) : List (Nat × Slot) :=
  (List.range trayCount).flatMap fun t => ((d.trayX t).ring.filter fun s => partnerOf s == some n).map fun s => (t, s)

/-- Take a roll out of the tickets it works on: its own data ticket or twin goes back to retry state (R116, R109). -/
def dropRollWork (t r : Nat) (d : Dev) : Dev :=
  let own := (d.trayX t).ring.filter (runsOn r)
  let d1 := forEach own (retrySlot t) d
  forEach (lentSlots d1 (t * 16 + r)) (fun e d =>
    match e.2.st with
    | .running q _ _ => freeRoll e.1 q (retrySlot e.1 e.2 d)
    | _ => d) d1

/-- Ask for a test of a fenced roll (R114): it takes the next turn. -/
def queueTest (t r : Nat) (d : Dev) : Dev :=
  { d with tray := { d.tray with test := { d.tray.test with waiting := d.tray.test.waiting ++ [t * 16 + r] } } }

/-- A test takes its turn: the roll is waited for, a Cold tray is woken (R115). -/
def beginTest (t r : Nat) (host : Bool) (d : Dev) : Dev :=
  let d1 := { d with tray := { d.tray with test := { d.tray.test with phase := 1, roll := t * 16 + r, host := host } } }
  let d2 := ((d1.setF R.TRY_TEST_STATUS_STATE 1).setF R.TRY_TEST_STATUS_TRAY t).setF R.TRY_TEST_STATUS_ROLL r
  if d2.power t = 0 then wakeTray t d2 else d2

/-- The fenced roll whose test is due (R114); one of a tray that is fenced, faulted or draining waits until it serves again. -/
def testDue (d : Dev) : Option Nat :=
  d.tray.test.waiting.find? fun n =>
    let t := n / 16
    d.power t != 3 && !(d.trayX t).fencing && !d.draining t

/-- The next fenced roll that waits for its test takes its turn (R114). -/
def nextTest (d : Dev) : Dev :=
  if d.tray.test.phase ≠ 0 then d
  else match testDue d with
    | none => d
    | some n => beginTest (n / 16) (n % 16) false
        { d with tray := { d.tray with test := { d.tray.test with waiting := d.tray.test.waiting.filter (· != n) } } }

/-- Fence a roll (R107, R115, R116): count it, and test it unless this is its third fence since the start, which is permanent. -/
def fenceRoll (t r : Nat) (d : Dev) : Dev :=
  let d1 := (setRoll t r 6 (dropRollWork t r d)).err R.E_TRY_ROLL_FENCES
  let n := (d1.rollX t r).fences + 1
  let d2 := d1.modRoll t r fun x => { x with fences := n }
  syncDepth t (if n ≥ 3 then d2.setB (R.TRY_ROLL_STATE_PERM t r) true else queueTest t r d2)

/-- A roll faults (R116): `why` 1 watchdog, 2 parity. -/
def rollFault (t r why : Nat) (d : Dev) : Dev :=
  (fenceRoll t r d).postAt 0x0802 (sa 8 t r 0) [t, r, why]

/-- A test of a roll of this tray ends with result NONE, as the tray drains for a rebake or faults (R115). -/
def endTestOn (t : Nat) (d : Dev) : Dev :=
  if d.tray.test.phase ≠ 0 ∧ d.tray.test.roll / 16 = t then
    let d1 := { d with tray := { d.tray with test := { d.tray.test with phase := 0, host := false } } }
    nextTest ((d1.setF R.TRY_TEST_STATUS_STATE 0).setF R.TRY_TEST_STATUS_RESULT 0)
  else d

/-- A tray faults (R116): its port closes, the fence waits for the other controllers, and a restart is wanted unless the same
tray faulted within the last second (R118). Its twins' other rolls are freed with the tickets. -/
def trayFault (t : Nat) (d : Dev) : Dev :=
  if (d.trayX t).fencing then d
  else
    let again := match (d.trayX t).lastFault with
      | some x => decide (d.now - x < 1000000000)
      | none => false
    let d0 := endTestOn t (d.modTray t fun x => { x with fencing := true })
    let d1 := ((closePort t d0).err R.E_TRY_TRAY_FAULTS).postAt 0x0804 (sa 8 t 16 0) [t]
    let d2 := forEach (List.range 16) (fun r d => dropRollWork t r d) d1
    d2.modTray t fun x => { x with
      fencing := true, lastFault := some d.now, restart := !again, stuck := again, missed := 0 }

/-- A ring CRC failure (R96): completion CRC_FAIL, count, event; the third within 1 ms faults the tray (R116). -/
def crcFailure (t : Nat) (tk : Ticket) (d : Dev) : Dev :=
  let d1 := ((sendCpl t 0 tkCrcFail tk 0 0 d).err (R.E_TRY_TC_CRC_ERR t)).postAt 0x0801 (sa 8 t 16 0) [tk.issuer, tk.seq]
  let times := d.now :: (d1.trayX t).crcTimes.filter fun x => decide (d.now - x < 1000000)
  let d2 := d1.modTray t fun x => { x with crcTimes := times }
  if times.length ≥ 3 then trayFault t d2 else d2

/-- A ticket enters a ring as a new slot, its CRC checked (R96). -/
def enterRing (t : Nat) (s : Slot) (d : Dev) : Dev :=
  if ticketOk s.tk then
    syncDepth t ((d.modTray t fun x => { x with ring := x.ring ++ [s] }).modOut s.tk.issuer s.tk.seq
      fun o => { o with tray := some t })
  else crcFailure t s.tk d

/-- Keep a ticket with its issuer until a ring of its group frees a slot or the group opens (R101, R111). -/
def holdTicket (tk : Ticket) (d : Dev) : Dev :=
  if d.tray.offers.contains tk then d else { d with tray := { d.tray with offers := d.tray.offers ++ [tk] } }

/-- Offer a ticket to a tray of its group (R101). A steward that drains its own region issues none (R77). -/
def offerTicket (tk : Ticket) (d : Dev) : Dev :=
  let d0 := if (d.outst tk.issuer tk.seq).isSome then d
    else { d with tray := { d.tray with outst := d.tray.outst ++ [⟨tk, none, false, false, .ext⟩] } }
  if stewardHeld d0 tk.issuer then holdTicket tk d0
  else if !groupOpen d0 tk.plane tk.pers then holdTicket tk (openGroup tk.plane tk.pers d0)
  else match pickTray d0 tk.plane tk.pers with
    | none => holdTicket tk d0
    | some t =>
      let re := match d0.outst tk.issuer tk.seq with
        | some o => o.reissued
        | none => false
      enterRing t ⟨tk, .unstarted, false, re, 0, []⟩
        { d0 with tray := { d0.tray with offers := d0.tray.offers.filter fun x => x != tk } }

/-- Steward numbers of issuers (R14). -/
def iCmd : Nat := 0x0C
/-- The Map and cache steward. -/
def iMap : Nat := 0x10
/-- The Pantry steward. -/
def iPan : Nat := 0x11
/-- The Media steward. -/
def iMed : Nat := 0x12
/-- The Snapshots steward. -/
def iSnp : Nat := 0x13

/-- Largest buffer a ticket's input or output takes, the distance between the buffers that issuers use (log entry 8). -/
def bufBytes : Nat := 131072

/-- Issue a ticket: the next SEQ of the issuer, input placed in a DRAM buffer of its own and output in the next one, and the
ticket waiting to be offered (R93, R94, R98). Buffer addresses are the model's choice (log entry 8). -/
def issueTicket (issuer plane pers : Nat) (inst : Option (Nat × Nat)) (job : Nat) (inp : Bytes) (outLimit args : Nat)
    (work : TkWork) (d : Dev) : Dev :=
  let seq := tabGet 0 d.tray.seqs issuer
  let inAddr := d.tray.buf % 65536 * 4 * bufBytes
  let tk := sealTicket
    { pers := pers, plane := plane, issuer := issuer, flags := b2n (isControl pers) + 2 * b2n inst.isSome, seq := seq,
      inst := (inst.getD (0, 0)).1, instGen := (inst.getD (0, 0)).2, job := job, inAddr := inAddr,
      outAddr := inAddr + 2 * bufBytes, inLen := inp.length, outLimit := outLimit, args := args,
      issueNs := d.now % 2 ^ 32, crc := 0 }
  let d1 := d.memStore inAddr inp
  { d1 with tray := { d1.tray with
      seqs := tabPut d1.tray.seqs issuer ((seq + 1) % 2 ^ 32)
      buf := d1.tray.buf + 1
      offers := d1.tray.offers ++ [tk]
      outst := d1.tray.outst ++ [⟨tk, none, false, false, work⟩] } }

/-- Issue an outstanding ticket again with the same SEQ (R96, R116); `fault` puts it at the head of dispatch (R102). -/
def reissueTicket (o : Outst) (fault : Bool) (d : Dev) : Dev :=
  holdTicket o.tk (d.modOut o.tk.issuer o.tk.seq fun x => { x with
    tray := none, crcReissued := x.crcReissued || !fault, reissued := x.reissued || fault })

/-- An instance's current generation (R424). -/
def Dev.instGen (d : Dev) (i : Nat) : Nat := d.getF (R.INS_I_STATE_GEN i)

/-- A ticket of a generation that is no longer its instance's (R99). -/
def ticketStale (d : Dev) (tk : Ticket) : Bool :=
  bitAt tk.flags 1 && tk.instGen != d.instGen tk.inst

/-- The compare faults of the last second, the newest first (R108). -/
def cmpWindow (d : Dev) : List Nat := d.tray.cmpTimes.filter fun x => decide (d.now - x < 1000000000)

/-- A compare fault is recorded against one roll; a second within 1 s fences it (R107). -/
def rollMismatch (t r : Nat) (d : Dev) : Dev :=
  let last := d.rd (R.TRY_ROLL_LAST_MM t r)
  let again := (d.rollX t r).mmValid && decide (d.now - last < 1000000000)
  let d1 := ((d.err (R.E_TRY_ROLL_MISMATCH t r)).wr (R.TRY_ROLL_LAST_MM t r) d.now).modRoll t r
    fun x => { x with mmValid := true }
  if again then fenceRoll t r d1 else d1

/-- A twin mismatch (R106 to R108): both outputs are discarded, both rolls excluded, and the ticket retries; the third attempt
ends COMPARE_FAIL. The 17th compare fault within 1 s fails the head. -/
def twinMismatch (t : Nat) (s : Slot) (d : Dev) : Dev :=
  match s.st with
  | .running r (some p) _ =>
    let ex := s.excluded ++ [t * 16 + r, p]
    let d1 := freeRollN (some p) (freeRoll t r d)
    let d2 := if s.attempts + 1 ≥ 3 then
        sendCpl t r tkCompareFail s.tk 0 0 (dropSlot t s d1)
      else modSlot t s (fun s => { s with st := .retry, attempts := s.attempts + 1, excluded := ex }) d1
    let d3 := ((syncDepth t d2).err (R.E_TRY_TC_MISMATCH t)).err R.E_TRY_CMP_FAULTS
    let d4 := nextTest (rollMismatch (p / 16) (p % 16) (rollMismatch t r d3))
    let times := d.now :: cmpWindow d
    let d5 := { d4 with tray := { d4.tray with cmpTimes := times } }.setF R.TRY_CMP_WIN_LEVEL (Nat.min times.length 17)
    if times.length = 17 then headFail 1 d5 else d5
  | _ => d

end Sys2Proof.Machine
end

