-- ==== Sys2Proof/Machine/Struct.lean ====
section
/-! DEFINITION. The structure table: its bytes from the running structure, and the switch to a new one (R68, R69, R522 to R529). -/

namespace Sys2Proof.Machine

/-- Key of a region (R49). -/
def regionKey (type unit : Nat) : Nat := type * 65536 + unit

/-- The record in force in a region. -/
def Dev.region (d : Dev) (type unit : Nat) : Bytes := tabGet [] d.img.loaded (regionKey type unit)

/-- The INSTANCE_LIMITS fields in the order of R56: offset and size in the record. -/
def limitPlaces : List (Nat × Nat) := [(16, 2), (20, 4), (24, 4), (28, 2), (32, 4), (36, 2), (40, 2), (44, 4)]

/-- A limit of the running structure by its place in R56: 0 INSTANCES, 1 RDMA_QP, 2 NVME_QP, 3 QUEUE_DEPTH,
4 OUTSTANDING, 5 SLICES, 6 SNAP_PER_NS, 7 SNAP_PER_HEAD. -/
def Dev.limit (d : Dev) (i : Nat) : Nat :=
  let p := limitPlaces.getD i (0, 0)
  fieldAt (d.region 5 0) p.1 p.2

/-- No image runs (R61). -/
def Dev.noImage (d : Dev) : Bool := d.img.held.isNone

/-- One entry of the steward list (R523). -/
def stewardEntry (stw subMax units own : Nat) : Bytes :=
  let high := if own = 0xFFFF then units - 1 else Nat.max own (units - 1)
  leBytes 1 stw ++ leBytes 1 subMax ++ leBytes 2 units ++ leBytes 2 own ++ zeros 2 ++ leBytes 4 (stw * 0x400000) ++
    leBytes 4 (stw * 0x400000 + (high + 1) * 0x4000 - 1)

/-- The stewards of the current structure (R523, R527): number, highest subunit, units, own unit. -/
def stewardRows (d : Dev) : List (Nat × Nat × Nat × Nat) :=
  let low := [(0, 0, 1, 0xFFFF), (1, 0, 1, 0xFFFF), (2, 0, 1, 0xFFFF), (3, 31, 1, 0xFFFF), (4, 31, 1, 0xFFFF),
    (5, 0, 1, 0xFFFF)]
  if d.noImage then low ++ [(0x3F, 0, 1, 0xFFFF)]
  else low ++ [(0x08, 16, 24, 24), (0x0A, 16 / d.portCount - 1, d.portCount, 16), (0x0B, 9, 1, 0xFFFF),
    (0x0C, 2, 1, 0xFFFF), (0x0D, 3, (d.limit 0 + 3) / 4, 0xFFFF), (0x10, 0, 1, 0xFFFF), (0x11, 0, 1, 0xFFFF),
    (0x12, 1, 32, 32), (0x13, 0, 65, 0xFFFF), (0x14, 8, 1, 0xFFFF), (0x3F, 0, 1, 0xFFFF)]

/-- One entry of the tray list (R524). -/
def trayEntry (d : Dev) (t : Nat) : Bytes :=
  leBytes 1 (d.plane t) ++ leBytes 1 (d.pers t) ++
    leBytes 1 (b2n (bitAt (d.rd R.TRY_FENCED) t) + 2 * d.getF (R.TRY_TC_STATE_POWER_FLOOR t)) ++ zeros 1 ++
    leBytes 2 (d.getF (R.TRY_TC_STATE_ALLOWED t)) ++ zeros 2

/-- The census (R524): byte 16p + c counts the trays of plane p with personality c that are not fenced. -/
def censusBytes (d : Dev) : Bytes :=
  (List.range 48).map fun i =>
    if d.noImage ∨ i % 16 = 0 ∨ i % 16 > 10 then 0#8
    else BitVec.ofNat 8 ((List.range trayCount).filter fun t =>
      d.plane t == i / 16 && d.pers t == i % 16 && !bitAt (d.rd R.TRY_FENCED) t).length

/-- The limits section (R525). -/
def limitsBytes (d : Dev) : Bytes :=
  if d.noImage then zeros 64
  else leBytes 2 (d.limit 0) ++ zeros 2 ++ leBytes 4 (d.limit 1) ++ leBytes 4 (d.limit 2) ++ leBytes 2 (d.limit 3) ++
    zeros 2 ++ leBytes 4 (d.limit 4) ++ leBytes 2 (d.limit 5) ++ leBytes 2 (d.limit 6) ++ leBytes 4 (d.limit 7) ++
    leBytes 2 2048 ++ leBytes 1 (d.getF R.FRT_CLASS_MODE) ++ leBytes 1 d.portCount ++ leBytes 4 0x100000 ++
    leBytes 2 256 ++ leBytes 2 64 ++ zeros 24

/-- The table with a given CRC field (R522 to R527). -/
def structBody (d : Dev) (crc : Nat) : Bytes :=
  let stws := stewardRows d
  let trays := if d.noImage then 0 else trayCount
  let trayOff := 0x40 + 16 * stws.length
  let cenOff := trayOff + 8 * trays
  let limOff := cenOff + 48
  let trail := limOff + 64
  let gen := if d.noImage then 0 else d.getF R.IMG_GEN_GEN
  let mixed := d.getB R.IMG_GEN_MIXED
  let id := if d.noImage then 0 else match d.img.apply with
    | some a => if mixed then fieldAt a.image 24 8 else d.rd R.IMG_RUN_ID
    | none => d.rd R.IMG_RUN_ID
  leBytes 4 0x54535856 ++ leBytes 2 1 ++ leBytes 2 0x40 ++ leBytes 4 (trail + 8) ++ leBytes 2 gen ++
    leBytes 1 (b2n mixed + 2 * b2n d.noImage + 4 * b2n d.per.head.isSome) ++ leBytes 1 (d.getF R.SEC_LC_STATE) ++
    leBytes 8 id ++ leBytes 2 (d.getF R.IMG_RUN_SVN_SVN) ++ leBytes 2 0x8100 ++
    leBytes 1 (d.getF R.HEP_ID_REVISION) ++ leBytes 1 (d.per.head.getD 0xFF) ++
    leBytes 1 (d.getF R.IMG_BOOT_BOOTED) ++ zeros 1 ++ leBytes 4 0x40 ++ leBytes 2 stws.length ++ leBytes 2 trays ++
    leBytes 4 trayOff ++ leBytes 4 cenOff ++ leBytes 4 limOff ++ leBytes 4 trail ++ zeros 4 ++ leBytes 4 crc ++
    (stws.flatMap fun s => stewardEntry s.1 s.2.1 s.2.2.1 s.2.2.2) ++ ((List.range trays).flatMap (trayEntry d)) ++
    censusBytes d ++ limitsBytes d ++ leBytes 2 gen ++ zeros 6

/-- The structure table of the current structure (R522). -/
def structTable (d : Dev) : Bytes := structBody d (crcNat (structBody d 0))

/-- Signal the endpoint interrupt when its enable allows (R529, R535). -/
def hepInterrupt (en : Field) (d : Dev) : Dev := if d.getB en then d.msix (d.getF R.HEP_INT_VEC_VECTOR) none else d

/-- Switch the host to a newly built table and report its generation (R69, R529). -/
def switchTable (d : Dev) : Dev :=
  let d1 := { d with hep := { d.hep with table := structTable d } }
  hepInterrupt R.HEP_INT_EN_STRUCT
    ((d1.setB R.HEP_INT_STATUS_STRUCT true).setF R.HEP_STRUCT_GEN_GEN (d1.getF R.IMG_GEN_GEN))

/-- Regenerate the structure table under R68: the generation rises by one. -/
def bumpStructure (d : Dev) : Dev := switchTable (d.setF R.IMG_GEN_GEN (d.getF R.IMG_GEN_GEN + 1))

/-- A region has restarted (R68): a new generation, the count, and a region-rebaked event. -/
def regionRestarted (key : Nat) (d : Dev) : Dev :=
  let d1 := (bumpStructure d).stat R.IMG_REBAKES 1
  d1.post 0x0103 [key / 65536, key % 65536, d1.getF R.IMG_GEN_GEN]

end Sys2Proof.Machine
end

