-- ==== Sys2Proof/Machine/Image.lean ====
section
/-! DEFINITION. The Vexkan container and its verification (R47 to R58). -/

namespace Sys2Proof.Machine

/-- An entry of the region table (R49). -/
structure RegionEnt where
  type : Nat
  unit : Nat
  off : Nat
  len : Nat
  deriving DecidableEq, Repr

/-- The region table of an image (R49), at most 256 entries. -/
def imgEntries (b : Bytes) : List RegionEnt :=
  (List.range (Nat.min (fieldAt b 12 4) 256)).map fun i =>
    let o := 256 + 16 * i
    ⟨fieldAt b o 1, fieldAt b (o + 2) 2, fieldAt b (o + 4) 4, fieldAt b (o + 8) 4⟩

/-- Key of an entry's region. -/
def RegionEnt.key (e : RegionEnt) : Nat := regionKey e.type e.unit

/-- The record of a region in an image; empty where the image has none. -/
def imgRecord (b : Bytes) (key : Nat) : Bytes :=
  match (imgEntries b).find? fun e => e.key == key with
  | some e => slice b e.off e.len
  | none => []

/-- Index of a region in an image's region table. -/
def imgIndex (b : Bytes) (key : Nat) : Nat := (imgEntries b).findIdx fun e => e.key == key

/-- Bytes are all zero. -/
def allZero (b : Bytes) : Bool := b.all (· == 0#8)

/-- Bytes of an image without copying past its end; missing bytes read as zero. -/
def zeroAt (b : Bytes) (o n : Nat) : Bool := allZero (slice b o n)

/-- The image with the CRC field of a record taken as zero (R50). -/
def recCrcOk (r : Bytes) : Bool := fieldAt r 60 4 == crcNat (overlay r 60 (zeros 4))

/-- Bytes of TYPE_FIELDS that a record's type defines (R53 to R56): offset and length. -/
def typeFields (type : Nat) : List (Nat × Nat) :=
  if type = 3 then [(16, 8)] else if type = 8 ∨ type = 4 then [(16, 1)] else if type = 5 then limitPlaces else []

/-- Step 1 of R58. -/
def verMagic (b : Bytes) : Bool :=
  fieldAt b 0 4 == 0x4E4B5856 && fieldAt b 4 2 == 1 && fieldAt b 6 2 == 0x100

/-- Two regions overlap. -/
def overlaps (x y : RegionEnt) : Bool := decide (x.off < y.off + y.len ∧ y.off < x.off + x.len)

/-- No two regions overlap. -/
def disjoint (l : List RegionEnt) : Bool :=
  match l with
  | [] => true
  | x :: r => r.all (fun y => !overlaps x y) && disjoint r

/-- Step 3 of R58. -/
def verLayout (b : Bytes) : Bool :=
  let total := fieldAt b 8 4
  let n := fieldAt b 12 4
  let sig := fieldAt b 20 4
  decide (total ≤ 0x1000000) && sig + 0x100 == total && sig % 64 == 0 && decide (1 ≤ n ∧ n ≤ 256) &&
    fieldAt b 16 4 == 0x100 && decide (256 + 16 * n ≤ sig) &&
    (imgEntries b).all (fun e => e.off % 64 == 0 && e.len % 64 == 0 &&
      decide (64 ≤ e.len ∧ 256 + 16 * n ≤ e.off ∧ e.off + e.len ≤ sig)) && disjoint (imgEntries b) &&
    fieldAt b sig 4 == 0x47535856 && fieldAt b (sig + 252) 4 == crcNat (slice b sig 252) &&
    decide (fieldAt b 34 2 < 2) && fieldAt b 39 1 == 0 &&
    (fieldAt b 34 2 == 1 || zeroAt b 40 8) && zeroAt b 108 144 &&
    zeroAt b (sig + 5) 3 && zeroAt b (sig + 105) 7 && zeroAt b (sig + 208) 44

/-- Step 4 of R58. -/
def verKey (d : Dev) (b : Bytes) : Bool :=
  let sig := fieldAt b 20 4
  match tabFind d.sec.fuses.hashes (fieldAt b (sig + 4) 1) with
  | some h => sha sha384P (slice b (sig + 8) 97) == h
  | none => false

/-- Step 6 of R58. -/
def verSig (b : Bytes) : Bool :=
  let sig := fieldAt b 20 4
  ecdsaVerify (slice b (sig + 8) 97) (slice b 0 256) (slice b (sig + 112) 48) (slice b (sig + 160) 48)

/-- Step 9 of R58. -/
def verTarget (d : Dev) (b : Bytes) : Bool :=
  let bound := fieldAt b 34 2 % 2 == 1
  fieldAt b 36 2 == 0x8100 && bitAt (fieldAt b 38 1) d.sec.fuses.stepping &&
    (!bound || fieldAt b 40 8 == d.sec.fuses.deviceId) && (d.getF R.SEC_LC_STATE != 3 || bound)

/-- Step 10 of R58 for one record. -/
def verRecord (b : Bytes) (e : RegionEnt) : Bool :=
  let r := slice b e.off e.len
  let pl := fieldAt r 8 4
  let defined := typeFields e.type
  fieldAt r 0 1 == e.type && fieldAt r 2 2 == e.unit && fieldAt r 4 4 == e.len && recCrcOk r && fieldAt r 1 1 == 1 &&
    decide (pl + 64 ≤ e.len) && zeroAt r (64 + pl) (e.len - 64 - pl) && zeroAt r 14 2 &&
    (List.range 44).all fun i => defined.any (fun p => decide (p.1 ≤ 16 + i ∧ 16 + i < p.1 + p.2)) || zeroAt r (16 + i) 1

/-- Regions of which a valid image holds exactly one (R51). -/
def requiredKeys : List Nat :=
  [regionKey 1 0] ++ [1, 2, 3, 4, 5, 8, 0x0A, 0x0B, 0x0C, 0x0D, 0x10, 0x11, 0x12, 0x13, 0x14].map (regionKey 2) ++
    (List.range trayCount).map (regionKey 3) ++ [4, 5, 6, 7].map (fun t => regionKey t 0)

/-- Keys strictly rising. -/
def rising (l : List Nat) : Bool :=
  match l with
  | [] => true
  | x :: r => r.all (fun y => decide (x < y)) && rising r

/-- ALLOWED of a tray's record. -/
def recAllowed (b : Bytes) (t : Nat) : Nat := fieldAt (imgRecord b (regionKey 3 t)) 18 2
/-- PLANE of a tray's record. -/
def recPlane (b : Bytes) (t : Nat) : Nat := fieldAt (imgRecord b (regionKey 3 t)) 16 1

/-- Personalities of any ALLOWED mask. -/
def allowedCodes (b : Bytes) : List Nat :=
  (List.range 16).filter fun c => (List.range trayCount).any fun t => bitAt (recAllowed b t) c

/-- Step 11 of R58. -/
def verSet (b : Bytes) : Bool :=
  let ks := (imgEntries b).map (·.key)
  rising ks && requiredKeys.all ks.contains &&
    (imgEntries b).all (fun e => requiredKeys.contains e.key || e.type == 8) &&
    (allowedCodes b).all (fun c => c == 0 || c > 10 || ks.contains (regionKey 8 c)) &&
    (imgEntries b).all (fun e => e.type != 3 && e.type != 5 || fieldAt (slice b e.off e.len) 8 4 == 0) &&
    (List.range (imgEntries b).length).all fun i => zeroAt b (257 + 16 * i) 1 && zeroAt b (268 + 16 * i) 4

/-- Device limits of R411 in the order of R56. -/
def deviceLimits : List Nat := [1024, 16384, 16384, 1024, 262144, 4096, 4096, 1048576]

/-- Step 12 of R58 for a tray's record (R52, R53). -/
def verTray (b : Bytes) (t : Nat) : Bool :=
  let r := imgRecord b (regionKey 3 t)
  let p := fieldAt r 12 2
  let al := fieldAt r 18 2
  let tm := fieldAt r 20 4
  decide (1 ≤ p ∧ p ≤ 10) && decide (fieldAt r 16 1 ≤ 2) && decide (fieldAt r 17 1 ≤ 1) && bitAt al p && al % 2 == 0 &&
    decide (al < 2048) && !bitAt tm t && decide (tm < 2 ^ 24) &&
    (!(bitAt al pMapwalk || bitAt al pPlace) ||
      (List.range trayCount).any fun v => bitAt tm v && recPlane b v == fieldAt r 16 1)

/-- Step 12 of R58 for the other records. -/
def verOther (b : Bytes) (e : RegionEnt) : Bool :=
  let r := slice b e.off e.len
  if e.type = 8 then
    decide (1 ≤ e.unit ∧ e.unit ≤ 10) && fieldAt r 12 2 == e.unit && fieldAt r 16 1 == b2n (isControl e.unit)
  else if e.type = 4 then decide (fieldAt r 16 1 ≤ 2)
  else if e.type = 5 then
    (List.range 8).all fun i =>
      let p := limitPlaces.getD i (0, 0)
      decide (1 ≤ fieldAt r p.1 p.2 ∧ fieldAt r p.1 p.2 ≤ deviceLimits.getD i 0)
  else true

/-- Two trays of one plane allow a control personality. -/
def verTwice (b : Bytes) (c : Nat) : Bool :=
  !isControl c || (List.range 3).any fun p =>
    decide (2 ≤ ((List.range trayCount).filter fun t => recPlane b t == p && bitAt (recAllowed b t) c).length)

/-- Step 12 of R58. -/
def verValues (b : Bytes) : Bool :=
  (List.range trayCount).all (verTray b) && (imgEntries b).all (verOther b) && (allowedCodes b).all (verTwice b)

/-- Verification of an image (R58): 0, or the error code of the first check that fails. -/
def verifyImage (d : Dev) (b : Bytes) : Nat :=
  let sig := fieldAt b 20 4
  if !verMagic b then 1
  else if fieldAt b 252 4 ≠ crcNat (slice b 0 252) then 2
  else if !verLayout b then 3
  else if !verKey d b then 4
  else if bitAt d.sec.fuses.revoked (fieldAt b (sig + 4) 1) then 5
  else if !verSig b then 6
  else if sha sha384P (slice b 256 (sig - 256)) ≠ slice b 48 48 then 7
  else if fieldAt b 32 2 < d.sec.fuses.minSvn then 8
  else if !verTarget d b then 9
  else if !(imgEntries b).all (verRecord b) then 0x0A
  else if !verSet b then 0x0B
  else if !verValues b then 0x0C
  else 0

end Sys2Proof.Machine
end

