-- ==== Sys2Proof/Machine/Rebake.lean ====
section
/-! DEFINITION. Rebakes: the one rebake slot of a head, its phases for each kind of region, applies and their roll-back
(R43 to R46, R67 to R86, R103, R113, R118, R605). -/

namespace Sys2Proof.Machine

/-- Give a slot to a tray's ring by a steal: STOLEN is set (R103). -/
def stolen (s : Slot) : Slot := { s with stolen := true }

/-- Next sibling in ring order with a free slot (R605). -/
def nextSibling (d : Dev) (t : Nat) : Option Nat :=
  (ringOrder t).find? fun v => (siblings d t).contains v && ringRoom d v

/-- Record a move notice (R104). -/
def sendNotice (issuer seq tray : Nat) (d : Dev) : Dev :=
  { d with tray := { d.tray with notices := d.tray.notices ++ [⟨issuer, seq, tray⟩] } }

/-- Hand one slot of a draining tray on (R605). -/
def handOn (t : Nat) (s : Slot) (d : Dev) : Dev :=
  let d1 := dropSlot t s d
  match nextSibling d1 t with
  | some v =>
    let d2 := (d1.stat (R.TRY_TC_STEAL_OUT t) 1).stat (R.TRY_TC_STEAL_IN v) 1
    syncDepth v (sendNotice s.tk.issuer s.tk.seq v (d2.modTray v fun x => { x with ring := x.ring ++ [stolen s] }))
  | none => holdTicket s.tk (d1.modOut s.tk.issuer s.tk.seq fun o => { o with tray := none })

/-- A draining tray at its drain bound hands its unstarted tickets on, oldest first (R74, R605). -/
def handOffAll (t : Nat) (d : Dev) : Dev :=
  syncDepth t (forEach ((d.trayX t).ring.filter slotWaiting) (handOn t) d)

/-- Set the fields that a region's record carries initial values for (R43, R44). -/
def loadFields (key : Nat) (rec : Bytes) (d : Dev) : Dev :=
  forEach (imageFields.filter fun f => f.region == key) (fun f d =>
    if f.rw && d.img.hostSet.contains (f.fld.sa, f.fld.lo) then d
    else d.setF f.fld (Config.imageParam rec f.fld.sa f.fld.lo)) d

/-- Put a tray's record in force with the personality it will carry (R53). -/
def loadTray (t pers : Nat) (rec : Bytes) (d : Dev) : Dev :=
  let d1 := (((d.setF (R.TRY_TC_STATE_PLANE t) (fieldAt rec 16 1)).setF (R.TRY_TC_STATE_POWER_FLOOR t)
    (fieldAt rec 17 1)).setF (R.TRY_TC_STATE_ALLOWED t) (fieldAt rec 18 2)).setF (R.TRY_TC_STATE_PERS t) pers
  d1.modTray t fun x => { x with twinMask := fieldAt rec 20 4 }

/-- Put a region's record in force: the settings its type gives, and the fields that start from it. -/
def loadRecord (key pers : Nat) (rec : Bytes) (d : Dev) : Dev :=
  let d1 := loadFields key rec { d with img := { d.img with loaded := tabPut d.img.loaded key rec } }
  match key / 65536 with
  | 3 => loadTray (key % 65536) pers rec d1
  | 4 => d1.setF R.FRT_CLASS_MODE (fieldAt rec 16 1)
  | 5 => d1.setF R.CMQ_LIMITS_QUEUE_DEPTH (fieldAt rec 28 2)
  | _ => d1

/-- The personality a tray region restarts with under its record (R53). -/
def recPers (rec : Bytes) : Nat := fieldAt rec 12 2

/-- Set the image loader's state (R87): BUSY follows it. -/
def setImgState (st : Nat) (d : Dev) : Dev :=
  (d.setF R.IMG_STATUS_STATE st).setB R.IMG_STATUS_BUSY (st == 1 || st == 2 || st == 4 || st == 5 || st == 6)

/-- End the loader's command with an error code, 0 for success, and a state. -/
def endImgOp (st err : Nat) (d : Dev) : Dev :=
  let d1 := (setImgState st d).setF R.IMG_STATUS_ERR err
  { d1 with img := { d1.img with op := .none } }

/-- The held copy of the running image; empty while none runs (R66). -/
def heldImage (d : Dev) : Bytes := d.img.held.getD []

/-- The image whose region table numbers regions at this moment. -/
def indexImage (d : Dev) : Bytes :=
  match d.img.apply with
  | some a => a.image
  | none => heldImage d

/-- The slot whose image has the running IMAGE_ID (R66). -/
def runningSlot (d : Dev) : Option Nat :=
  let id := d.rd R.IMG_RUN_ID
  if d.getB R.IMG_SLOT_A_VALID && d.rd R.IMG_SLOT_A_ID == id then some 0
  else if d.getB R.IMG_SLOT_B_VALID && d.rd R.IMG_SLOT_B_ID == id then some 1
  else none

/-- A region's record in the held copy is damaged for good (R66). -/
def markDamaged (key : Nat) (d : Dev) : Dev :=
  if d.img.damaged.contains key then d
  else ({ d with img := { d.img with damaged := d.img.damaged ++ [key] } }).post 0x0106 [imgIndex (heldImage d) key]

/-- A record of the held copy fails its CRC: it is read again from the slot that holds the running image, or the region is
damaged (R66). -/
def startReread (key : Nat) (d : Dev) : Dev :=
  match runningSlot d with
  | some s =>
    ({ d with img := { d.img with reread := some (key, s) } }).emit (.qspi 0 (s * 0x1000000) (imgRecord (heldImage d) key).length)
  | none => markDamaged key d

/-- Instances that this head serves. -/
def servedInsts (d : Dev) : List Nat :=
  (List.range 1024).filter fun i => d.getF (R.INS_I_STATE_STATE i) == 1

/-- An instance migration is in progress or waits on this head (R84). -/
def migrating (d : Dev) : Bool := d.nvm.mig.isSome || !d.nvm.handoff.isEmpty || !d.per.reclaim.isEmpty

/-- A rebake takes the slot and starts its first phase (R73, R74, R78 to R80, R118). -/
def startRebake (owner : RebakeOwner) (key pers : Nat) (rec : Bytes) (d : Dev) : Dev :=
  let d1 := d.setF R.IMG_STATUS_CUR_REGION (imgIndex (indexImage d) key)
  let put := fun (ph : RebakePhase) (d : Dev) =>
    { d with img := { d.img with rebake := some ⟨owner, key, ph, rec, pers⟩ } }
  match key / 65536 with
  | 1 => if d.getB R.IMG_HBANK_SHADOW_VALID ∧ d.img.bankShadow = rec then put .bankPause d1 else put .bankLoading d1
  | 3 =>
    let t := key % 65536
    let d2 := { d1 with img := { d1.img with spacing := true } }
    if d2.power t = 3 then put .loading d2
    else put .draining (wakeTray t (endTestOn t (d2.setB (R.TRY_TC_STATE_DRAIN t) true)))
  | 5 => put .draining { d1 with nvm := { d1.nvm with handoff := servedInsts d1 } }
  | _ => put .draining d1

/-- Cold trays of a plane that may take a personality (R75), other than one. -/
def coldSpare (d : Dev) (plane pers not : Nat) : Option Nat :=
  (List.range trayCount).find? fun v =>
    v != not && d.power v == 0 && d.plane v == plane && bitAt (d.getF (R.TRY_TC_STATE_ALLOWED v)) pers

/-- The tray alone carries its personality in its plane (R75). -/
def onlyTray (d : Dev) (t : Nat) : Bool := groupTrays d (d.plane t) (d.pers t) == [t]

/-- The region's record differs between an image and what is in force. -/
def differs (d : Dev) (img : Bytes) (key : Nat) : Bool := imgRecord img key != tabGet [] d.img.loaded key

/-- A tray changes under an image: its TRAY record differs, or its current personality's record does (R67). -/
def trayChanges (d : Dev) (img : Bytes) (t : Nat) : Bool :=
  differs d img (regionKey 3 t) || differs d img (regionKey 8 (d.pers t))

/-- Regions to apply in the order of R67; with DRAM_CTRL first under APPLY_OOS (R81). Trays stand here as candidates, each
judged at its turn. -/
def applyOrder (oos : Bool) : List Nat :=
  (if oos then [regionKey 7 0] else []) ++ [regionKey 1 0] ++
    [1, 2, 3, 4, 5, 8, 0x0A, 0x0B, 0x0C, 0x0D, 0x10, 0x11, 0x12, 0x13, 0x14].map (regionKey 2) ++
    [regionKey 6 0, regionKey 5 0, regionKey 4 0] ++ (List.range trayCount).map (regionKey 3)

/-- A region of the order changes under an image at this moment. -/
def regionChanges (d : Dev) (img : Bytes) (key : Nat) : Bool :=
  if key / 65536 = 3 then trayChanges d img (key % 65536) else differs d img key

/-- The last changed region has restarted (R68): the new image runs. -/
def finishApply (a : Apply) (d : Dev) : Dev :=
  let b := a.image
  let all := (imgEntries b).foldl (fun t e => tabPut t e.key (slice b e.off e.len)) ([] : Tab Bytes)
  let sig := fieldAt b 20 4
  let d1 := (((d.wr R.IMG_RUN_ID (fieldAt b 24 8)).setF R.IMG_RUN_SVN_SVN (fieldAt b 32 2)).setF R.IMG_KEYS_RUN_KEY
    (fieldAt b (sig + 4) 1)).setB R.IMG_GEN_MIXED false
  let d2 := { d1 with img := { d1.img with held := some b, damaged := [], loaded := all, apply := none } }
  let d3 := { d2 with hep := { d2.hep with table := structTable d2 } }
  (endImgOp 0 0 d3).post 0x0104 [fieldAt b 24 8]

/-- The regions of an apply out of service have all been rebaked, or rolled back: the head rebuilds and rejoins (R81 steps 5 and 6). -/
def oosRebaked (a : Apply) (d : Dev) : Dev :=
  { d with img := { d.img with apply := some { a with oosPhase := 5, waiting := true } } }

/-- A roll-back has undone every changed region (R70, R86). -/
def finishRollback (a : Apply) (d : Dev) : Dev :=
  let d1 := { d with img := { d.img with apply := none } }
  let st := if a.err = 0 then 0 else 7
  endImgOp st a.err d1

/-- Begin the roll-back of an apply: the state, the count and the event (R70). An ABORT leaves no error code (R86). -/
def beginRollback (a : Apply) (err : Nat) (d : Dev) : Dev :=
  let d1 := { d with img := { d.img with apply := some { a with rollingBack := true, err := err } } }
  let d2 := (setImgState 6 d1).setF R.IMG_STATUS_ERR err
  (d2.err R.E_IMG_ROLLBACKS).post 0x0105 [err, d2.getF R.IMG_STATUS_CUR_REGION]

/-- Trays whose restart is wanted after a fault (R118). -/
def restartWanted (d : Dev) : Option Nat :=
  (List.range trayCount).find? fun t => (d.trayX t).restart && !(d.trayX t).fencing && d.power t == 3

/-- The next step of an apply with the slot free. -/
def applyNext (a : Apply) (d : Dev) : Dev :=
  match a.todo.dropWhile fun k => !regionChanges d a.image k with
  | [] => if a.oos then oosRebaked a d else finishApply a d
  | k :: rest =>
    let a' := { a with todo := k :: rest }
    let d0 := { d with img := { d.img with apply := some a' } }
    let t := k % 65536
    if k / 65536 ≠ 3 then startRebake .apply k 0 (imgRecord a.image k) d0
    else if d.img.spacing then d0
    else if onlyTray d t && d.power t != 0 then
      match coldSpare d (d.plane t) (d.pers t) t with
      | some v => startRebake .spare (regionKey 3 v) (d.pers t) (tabGet [] d.img.loaded (regionKey 3 v)) d0
      | none => beginRollback a' 0x0E d0
    else startRebake .apply k (recPers (imgRecord a.image k)) (imgRecord a.image k) d0

/-- The next step of a roll-back with the slot free: the region changed last goes back first (R70). -/
def rollbackNext (a : Apply) (d : Dev) : Dev :=
  match a.done with
  | [] => if a.oos && a.oosPhase == 4 then oosRebaked a d else finishRollback a d
  | (k, old, pers) :: _ => if k / 65536 = 3 ∧ d.img.spacing then d else startRebake .rollback k pers old d

/-- The rebake slot is free (R45): a faulted tray's restart takes it first, then the apply. -/
def nextRebake (d : Dev) : Dev :=
  if d.img.rebake.isSome then d
  else match restartWanted d with
    | some t =>
      if d.img.spacing then d
      else startRebake .trayRestart (regionKey 3 t) (recPers (tabGet [] d.img.loaded (regionKey 3 t)))
        (tabGet [] d.img.loaded (regionKey 3 t)) (d.modTray t fun x => { x with restart := false })
    | none => match d.img.apply with
      | some a => if a.waiting then d else if a.rollingBack then rollbackNext a d else applyNext a d
      | none => d

/-- A roll-back started while the slot is free goes on at once. -/
def goRollback (a : Apply) (err : Nat) (d : Dev) : Dev := nextRebake (beginRollback a err d)

/-- The tray returns to service at Bake: its rolls that were lent, tested or running are idle again, fenced ones stay. -/
def trayBack (t : Nat) (d : Dev) : Dev :=
  let d1 := forEach (List.range rollCount) (fun r d => if d.rollState t r = 6 then d else setRoll t r 0 d) d
  nextTest (syncDepth t (((setPower t 2 d1).setB (R.TRY_TC_STATE_DRAIN t) false).modTray t fun x => { x with
    fencing := false, stuck := false, missed := 0, crcTimes := [] }))

/-- A region has restarted with its record (R68): it serves, the table is rebuilt, and the slot is free. A tray that R118 keeps fenced until
the next start takes its record and stays fenced. -/
def restartRegion (rb : Rebake) (d : Dev) : Dev :=
  let d1 := loadRecord rb.key rb.pers rb.record { d with img := { d.img with rebake := none } }
  let u := rb.key % 65536
  let d2 := match rb.key / 65536 with
    | 3 => if (d1.trayX u).stuck then d1 else trayBack u d1
    | 5 => { d1 with per := { d1.per with reclaim := d1.per.reclaim ++ servedInsts d } }
    | _ => d1
  regionRestarted rb.key d2

/-- What the owner of a rebake does after the restart succeeded. -/
def rebakeDone (rb : Rebake) (old : Bytes) (oldPers : Nat) (d : Dev) : Dev :=
  match rb.owner, d.img.apply with
  | .apply, some a =>
    nextRebake { d with img := { d.img with apply := some { a with
      todo := a.todo.drop 1, done := (rb.key, old, oldPers) :: a.done } } }
  | .applyOld, some a => goRollback a 0x10 d
  | .rollback, some a => nextRebake { d with img := { d.img with apply := some { a with done := a.done.drop 1 } } }
  | .reapply, _ => nextRebake (endImgOp 0 0 d)
  | .reapplyOld, _ => nextRebake ((endImgOp 7 0x10 d).post 0x0105 [0x10, d.getF R.IMG_STATUS_CUR_REGION])
  | .rebalance, _ =>
    nextRebake (((d.stat R.TRY_REBALANCES 1).setF R.TRY_REBAL_LAST_TRAY (rb.key % 65536)).setF R.TRY_REBAL_LAST_PERS
      rb.pers)
  | _, _ => nextRebake d

/-- A region loaded with its old record does not restart either: it is faulty (R70). A tray faults; a steward's failure is
declared to the Hearth, which fails the head (R30, R548). -/
def regionFaulty (key : Nat) (d : Dev) : Dev :=
  match key / 65536 with
  | 3 => { trayFault (key % 65536) d with img := d.img }
  | 2 => headFail 5 d
  | _ => d

/-- The old record and personality of a region whose restart failed. -/
def oldOwner (o : RebakeOwner) : Option RebakeOwner :=
  match o with
  | .apply => some .applyOld
  | .reapply => some .reapplyOld
  | .rebalance => some .rebalanceOld
  | .spare => some .spareOld
  | _ => none

/-- A region fails to restart (R70): it is loaded with its old record, or, when that failed, it is faulty. A faulted tray
whose restart fails stays fenced (R118). -/
def restartFailed (rb : Rebake) (d : Dev) : Dev :=
  match oldOwner rb.owner with
  | some o =>
    let old := tabGet [] d.img.loaded rb.key
    let pers := if rb.key / 65536 = 3 then d.pers (rb.key % 65536) else 0
    { d with img := { d.img with rebake := some ⟨o, rb.key, rb.phase, old, pers⟩ } }
  | none =>
    let d1 := { d with img := { d.img with rebake := none } }
    match rb.owner, d.img.apply with
    | .trayRestart, _ => nextRebake (d1.modTray (rb.key % 65536) fun x => { x with restart := false, stuck := true })
    | .applyOld, some a => goRollback a 0x10 (regionFaulty rb.key d1)
    | .rollback, some a =>
      let d2 := regionFaulty rb.key d1
      nextRebake { d2 with img := { d2.img with apply := some { a with done := a.done.drop 1 } } }
    | .reapplyOld, _ => nextRebake (endImgOp 7 0x10 (regionFaulty rb.key d1))
    | _, _ => nextRebake (regionFaulty rb.key d1)

/-- A restart ends: with success, or with failure (R68, R70). -/
def endRestart (ok : Bool) (rb : Rebake) (d : Dev) : Dev :=
  if ok then
    let pers := if rb.key / 65536 = 3 then d.pers (rb.key % 65536) else 0
    rebakeDone rb (tabGet [] d.img.loaded rb.key) pers (restartRegion rb d)
  else restartFailed rb d

/-- The drain of a region is over or at its bound: it is fenced and its record loads (R73 to R79). -/
def fenceRegion (rb : Rebake) (d : Dev) : Dev :=
  let d1 := { d with img := { d.img with rebake := some { rb with phase := .loading } } }
  match rb.key / 65536 with
  | 3 =>
    let t := rb.key % 65536
    closePort t (handOffAll t (forEach (List.range rollCount) (fun r d => dropRollWork t r d) d1))
  | 4 => allPortsDown 4 d1
  | _ => d1

/-- Whether a region's drain can end now: INSTANCE_LIMITS waits for its migrations, the host endpoint for a reset of the
endpoint, a steward for the tickets it has issued (R73, R77, R79). -/
def drainMayEnd (rb : Rebake) (d : Dev) : Bool :=
  if rb.key = regionKey 5 0 then d.nvm.handoff.isEmpty && d.nvm.mig.isNone
  else if rb.key = regionKey 2 5 then d.getB R.HEP_FUNC_RESETTING
  else if rb.key / 65536 = 2 then d.tray.outst.all fun o => o.tk.issuer != rb.key % 65536 || d.tray.offers.contains o.tk
  else true

/-- A region's drain ends (R73). -/
def regionDrainEnd (d : Dev) : Dev :=
  match d.img.rebake with
  | some rb => if rb.phase = .draining ∧ drainMayEnd rb d then fenceRegion rb d else d
  | none => d

/-- Stop an apply for a take-over (R83): a region in drain returns with its old record, a fenced one completes, and nothing
further is applied. -/
def stopApply (d : Dev) : Dev :=
  match d.img.apply with
  | none => d
  | some a =>
    let d1 := match d.img.rebake with
      | some rb =>
        if rb.phase == RebakePhase.draining || rb.phase == RebakePhase.waiting then
          let d0 := { d with img := { d.img with rebake := none }, nvm := { d.nvm with handoff := [] } }
          if rb.key / 65536 = 3 then d0.setB (R.TRY_TC_STATE_DRAIN (rb.key % 65536)) false else d0
        else d
      | none => d
    let d2 := { d1 with img := { d1.img with
      apply := some { a with todo := [], done := [], waiting := true, rollingBack := false, err := 0x11 } } }
    let d3 := endImgOp 9 0x11 (d2.setB R.IMG_GEN_MIXED true)
    { d3 with hep := { d3.hep with table := structTable d3 } }

end Sys2Proof.Machine
end

