-- ==== Sys2Proof/Machine/Trays.lean ====
section
/-! DEFINITION. The tray commands (R96 to R118, R605, R477). A command that names work that does not exist leaves the head as
it is (log entry 9). -/

namespace Sys2Proof.Machine

/-- TICKET_OFFER: an issuer offers a ticket (R96, R100, R101). -/
def ticketOffer (tk : Ticket) (d : Dev) : Dev := offerTicket tk d

/-- TICKET_REOFFER: a held ticket is offered again (R101). -/
def ticketReoffer (issuer seq : Nat) (d : Dev) : Dev :=
  match d.tray.offers.find? fun t => t.issuer == issuer && t.seq == seq with
  | some t => offerTicket t d
  | none => d

/-- Tickets of a ring in dispatch order (R102): retry state and re-issued ones first, oldest first, then the others as they
came. -/
def dispatchOrder (ring : List Slot) : List Slot :=
  let first := ring.filter fun s => s.st == .retry || (s.st == .unstarted && s.reissued)
  let rest := ring.filter fun s => s.st == .unstarted && !s.reissued
  first ++ rest

/-- Lowest idle usable roll of a tray that a ticket does not exclude. -/
def lowestRoll (d : Dev) (t : Nat) (ex : List Nat) : Option Nat :=
  (List.range rollCount).find? fun r => rollFree d t r && !ex.contains (t * 16 + r)

/-- Trays a holder may pair with, in ring order from one past its own (R105, R76). -/
def twinTrays (d : Dev) (t : Nat) : List Nat :=
  (ringOrder t).filter fun v =>
    bitAt (d.trayX t).twinMask v && d.plane v == d.plane t && d.pers v == d.pers t && d.power v == 2 && !d.draining v

/-- A partner roll for a twin (R105). -/
def twinPartner (d : Dev) (t : Nat) (ex : List Nat) : Option (Nat × Nat) :=
  (twinTrays d t).findSome? fun v => (lowestRoll d v ex).map fun r => (v, r)

/-- Cold trays that a partner search needs are woken (R110). -/
def wakePartner (t : Nat) (d : Dev) : Dev :=
  match (ringOrder t).find? fun v => bitAt (d.trayX t).twinMask v && d.plane v == d.plane t && d.pers v == d.pers t &&
      d.power v == 0 with
  | some v => if (twinTrays d t).isEmpty then wakeTray v d else d
  | none => d

/-- A data ticket starts on a roll (R102). -/
def startData (t r : Nat) (s : Slot) (d : Dev) : Dev :=
  syncDepth t (modSlot t s (fun s => { s with st := .running r none d.now }) (setRoll t r 1 d))

/-- A twin starts: the holder's roll and its partner's (R105). -/
def startTwin (t r v q : Nat) (s : Slot) (d : Dev) : Dev :=
  let d1 := setRoll v q 3 (setRoll t r 2 d)
  syncDepth v (syncDepth t (modSlot t s (fun s => { s with st := .running r (some (v * 16 + q)) d.now }) d1))

/-- A ticket reaches dispatch: its CRC and its instance generation are checked (R96, R99), then it starts, or a control
ticket waits for its twin (R105). -/
def dispatchSlot (t : Nat) (s : Slot) (d : Dev) : Dev :=
  if !ticketOk s.tk then crcFailure t s.tk (syncDepth t (dropSlot t s d))
  else if ticketStale d s.tk then syncDepth t (sendCpl t 0 tkStale s.tk 0 0 (dropSlot t s d))
  else match lowestRoll d t s.excluded with
    | none => d
    | some r =>
      if isControl s.tk.pers then
        match twinPartner d t s.excluded with
        | some (v, q) => if d.draining t then d else startTwin t r v q s d
        | none => wakePartner t d
      else startData t r s d

/-- The first of the ring that can be dispatched: a control ticket that waits for its twin holds up no data ticket. -/
def nextDispatch (d : Dev) (t : Nat) : Option Slot :=
  let l := dispatchOrder (d.trayX t).ring
  match l with
  | [] => none
  | s :: _ =>
    if ticketOk s.tk && !ticketStale d s.tk && isControl s.tk.pers && (twinPartner d t s.excluded).isNone then
      match l.find? fun x => !isControl x.tk.pers with
      | some x => some x
      | none => some s
    else some s

/-- TICKET_DISPATCH: the tray's next ticket goes to its lowest idle usable roll (R102). A tray dispatches at Bake. -/
def ticketDispatch (t : Nat) (d : Dev) : Dev :=
  if d.power t ≠ 2 then d
  else match nextDispatch d t with
    | some s => dispatchSlot t s d
    | none => d

/-- TWIN_RESERVE: a holder searches again for a partner for its first control ticket (R105). -/
def twinReserve (t : Nat) (d : Dev) : Dev :=
  if d.power t ≠ 2 then d
  else match (dispatchOrder (d.trayX t).ring).find? fun s => isControl s.tk.pers with
    | some s => dispatchSlot t s d
    | none => d

/-- Blocks of 16 bytes that a masked block unit works for a ticket (R88, R477). -/
def ticketBlocks (tk : Ticket) : Nat :=
  if tk.pers = pSeal ∨ tk.pers = pUnseal ∨ tk.pers = pStreamSeal then (tk.inLen + 15) / 16 else 0

/-- A roll has finished a ticket: it is counted and idle. -/
def rollDone (t r : Nat) (tk : Ticket) (d : Dev) : Dev :=
  (freeRoll t r (d.modRoll t r fun x => { x with blocks := x.blocks + ticketBlocks tk })).stat (R.TRY_ROLL_DONE t r) 1

/-- Write what a run gave at OUT_ADDR: the output, or free bytes up to OUT_LIMIT where it leaves them undefined (R223, R226). -/
def storeOutput (tk : Ticket) (p : PersOut) (d : Dev) : Dev :=
  if persUndefined p && !isControl tk.pers then
    let fb := d.drawBytes tk.outLimit
    fb.2.memStore tk.outAddr fb.1
  else d.memStore tk.outAddr p.out

/-- A ticket's personality takes a derived key, which a roll holds for one ticket (R470). -/
def usesKey (d : Dev) (tk : Ticket) : Bool :=
  (tk.pers == pDigest || tk.pers == pSeal || tk.pers == pUnseal || tk.pers == pStreamSeal) && (ctxKey d (argsB tk)).isSome

/-- A ticket's run ends: output, completion, slot and rolls freed, counts (R97, R98, R106, R119). -/
def finishTicket (t r : Nat) (s : Slot) (d : Dev) : Dev :=
  let p := runPersonality d s.tk (d.memBytes s.tk.inAddr s.tk.inLen)
  let d0 := if (partnerOf s).isSome then (storeOutput s.tk p d).stat (R.TRY_TC_TWINS t) 1 else storeOutput s.tk p d
  let d1 := if usesKey d s.tk then d0.stat R.SEC_DERIVES 1 else d0
  let d2 := sendCpl t r p.status s.tk p.out.length p.result (dropSlot t s d1)
  let d3 := rollDone t r s.tk d2
  syncDepth t (match partnerOf s with
    | some q => rollDone (q / 16) (q % 16) s.tk d3
    | none => d3)

/-- TICKET_COMPLETE: the roll, or the twin it holds, finishes; `agree` tells whether the twin's outputs and final states
compared equal (R97, R106, R107). -/
def ticketComplete (t r : Nat) (agree : Bool) (d : Dev) : Dev :=
  match (d.trayX t).ring.find? (runsOn r) with
  | some s =>
    match partnerOf s with
    | some q =>
      if agree then finishTicket t r s d
      else twinMismatch t s ((d.stat (R.TRY_ROLL_DONE t r) 1).stat (R.TRY_ROLL_DONE (q / 16) (q % 16)) 1)
    | none => finishTicket t r s d
  | none => d

/-- Tickets a thief may take from a ring (R103). -/
def stealable (d : Dev) (v : Nat) : List Slot := (d.trayX v).ring.filter fun s => s.st == .unstarted && !s.stolen

/-- How many of `u` tickets a steal takes from a victim (R103). -/
def stealTake (draining : Bool) (u : Nat) : Nat :=
  if draining && decide (u ≥ 1) then Nat.min 8 u else if u ≥ 2 then Nat.min 8 (u / 2) else 0

/-- The tray is dry (R103): no dispatchable ticket and an idle usable roll. -/
def dry (d : Dev) (t : Nat) : Bool := waitingCount d t == 0 && (lowestRoll d t []).isSome && d.power t == 2

/-- TRAY_STEAL: a dry tray takes the newest tickets of the first sibling with enough; they leave the victim's ring in one
step and travel on the network (R103, R104). -/
def traySteal (t : Nat) (d : Dev) : Dev :=
  if !dry d t || d.draining t || d.tray.steals.any (fun s => s.dst == t) then d
  else match (ringOrder t).find? fun v =>
      (siblings d t).contains v && decide (stealTake (d.draining v) (stealable d v).length > 0) with
    | none => d
    | some v =>
      let u := stealable d v
      let n := stealTake (d.draining v) u.length
      let taken := u.drop (u.length - n)
      let d1 := d.modTray v fun x => { x with ring := x.ring.filter fun s => !taken.contains s }
      let d2 := (d1.stat (R.TRY_TC_STEAL_OUT v) n).stat (R.TRY_TC_STEAL_IN t) n
      syncDepth v { d2 with tray := { d2.tray with steals := d2.tray.steals ++ [⟨v, t, taken.map stolen⟩] } }

/-- STEAL_RETRY_TIMER: after 256 bake clocks a dry tray tries to steal again (R103). -/
def stealRetryTimer (t : Nat) (d : Dev) : Dev := traySteal t d

/-- One stolen ticket enters the thief's ring: its CRC is checked and its issuer told (R96, R104). At a tray whose port has closed meanwhile
it does not land, and goes back to its issuer (log entry 125). -/
def arriveSlot (t : Nat) (s : Slot) (d : Dev) : Dev :=
  if d.power t = 3 then holdTicket s.tk (d.modOut s.tk.issuer s.tk.seq fun o => { o with tray := none, reissued := true })
  else if ticketOk s.tk then
    sendNotice s.tk.issuer s.tk.seq t (d.modTray t fun x => { x with ring := x.ring ++ [s] })
  else crcFailure t s.tk d

/-- STEAL_ARRIVAL: the tickets of the oldest steal to a tray arrive (R104). -/
def stealArrival (t : Nat) (d : Dev) : Dev :=
  match d.tray.steals.find? fun s => s.dst == t with
  | none => d
  | some st =>
    let d1 := { d with tray := { d.tray with steals := d.tray.steals.erase st } }
    syncDepth t (forEach st.slots (arriveSlot t) d1)

/-- MOVE_NOTICE: the issuer notes the tray that holds its ticket (R104). -/
def moveNotice (issuer seq : Nat) (d : Dev) : Dev :=
  match d.tray.notices.find? fun n => n.issuer == issuer && n.seq == seq with
  | none => d
  | some n =>
    ({ d with tray := { d.tray with notices := d.tray.notices.erase n } }).modOut issuer seq fun o => { o with
      tray := some n.tray }

/-- DRAIN_BOUND_HANDOFF: a draining tray hands its unstarted tickets on (R605). -/
def drainBoundHandoff (t : Nat) (d : Dev) : Dev := if d.draining t then handOffAll t d else d

/-- The slot whose twin a roll belongs to, with the holder's tray. -/
def twinOf (d : Dev) (n : Nat) : Option (Nat × Slot) :=
  match (d.trayX (n / 16)).ring.find? fun s => runsOn (n % 16) s && (partnerOf s).isSome with
  | some s => some (n / 16, s)
  | none => (lentSlots d n).head?

/-- TWIN_SIGNATURE: a signature of one roll of a twin arrives; the holder compares it with its pair's, or keeps it until the
pair's arrives (R106). -/
def twinSignature (t r sig : Nat) (d : Dev) : Dev :=
  match twinOf d (t * 16 + r) with
  | none => d
  | some (h, s) =>
    match s.st with
    | .running q (some p) _ =>
      let own := t * 16 + r
      let other := if own = p then h * 16 + q else p
      match (d.rollX (other / 16) (other % 16)).sigs with
      | [] => d.modRoll t r fun x => { x with sigs := x.sigs ++ [sig] }
      | x :: rest =>
        let d1 := d.modRoll (other / 16) (other % 16) fun y => { y with sigs := rest }
        if x = sig then d1 else twinMismatch h s d1
    | _ => d

/-- TWIN_SIGNATURE_LATE: a signature more than 128 steps late is a mismatch (R106). -/
def twinSignatureLate (t r : Nat) (d : Dev) : Dev :=
  match twinOf d (t * 16 + r) with
  | none => d
  | some (h, s) => twinMismatch h s d

/-- Waiting tickets of a group at Bake, and its Bake trays. -/
def groupLoad (d : Dev) (plane pers : Nat) : Nat × Nat :=
  let ts := bakeTrays d plane pers
  ((ts.map (waitingCount d)).foldl (· + ·) 0, ts.length)

/-- WAKE_DECISION: a closed group with a ticket waiting is opened; an open one whose mean load exceeds WAKE_HI wakes one
more Cold tray, lowest first (R111). A Bake tray going Cold is kept (R110). -/
def wakeDecision (plane pers : Nat) (d : Dev) : Dev :=
  if !groupOpen d plane pers then
    if d.tray.offers.any fun t => t.plane == plane && t.pers == pers then openGroup plane pers d else d
  else
    let l := groupLoad d plane pers
    if l.1 > d.getF R.TRY_WAKE_WAKE_HI * l.2 then
      match (groupTrays d plane pers).find? fun t => d.power t == 0 || (d.power t == 2 && d.goingCold t) with
      | some t => wakeTray t d
      | none => d
    else d

/-- TRAY_PLL_LOCKED: the clocks of a waking tray are released to its controller (R110). -/
def trayPllLocked (t : Nat) (d : Dev) : Dev :=
  if d.power t = 1 then
    (d.setF ⟨R.CLK_DOMAINS, 8 + t, 1⟩ 1).modTray t fun x => { x with pll := true }
  else d

/-- TRAY_CONTROLLER_RESUMED: the tray is at Bake and routable (R110). -/
def trayControllerResumed (t : Nat) (d : Dev) : Dev :=
  if d.power t = 1 ∧ (d.trayX t).pll then setPower t 2 (markRolls t 7 0 d) else d

/-- SLEEP_DECISION: the highest Bake tray of a group whose mean has stayed below SLEEP_LO begins going Cold (R111). The
command stands for the end of SLEEP_HOLD (log entry 10). -/
def sleepDecision (plane pers : Nat) (d : Dev) : Dev :=
  let l := groupLoad d plane pers
  match (bakeTrays d plane pers).reverse.head? with
  | none => d
  | some t =>
    if l.1 < d.getF R.TRY_WAKE_SLEEP_LO * l.2 ∧ l.2 > 2 ∧ !d.getB (R.TRY_TC_STATE_POWER_FLOOR t) ∧ !d.draining t ∧
        d.now - (d.trayX t).bakeSince ≥ 1000 * d.getF R.TRY_HOLD_MIN_BAKE_US then
      d.setB (R.TRY_TC_STATE_GOING_COLD t) true
    else d

/-- A tray whose clocks stop: its PLL is no longer locked (R110). -/
def toCold (t : Nat) (d : Dev) : Dev :=
  (setPower t 0 (markRolls t 0 7 d)).setF ⟨R.CLK_DOMAINS, 8 + t, 1⟩ 0 |>.modTray t fun x => { x with pll := false }

/-- A test runs on a tray (R115). -/
def testing (d : Dev) (t : Nat) : Bool := d.tray.test.phase != 0 && d.tray.test.roll / 16 == t

/-- TRAY_GOES_COLD: a tray going Cold whose ring is empty and rolls idle stops its clocks (R110). -/
def trayGoesCold (t : Nat) (d : Dev) : Dev :=
  if d.power t = 2 ∧ d.goingCold t ∧ (d.trayX t).ring.isEmpty ∧ busyCount d t = 0 ∧ !testing d t then toCold t d else d

/-- GROUP_CLOSE: a group with no ticket outstanding closes, and its trays with POWER_FLOOR 0 go Cold (R111). -/
def groupClose (plane pers : Nat) (d : Dev) : Dev :=
  if d.tray.outst.any fun o => o.tk.plane == plane && o.tk.pers == pers then d
  else forEach ((bakeTrays d plane pers).filter fun t => !d.getB (R.TRY_TC_STATE_POWER_FLOOR t) && !d.draining t)
    (fun t d => trayGoesCold t (d.setB (R.TRY_TC_STATE_GOING_COLD t) true)) d

/-- Usable rolls at Bake of a group. -/
def usableRolls (d : Dev) (plane pers : Nat) : Nat :=
  ((bakeTrays d plane pers).map fun t =>
    ((List.range rollCount).filter fun r => bitAt (d.getF (R.TRY_TC_ROLLS_USABLE t)) r).length).foldl (· + ·) 0

/-- The load of a group as a fraction: numerator and denominator in ns (R113). -/
def loadOf (d : Dev) (g : GroupTime) : Nat × Nat :=
  (g.busy + (groupLoad d g.plane g.pers).1 * g.mean, usableRolls d g.plane g.pers * 1000000)

/-- The load of a group is at least a percentage, scaled by p/q. -/
def loadAtLeast (l : Nat × Nat) (pct : Nat) : Bool := decide (l.1 * 100 ≥ pct * l.2)

/-- One load is above another. -/
def loadAbove (a b : Nat × Nat) : Bool := decide (a.1 * b.2 > b.1 * a.2)

/-- The open group of a plane with the highest load. -/
def highest (d : Dev) (l : List GroupTime) : Option GroupTime :=
  l.foldl (fun b g =>
    match b with
    | none => some g
    | some x => if loadAbove (loadOf d g) (loadOf d x) then some g else some x) none

/-- The open group with the lowest load. -/
def lowest (d : Dev) (l : List GroupTime) : Option GroupTime :=
  l.foldl (fun b g =>
    match b with
    | none => some g
    | some x => if loadAbove (loadOf d x) (loadOf d g) then some g else some x) none

/-- Donor tray for a group (R113): a Cold tray whose own group keeps enough trays without it, else the highest Bake tray
of the least loaded open group that can spare one. A tray under test is not taken (R115). -/
def donor (d : Dev) (l : List GroupTime) (plane pers : Nat) : Option Nat :=
  let may := fun t => d.plane t == plane && d.pers t != pers && bitAt (d.getF (R.TRY_TC_STATE_ALLOWED t)) pers &&
    !testing d t && !d.draining t
  match (List.range trayCount).find? fun t =>
      may t && d.power t == 0 && decide ((groupTrays d plane (d.pers t)).length > 2) with
  | some t => some t
  | none =>
    let hs := l.filter fun g => g.plane == plane && g.pers != pers &&
      (let n := (bakeTrays d plane g.pers).length
       let x := loadOf d g
       decide (n ≥ 3 ∧ x.1 * n * 100 ≤ d.getF R.TRY_REBAL_LO_PCT * x.2 * (n - 1))) &&
      (bakeTrays d plane g.pers).any may
    match lowest d hs with
    | none => none
    | some h => ((bakeTrays d plane h.pers).filter may).reverse.head?

/-- Key of a group in the table of groups. -/
def groupKey (plane pers : Nat) : Nat := plane * 256 + pers

/-- Count successive periods at or above HI_PCT: the group with the highest load of each plane, others start again. -/
def countPeriods (l : List GroupTime) (d : Dev) : Dev :=
  let tops := (List.range 3).filterMap fun p => highest d (l.filter fun g => g.plane == p)
  let hot := tops.filter fun g => loadAtLeast (loadOf d g) (d.getF R.TRY_REBAL_HI_PCT)
  let t := hot.foldl (fun t g =>
    let k := groupKey g.plane g.pers
    tabPut t k ⟨(tabGet ⟨0⟩ d.tray.groups k).hot + 1⟩) ([] : Tab Group)
  { d with tray := { d.tray with groups := t } }

/-- Re-balancing may start: the slot is free, no image is being applied, and 1 ms has passed since the last tray rebake (R45,
R46). -/
def mayRebalance (d : Dev) : Bool := d.img.rebake.isNone && d.img.apply.isNone && !d.img.spacing

/-- Start a re-balancing rebake (R113). A damaged held record refuses it (R66). -/
def startRebalance (t pers : Nat) (d : Dev) : Dev :=
  let k := regionKey 3 t
  if !mayRebalance d || d.img.damaged.contains k || d.img.damaged.contains (regionKey 8 pers) then d
  else if !recCrcOk (imgRecord (heldImage d) k) then startReread k d
  else startRebake .rebalance k pers (tabGet [] d.img.loaded k) d

/-- REBALANCE_TICK: loads are computed and a needy group may get a tray (R113). The operand holds what the last 1 ms
showed of each open group. -/
def rebalanceTick (l : List GroupTime) (d : Dev) : Dev :=
  let l := l.filter fun g => groupOpen d g.plane g.pers
  let d1 := countPeriods l d
  let needy := l.filter fun g => decide ((tabGet ⟨0⟩ d1.tray.groups (groupKey g.plane g.pers)).hot ≥ 2)
  match highest d1 (needy.filter fun g => (donor d1 l g.plane g.pers).isSome) with
  | none => d1
  | some g =>
    match donor d1 l g.plane g.pers with
    | some t => startRebalance t g.pers d1
    | none => d1

/-- A roll may be tested (R114, R115): its tray is not fenced, it is not permanently fenced, and it is not the last usable
roll of its tray. -/
def lastUsable (d : Dev) (t r : Nat) : Bool := d.getF (R.TRY_TC_ROLLS_USABLE t) == 2 ^ r

/-- A roll of the rotation is tested: not on a Cold or fenced tray, not fenced, not the last usable one (R114). -/
def rotationOk (d : Dev) (n : Nat) : Bool :=
  let t := n / 16
  let r := n % 16
  (d.power t == 1 || d.power t == 2) && d.rollState t r != 6 && !d.getB (R.TRY_ROLL_STATE_PERM t r) && !lastUsable d t r &&
    !d.draining t

/-- TEST_PERIOD_EXPIRY: the next eligible roll in rotation is requested; the rotation yields to a test that waits or runs
(R114). -/
def testPeriodExpiry (d : Dev) : Dev :=
  if d.getF R.TRY_TEST_PERIOD_PERIOD_MS = 0 then d
  else if d.tray.test.phase ≠ 0 ∨ (testDue d).isSome then nextTest d
  else
    match (List.range 384).find? fun k => rotationOk d ((d.tray.test.rotation + k) % 384) with
    | none => d
    | some k =>
      let n := (d.tray.test.rotation + k) % 384
      beginTest (n / 16) (n % 16) false
        { d with tray := { d.tray with test := { d.tray.test with rotation := (n + 1) % 384 } } }

/-- TEST_PERIOD_WRITE: the interval is set and restarts; 0 stops the rotation, whose place stays (R114). -/
def testPeriodWrite (v : Nat) (d : Dev) : Dev := d.setF R.TRY_TEST_PERIOD_PERIOD_MS v

/-- TEST_REQUEST: a host write of `TRY_TEST_CMD` (R114, R115). -/
def testRequest (tray roll : Nat) (go : Bool) (d : Dev) : Dev :=
  let t := tray % 32
  let r := roll % 16
  let res := fun n (d : Dev) => d.setF R.TRY_TEST_STATUS_RESULT n
  if !go then d
  else if t ≥ trayCount then res 6 d
  else if d.tray.test.phase ≠ 0 then res 5 d
  else if d.power t = 3 ∨ d.getB (R.TRY_ROLL_STATE_PERM t r) then res 3 d
  else if lastUsable d t r then res 4 d
  else beginTest t r true (res 0 d)

/-- ROLL_TEST_START: the roll under test is idle and its test begins; the tray shrinks by one roll (R115). -/
def rollTestStart (d : Dev) : Dev :=
  let t := d.tray.test.roll / 16
  let r := d.tray.test.roll % 16
  if d.tray.test.phase = 1 ∧ (d.rollState t r = 0 ∨ d.rollState t r = 6) ∧ d.power t = 2 then
    setRoll t r 4 ({ d with tray := { d.tray with test := { d.tray.test with phase := 2 } } }.setF
      R.TRY_TEST_STATUS_STATE 2)
  else d

/-- A test ends: a host-requested one leaves its result (R115). -/
def endTest (result : Nat) (d : Dev) : Dev :=
  let d1 := { d with tray := { d.tray with test := { d.tray.test with phase := 0, host := false } } }
  let d2 := d1.setF R.TRY_TEST_STATUS_STATE 0
  nextTest (if d.tray.test.host then d2.setF R.TRY_TEST_STATUS_RESULT result else d2)

/-- ROLL_TEST_DONE: a pass starts the reload; a failure fences the roll for good (R115). `LAST_TEST` is 1 for a pass and 2
for a failure. -/
def rollTestDone (pass : Bool) (d : Dev) : Dev :=
  let t := d.tray.test.roll / 16
  let r := d.tray.test.roll % 16
  if d.tray.test.phase ≠ 2 then d
  else if pass then
    ((setRoll t r 5 { d with tray := { d.tray with test := { d.tray.test with phase := 3 } } }).setF
      R.TRY_TEST_STATUS_STATE 3).setF (R.TRY_ROLL_STATE_LAST_TEST t r) 1
  else
    let d1 := ((setRoll t r 6 d).setB (R.TRY_ROLL_STATE_PERM t r) true).setF (R.TRY_ROLL_STATE_LAST_TEST t r) 2
    endTest 2 (d1.postAt 0x0803 (sa 8 t r 0) [t, r])

/-- ROLL_RELOAD_DONE: the roll is usable again (R115). -/
def rollReloadDone (d : Dev) : Dev :=
  let t := d.tray.test.roll / 16
  let r := d.tray.test.roll % 16
  if d.tray.test.phase ≠ 3 then d else endTest 1 (syncDepth t (setRoll t r 0 d))

/-- ROLL_WATCHDOG: a ticket has not finished 24 µs after dispatch (R92, R116). -/
def rollWatchdog (t r : Nat) (d : Dev) : Dev :=
  if 1 ≤ d.rollState t r ∧ d.rollState t r ≤ 3 then nextTest (rollFault t r 1 d) else d

/-- SEQUENCER_PARITY_ERROR: the roll faults (R90, R116). -/
def sequencerParityError (t r : Nat) (d : Dev) : Dev :=
  if d.rollState t r = 6 ∨ d.power t = 3 then d else nextTest (rollFault t r 2 d)

/-- TRAY_POLL: one round of polls; `missed` has a bit for each controller that did not answer. The second miss in succession
faults the tray (R116). A tray that is Cold or fenced is not polled for a fault. -/
def trayPoll (missed : Nat) (d : Dev) : Dev :=
  forEach (List.range trayCount) (fun t d =>
    if d.power t ≠ 2 then d
    else if bitAt missed t then
      if (d.trayX t).missed ≥ 1 then trayFault t d else d.modTray t fun x => { x with missed := x.missed + 1 }
    else d.modTray t fun x => { x with missed := 0 }) d

/-- TRAY_SELF_CHECK_FAIL: a controller reports a failed self-check (R116). -/
def traySelfCheckFail (t : Nat) (d : Dev) : Dev := if d.power t = 3 then d else trayFault t d

/-- Fewer than two Bake trays are left of a group: a Cold tray of it is woken, else a donor is rebaked (R118). -/
def restoreGroup (plane pers : Nat) (d : Dev) : Dev :=
  if (bakeTrays d plane pers).length ≥ 2 then d
  else match (groupTrays d plane pers).find? fun t => d.power t == 0 with
    | some t => wakeTray t d
    | none =>
      match donor d [] plane pers with
      | some t => startRebalance t pers d
      | none => d

/-- TRAY_FENCE_COMPLETE: port closed and no steal in flight from the tray: its slots are gone, a new table is built, its
tickets are issued again, and it restarts or stays fenced (R116 to R118). Steals still in flight keep the fence open; the issuers have
every move notice sent before it is complete. -/
def trayFenceComplete (t : Nat) (d : Dev) : Dev :=
  if !(d.trayX t).fencing || d.tray.steals.any (fun s => s.src == t) then d
  else
    let d1 := d.modTray t fun x => { x with ring := [], fencing := false }
    let d2 := bumpStructure (syncDepth t d1)
    let d2 := forEach d2.tray.notices (fun n d => moveNotice n.issuer n.seq d) d2
    let lost := d2.tray.outst.filter fun o => o.tray == some t
    let d3 := forEach lost (fun o d => reissueTicket o true d) d2
    nextRebake (restoreGroup (d.plane t) (d.pers t) d3)

/-- MASK_RESEED: a roll's block unit is reseeded after 2^20 blocks, not while the TRNG is failed (R477). -/
def maskReseed (t r : Nat) (d : Dev) : Dev :=
  if d.getB R.SEC_TRNG_FAILED then d
  else (d.modRoll t r fun x => { x with blocks := 0 }).stat (R.TRY_ROLL_RESEEDS t r) 1

end Sys2Proof.Machine
end

