-- ==== Sys2Proof/Machine/Loader.lean ====
section
/-! DEFINITION. The image loader's commands (R58 to R87). -/

namespace Sys2Proof.Machine

/-- Begin a loader command: the error code of the last one is gone. -/
def startImgOp (op : ImgOp) (st : Nat) (d : Dev) : Dev :=
  setImgState st ({ d with img := { d.img with op := op } }.setF R.IMG_STATUS_ERR 0)

/-- Host writes of `IMG_CMD` while BUSY are ignored, but for ABORT (R87). -/
def whenIdle (f : Dev → Dev) (d : Dev) : Dev :=
  if d.getB R.IMG_STATUS_BUSY then d.setB R.IMG_STATUS_CMD_REJECTED true else f d

/-- Refuse a loader command with an error code. -/
def refuseImg (err : Nat) (d : Dev) : Dev := endImgOp 7 err d

/-- The verified pending image, when one is held (R62). -/
def verified (d : Dev) : Option Bytes := d.img.pending

/-- Fetch the pushed image by DMA as the physical function (R62). A length above 16 MiB fails step 3 at once. -/
def fetchPush (op : ImgOp) (d : Dev) : Dev :=
  let d1 := { d with img := { d.img with pending := none } }
  let len := d1.getF R.IMG_PUSH_LEN_LEN
  if len > 0x1000000 then (refuseImg 3 d1).err R.E_IMG_REJECTS
  else if !d1.dmaOn then refuseImg 0x16 d1
  else (startImgOp op 1 d1).hostRead .imagePush (d1.getF R.IMG_PUSH_ADDR_ADDR * 4096) len none

/-- Fetch a slot over QSPI (R60, R62). -/
def fetchSlot (op : ImgOp) (slot : Nat) (d : Dev) : Dev :=
  (startImgOp op 1 { d with img := { d.img with pending := none } }).emit (.qspi 0 (slot * 0x1000000) 0x1000000)

/-- Trays that a walk over an apply's trays leaves in each place: tray, plane, personality, Cold and ALLOWED (R72). -/
structure SimTray where
  t : Nat
  plane : Nat
  pers : Nat
  cold : Bool
  allowed : Nat
  deriving DecidableEq, Repr

/-- The trays of the running structure that are not fenced. -/
def simTrays (d : Dev) : List SimTray :=
  ((List.range trayCount).filter fun t => d.power t != 3).map fun t =>
    ⟨t, d.plane t, d.pers t, d.power t == 0, d.getF (R.TRY_TC_STATE_ALLOWED t)⟩

/-- One tray of an apply in the walk: none where its personality would be left without a tray (R72, R75). -/
def simStep (d : Dev) (img : Bytes) (l : Option (List SimTray)) (t : Nat) : Option (List SimTray) :=
  match l with
  | none => none
  | some ts =>
    match ts.find? fun x => x.t == t with
    | none => some ts
    | some x =>
      if !(differs d img (regionKey 3 t) || differs d img (regionKey 8 x.pers)) then some ts
      else
        let alone := !ts.any fun y => y.t != t && y.plane == x.plane && y.pers == x.pers
        let rec' := imgRecord img (regionKey 3 t)
        let put := fun (ts : List SimTray) => mapWhere (fun y => y.t == t) (fun y => { y with
          plane := fieldAt rec' 16 1, pers := recPers rec', cold := false, allowed := fieldAt rec' 18 2 }) ts
        if alone && !x.cold then
          match ts.find? fun y => y.t != t && y.plane == x.plane && y.cold && bitAt y.allowed x.pers with
          | some y => some (put (mapWhere (· == y) (fun y => { y with pers := x.pers, cold := false }) ts))
          | none => none
        else some (put ts)

/-- Some personality would be left with no tray in its plane (R72). -/
def uncovered (d : Dev) (img : Bytes) : Bool :=
  ((List.range trayCount).foldl (simStep d img) (some (simTrays d))).isNone

/-- The refusal code of an apply of an image before any region changes, 0 for none (R72, R81). -/
def applyRefusal (oos : Bool) (img : Bytes) (d : Dev) : Nat :=
  if !oos && differs d img (regionKey 7 0) then 0x0D
  else if uncovered d img then 0x0E
  else if (oos || differs d img (regionKey 5 0)) && !d.peerUp then 0x0F
  else 0

/-- Show a slot's check (R63, R87). -/
def showSlot (slot err : Nat) (img : Bytes) (d : Dev) : Dev :=
  let svn := if err = 0 then fieldAt img 32 2 else 0
  let id := if err = 0 then fieldAt img 24 8 else 0
  if slot = 0 then
    (((d.setB R.IMG_SLOT_A_VALID (err == 0)).setF R.IMG_SLOT_A_ERR err).setF R.IMG_SLOT_A_SVN svn).wr R.IMG_SLOT_A_ID id
  else
    (((d.setB R.IMG_SLOT_B_VALID (err == 0)).setF R.IMG_SLOT_B_ERR err).setF R.IMG_SLOT_B_SVN svn).wr R.IMG_SLOT_B_ID id

/-- The image boots: every region takes its record, trays come to Bake or Cold, the held copy is the image (R60, R66, R110). -/
def bootImage (slot : Nat) (b : Bytes) (d : Dev) : Dev :=
  let d1 := forEach (imgEntries b) (fun e d => loadRecord e.key (recPers (slice b e.off e.len)) (slice b e.off e.len) d) d
  let d2 := forEach (List.range trayCount) (fun t d =>
    if d.getB (R.TRY_TC_STATE_POWER_FLOOR t) then setPower t 2 (d.setF ⟨R.CLK_DOMAINS, 8 + t, 1⟩ 1) else toCold t d) d1
  let sig := fieldAt b 20 4
  let d3 := (((d2.wr R.IMG_RUN_ID (fieldAt b 24 8)).setF R.IMG_RUN_SVN_SVN (fieldAt b 32 2)).setF R.IMG_KEYS_RUN_KEY
    (fieldAt b (sig + 4) 1)).setF R.IMG_BOOT_BOOTED slot
  let d4 := { d3 with img := { d3.img with held := some b, bankActive := imgRecord b (regionKey 1 0) } }
  let d5 := forEach ((List.range 3).flatMap fun p => (List.range 11).map fun c => (p, c)) (fun g d =>
    if (groupTrays d g.1 g.2).length = 1 then d.post 0x0805 [g.1, g.2] else d) d4
  endImgOp 0 0 (bumpStructure d5)

/-- Start an apply of a verified image (R67, R72, R81, R84). In NO_IMAGE no region runs, and every one starts from the pushed
image (R61). -/
def startApply (oos : Bool) (img : Bytes) (d : Dev) : Dev :=
  let err := applyRefusal oos img d
  if d.noImage && !oos then (bootImage 3 img d).post 0x0104 [fieldAt img 24 8]
  else if err ≠ 0 then refuseImg err d
  else
    let wait := (oos || differs d img (regionKey 5 0)) && migrating d
    let a : Apply := ⟨img, oos, if oos then 1 else 0, applyOrder oos, [], false, 0, wait || oos⟩
    let d1 := setImgState 5 { d with img := { d.img with apply := some a, op := if oos then .applyOos else .apply } }
    if oos && !wait then { d1 with nvm := { d1.nvm with handoff := servedInsts d1 } } else nextRebake d1

/-- VERIFY (R62). -/
def imgVerify (d : Dev) : Dev := whenIdle (fetchPush .verify) d

/-- The other slot passes verification when last checked. -/
def otherValid (slot : Nat) (d : Dev) : Bool :=
  if slot = 0 then d.getB R.IMG_SLOT_B_VALID else d.getB R.IMG_SLOT_A_VALID

/-- WRITE_SLOT (R62 to R64): erase, program and read back. -/
def imgWriteSlot (slot : Nat) (d : Dev) : Dev :=
  whenIdle (fun d =>
    let s := slot % 2
    if (verified d).isNone then refuseImg 0x17 d
    else if d.getF R.IMG_BOOT_BOOTED = s ∧ !otherValid s d then refuseImg 0x14 d
    else if d.img.reread.isSome then refuseImg 0x15 d
    else
      let d1 := startImgOp (.writeSlot s) 4 d
      let d2 := { d1 with img := { d1.img with slotWrite := some (s, .erase) } }
      d2.emit (.qspi 1 (s * 0x1000000) 0x1000000)) d

/-- APPLY (R62). -/
def imgApply (d : Dev) : Dev :=
  whenIdle (fun d =>
    match verified d with
    | some img => startApply false img (startImgOp .apply 5 d)
    | none => fetchPush .apply d) d

/-- APPLY_SLOT (R62, R72). -/
def imgApplySlot (slot : Nat) (d : Dev) : Dev :=
  whenIdle (fun d =>
    if d.img.reread.isSome then refuseImg 0x15 d else fetchSlot (.applySlot (slot % 2)) (slot % 2) d) d

/-- APPLY_OOS (R81). -/
def imgApplyOos (d : Dev) : Dev :=
  whenIdle (fun d =>
    match verified d with
    | some img => startApply true img (startImgOp .applyOos 5 d)
    | none => refuseImg 0x17 d) d

/-- End a drain early: the region returns to service with its old record (R83, R86). -/
def cancelDrain (rb : Rebake) (d : Dev) : Dev :=
  let d1 := { d with img := { d.img with rebake := none }, nvm := { d.nvm with handoff := [] } }
  if rb.key / 65536 = 3 then d1.setB (R.TRY_TC_STATE_DRAIN (rb.key % 65536)) false else d1

/-- The rebake in progress belongs to the apply. -/
def applyOwned (rb : Rebake) : Bool := rb.owner == .apply || rb.owner == .spare

/-- ABORT (R86): the pending image is dropped during a fetch or a verification; an apply ends and is rolled back. It has no
effect during WRITE_SLOT. -/
def imgAbort (d : Dev) : Dev :=
  let st := d.getF R.IMG_STATUS_STATE
  if st = 1 ∨ st = 2 then
    let rs := mapWhere (fun r => r.work == .imagePush) (fun r => { r with discard := true }) d.hep.reads
    endImgOp 0 0 { d with img := { d.img with pending := none }, hep := { d.hep with reads := rs } }
  else if st = 5 then
    match d.img.apply with
    | some a =>
      let d1 := match d.img.rebake with
        | some rb => if applyOwned rb && (rb.phase == .draining || rb.phase == .bankLoading) then cancelDrain rb d else d
        | none => d
      goRollback { a with waiting := false } 0 d1
    | none => d
  else if st = 3 then endImgOp 0 0 { d with img := { d.img with pending := none } }
  else d

/-- Begin to blow fuses: BUSY is 1 until they are programmed, and STATE stays (log entry 11). -/
def startFuse (op : ImgOp) (d : Dev) : Dev :=
  let d1 := (d.setF R.IMG_STATUS_ERR 0).setB R.IMG_STATUS_BUSY true
  { d1 with img := { d1.img with op := op } }

/-- RAISE_SVN (R87): fuses are blown to raise the minimum SVN to the running image's. -/
def raiseSvn (d : Dev) : Dev := whenIdle (fun d => if d.noImage then d else startFuse .raise d) d

/-- REVOKE (R87): refused for the slot that signed the running image and where no enrolled slot would stay valid. -/
def imgRevoke (key : Nat) (d : Dev) : Dev :=
  whenIdle (fun d =>
    let k := key % 4
    let left := (List.range 4).any fun n =>
      n != k && (tabFind d.sec.fuses.hashes n).isSome && !bitAt d.sec.fuses.revoked n
    if (!d.noImage && d.getF R.IMG_KEYS_RUN_KEY == k) || !left then refuseImg 5 d
    else startFuse (.revoke k) d) d

/-- REAPPLY (R66, R75, R87): one region of the running image is rebaked from the held copy. -/
def imgReapply (region : Nat) (d : Dev) : Dev :=
  whenIdle (fun d =>
    match (imgEntries (heldImage d))[region % 256]? with
    | none => refuseImg 3 d
    | some e =>
      let k := e.key
      let rec' := imgRecord (heldImage d) k
      if d.img.damaged.contains k then refuseImg 0x0A d
      else if e.type = 3 ∧ onlyTray d e.unit ∧ d.power e.unit ≠ 0 ∧ (coldSpare d (d.plane e.unit) (d.pers e.unit)
          e.unit).isNone then refuseImg 0x0E d
      else if e.type = 5 ∧ !d.peerUp then refuseImg 0x0F d
      else
        let d1 := startImgOp (.reapply k) 5 d
        if !recCrcOk rec' then startReread k d1
        else if d1.img.rebake.isSome ∨ (e.type = 3 ∧ d1.img.spacing) then d1
        else startRebake .reapply k (if e.type = 3 then recPers rec' else 0) rec' d1) d

/-- The region a REAPPLY waits to rebake, once the slot is free (R45, R46). -/
def nextReapply (d : Dev) : Dev :=
  match d.img.op with
  | .reapply k =>
    if d.img.rebake.isSome ∨ d.img.reread.isSome ∨ (k / 65536 = 3 ∧ d.img.spacing) then d
    else
      let r := imgRecord (heldImage d) k
      startRebake .reapply k (if k / 65536 = 3 then recPers r else 0) r d
  | _ => d

/-- The slot is free again: whatever waits for it goes on. -/
def afterRebake (d : Dev) : Dev :=
  let d1 := nextRebake d
  if d1.img.rebake.isNone then nextReapply d1 else d1

/-- No image passes (R61). -/
def noImageState (d : Dev) : Dev :=
  (setImgState 8 { d with img := { d.img with op := .none } }).post 0x0102 [d.rd R.IMG_BOOT]

/-- The image of a start-up fetch has been checked (R60). -/
def bootChecked (slot : Nat) (b : Bytes) (err : Nat) (d : Dev) : Dev :=
  let d1 := showSlot slot err b d
  if err = 0 then
    let d2 := bootImage slot b d1
    if slot = 1 then d2.post 0x0101 [d2.rd R.IMG_BOOT] else d2
  else
    let d2 := d1.err R.E_IMG_REJECTS
    if slot = 0 then fetchSlot (.boot 1) 1 (d2.setF R.IMG_BOOT_ERR_A err)
    else noImageState (d2.setF R.IMG_BOOT_ERR_B err)

/-- A fetched image has been verified for a command of the host (R58, R62). -/
def fetchChecked (op : ImgOp) (b : Bytes) (err : Nat) (d : Dev) : Dev :=
  if err ≠ 0 then (endImgOp 7 err { d with img := { d.img with pending := none } }).err R.E_IMG_REJECTS
  else
    let d1 := { d with img := { d.img with pending := some b } }
    match op with
    | .verify => endImgOp 3 0 d1
    | .apply => startApply false b d1
    | .applySlot s => startApply false b (showSlot s 0 b d1)
    | _ => d1

/-- IMAGE_FETCH_DONE: the last byte of a pushed or slot image has arrived and verification ends (R58, R60, R62). The operand
is the bytes fetched. -/
def imageFetchDone (b : Bytes) (d : Dev) : Dev :=
  match d.img.op with
  | .boot s => bootChecked s b (verifyImage d b) d
  | .verify => if d.getF R.IMG_STATUS_STATE = 1 then fetchChecked .verify b (verifyImage d b) d else d
  | .apply => if d.getF R.IMG_STATUS_STATE = 1 then fetchChecked .apply b (verifyImage d b) d else d
  | .applySlot s =>
    if d.getF R.IMG_STATUS_STATE = 1 then
      let e := verifyImage d b
      fetchChecked (.applySlot s) b e (if e = 0 then d else showSlot s e b d)
    else d
  | _ => d

/-- QSPI_OPERATION_DONE: an erase, program or read-back of a slot write ends (R63). `ok` tells whether the flash succeeded;
`data` is what a read-back returned. -/
def qspiOperationDone (ok : Bool) (data : Bytes) (d : Dev) : Dev :=
  match d.img.slotWrite, d.img.pending with
  | some (s, ph), some img =>
    let stop := fun (err : Nat) (d : Dev) =>
      endImgOp (if err = 0 then 3 else 7) err { d with img := { d.img with slotWrite := none } }
    let go := fun (p : SlotPhase) (op : Nat) (d : Dev) =>
      ({ d with img := { d.img with slotWrite := some (s, p) } }).emit (.qspi op (s * 0x1000000) img.length)
    match ph with
    | .erase => if ok then go .program 2 d else stop 0x12 (showSlot s 1 [] d)
    | .program => if ok then go .readBack 0 d else stop 0x12 (showSlot s 1 [] d)
    | .readBack =>
      let e := verifyImage d data
      if data ≠ img then stop 0x13 (showSlot s (if e = 0 then 0x13 else e) data d)
      else if e ≠ 0 then stop e (showSlot s e data d)
      else stop 0 (showSlot s 0 data d)
  | _, _ => d

/-- SLOT_RECORD_REREAD_DONE: a record of the held copy that failed its CRC has been read again from a slot (R66). A good
record takes its place in the held copy; otherwise the region is damaged and its rebake is refused with error 0Ah. -/
def slotRecordRereadDone (rec' : Bytes) (d : Dev) : Dev :=
  match d.img.reread with
  | none => d
  | some (k, _) =>
    let d1 := { d with img := { d.img with reread := none } }
    match (imgEntries (heldImage d1)).find? fun e => e.key == k with
    | some e =>
      if rec'.length = e.len ∧ recCrcOk rec' then
        nextReapply { d1 with img := { d1.img with held := some (overlay (heldImage d1) e.off rec') } }
      else
        let d2 := markDamaged k d1
        if d2.img.op == .reapply k then refuseImg 0x0A d2 else d2
    | none => d1

/-- APPLY_RESUME: a waiting apply goes on once the migrations that held it have ended (R84, R85). -/
def applyResume (d : Dev) : Dev :=
  match d.img.apply with
  | some a =>
    if d.getF R.IMG_STATUS_STATE = 5 ∧ a.waiting ∧ !migrating d then
      if a.oos then
        if a.oosPhase = 1 ∧ d.nvm.handoff = [] then
          { d with nvm := { d.nvm with handoff := servedInsts d } }
        else d
      else nextRebake { d with img := { d.img with apply := some { a with waiting := false } } }
    else d
  | none => d

/-- TRAY_REBAKE_SPACING_EXPIRY: 1 ms has passed since the last tray rebake began (R46). -/
def trayRebakeSpacingExpiry (d : Dev) : Dev := afterRebake { d with img := { d.img with spacing := false } }

/-- REGION_DRAIN_END (R73 to R79). -/
def regionDrainEndCmd (d : Dev) : Dev := regionDrainEnd d

/-- REGION_RESTART: a loaded region restarts, or fails to (R68, R70). -/
def regionRestart (ok : Bool) (d : Dev) : Dev :=
  match d.img.rebake with
  | some rb => if rb.phase == .loading then afterRebake (endRestart ok rb d) else d
  | none => d

/-- HEARTH_BANK_LOAD_DONE: the shadow bank holds the new record and the pause begins (R80). -/
def hearthBankLoadDone (d : Dev) : Dev :=
  match d.img.rebake with
  | some rb =>
    if rb.phase == .bankLoading then
      { d.setB R.IMG_HBANK_SHADOW_VALID false with img := { d.img with
        bankShadow := rb.record, rebake := some { rb with phase := .bankPause } } }
    else d
  | none => d

/-- HEARTH_BANK_SWAP: the banks exchange roles; the former active bank is kept (R80). -/
def hearthBankSwap (d : Dev) : Dev :=
  match d.img.rebake with
  | some rb =>
    if rb.phase == .bankPause then
      let d1 := (d.setF R.IMG_HBANK_ACTIVE (1 - d.getF R.IMG_HBANK_ACTIVE)).setB R.IMG_HBANK_SHADOW_VALID true
      let d2 := { d1 with img := { d1.img with bankActive := d.img.bankShadow, bankShadow := d.img.bankActive } }
      afterRebake (endRestart true rb d2)
    else d
  | none => d

end Sys2Proof.Machine
end

