-- ==== Sys2Proof/Machine/Hearth0.lean ====
section
/-! DEFINITION. The time base (R542). -/

namespace Sys2Proof.Machine

/-- Nanoseconds that one step with nothing to do stands for: the time base counts in steps of 20 ns (R542; log entry 12). -/
def tickNs : Nat := 20

/-- The frequency adjustment in ppb: 24-bit two's complement. -/
def freqPpb (d : Dev) : Int :=
  let v := d.getF R.HTH_TIME_ADJ_FREQ_PPB
  if v < 2 ^ 23 then v else (v : Int) - 2 ^ 24

/-- Set the frequency adjustment. -/
def setFreq (ppb : Int) (d : Dev) : Dev := d.setF R.HTH_TIME_ADJ_FREQ_PPB (ppb % 2 ^ 24).toNat

/-- The time base counts on, corrected by the frequency adjustment (R542). -/
def tickTime (d : Dev) : Dev :=
  let total := ((tickNs : Int) * (1000000000 + freqPpb d)).toNat + d.hth.frac
  { d.wr R.HTH_TIME ((d.now + total / 1000000000) % 2 ^ 64) with hth := { d.hth with frac := total % 1000000000 } }

/-- Step the time base forward. -/
def stepTime (v : Nat) (d : Dev) : Dev := (d.wr R.HTH_TIME (v % 2 ^ 64)).setB R.HTH_TIME_ADJ_STEPPED true

/-- Correct the time base by a number of ns (R542): a positive correction beyond STEP_THRESH_US is made at once, a negative one is slewed at
1,000 ppm; any other by the servo, whose gains the spec does not give: its adjustment within 500 ppm is free (log entry 1). -/
def steer (corr : Int) (d : Dev) : Dev :=
  let lim : Int := (d.getF R.HTH_PARAM1_STEP_THRESH_US : Int) * 1000
  if corr > lim then stepTime (d.now + corr.toNat) d
  else if corr < -lim then setFreq (-1000000) d
  else
    let r := d.drawNat 1000001
    setFreq ((r.1 : Int) - 500000) r.2

end Sys2Proof.Machine
end

