-- ==== Sys2Proof/Machine/LinkOps.lean ====
section
/-! DEFINITION. Operations of a media link: credits, tags, frames, going down (R314 to R337, R603). -/

namespace Sys2Proof.Machine

/-- A link that is down, with nothing waiting. -/
def linkFresh : Link := ⟨false, 0, 0, [], 0, false, 0, 0, 0, [], 0, [], [], [], [], [], false⟩

/-- A media link. -/
def Dev.link (d : Dev) (m : Nat) : Link := tabGet linkFresh d.links m

/-- Change a media link. -/
def Dev.modLink (d : Dev) (m : Nat) (f : Link → Link) : Dev := { d with links := tabPut d.links m (f (d.link m)) }

/-- Phases of `MED_L_STATE.PHASE`: Down, Detect, Equalise, Lock, Ident, Credit, Up, Retrain. -/
def lpDown : Nat := 0
/-- Detect. -/
def lpDetect : Nat := 1
/-- Equalise. -/
def lpEqualise : Nat := 2
/-- Lock. -/
def lpLock : Nat := 3
/-- Ident. -/
def lpIdent : Nat := 4
/-- Credit. -/
def lpCredit : Nat := 5
/-- Up. -/
def lpUp : Nat := 6
/-- Retrain. -/
def lpRetrain : Nat := 7

/-- Phase of a link. -/
def Dev.linkPhase (d : Dev) (m : Nat) : Nat := d.getF (R.MED_L_STATE_PHASE m)

/-- Set a link's phase; `MED_LINK_UP` follows it. A retrain keeps the link up (R335). -/
def setPhase (m p : Nat) (d : Dev) : Dev :=
  (d.setF (R.MED_L_STATE_PHASE m) p).setF ⟨R.MED_LINK_UP, m, 1⟩ (b2n (p == 6 || p == 7))

/-- The link is Up. -/
def Dev.linkUp (d : Dev) (m : Nat) : Bool := d.linkPhase m == lpUp

/-- Bring the level registers of a link's queue up to date. -/
def syncLink (m : Nat) (d : Dev) : Dev :=
  ((d.setF (R.MED_L_QUEUE_TAGS m) (d.link m).tags.length).setF (R.MED_L_QUEUE_CMD_CREDITS m)
    (Nat.min (d.link m).cmdCred 511)).setF (R.MED_L_DATA_CREDITS_CREDITS m) (Nat.min (d.link m).dataCred 65535)

/-- Data credits a payload takes (R320). -/
def dataUnits (n : Nat) : Nat := (n + 4095) / 4096

/-- The generation check of R331 does not hold for STATUS, SB_READ, WITNESS_READ, WITNESS_CAS, FENCE and ECHO. -/
def exemptOp (op : Nat) : Bool := [6, 7, 9, 0x0A, 0x0B, 0x0D].contains op

/-- Commands a self-fenced head may still send: STATUS, WITNESS_READ and SB_READ (R495). -/
def fencedOp (op : Nat) : Bool := [6, 7, 9].contains op

/-- Generation presented on a link. -/
def Dev.fenceGen (d : Dev) (m : Nat) : Nat := d.getF (R.MED_L_FENCE_PRESENTED m)

/-- Send one command frame: tag, SOF with LSEQ, replay buffer, credits (R319, R320). -/
def sendCommand (m tag : Nat) (c : LinkCmd) (d : Dev) : Dev :=
  let l := d.link m
  let c' := { c with tag := tag }
  let d1 := d.modLink m fun l => { l with
    lseqTx := (l.lseqTx + 1) % 2 ^ 32, replay := l.replay ++ [(l.lseqTx, c')], cmdCred := l.cmdCred - 1,
    dataCred := l.dataCred - dataUnits c.payload.length, tags := l.tags ++ [c'] }
  let d2 := (d1.emit (.mediaCtl m 1 l.lseqTx)).emit
    (.media m tag c.opcode c.flags (d.fenceGen m) c.arg0 c.arg1 c.payload)
  syncLink m ((d2.stat (R.MED_L_TX_FRAMES m) 1).stat (R.MED_L_TX_BYTES m) c.payload.length)

/-- Send what waits on a link, oldest first, while credits and tags last. -/
def pumpQueue (m : Nat) (l : List LinkCmd) (d : Dev) : Dev :=
  match l with
  | [] => d
  | c :: rest =>
    let lk := d.link m
    if !d.linkUp m || lk.cmdCred = 0 || dataUnits c.payload.length > lk.dataCred then d
    else match lowestBelow 1024 (fun t => lk.tags.all fun x => x.tag != t) with
      | none => d
      | some t => pumpQueue m rest (sendCommand m t c (d.modLink m fun x => { x with queue := rest }))

/-- Send what waits on a link. -/
def pumpLink (m : Nat) (d : Dev) : Dev := pumpQueue m (d.link m).queue d

/-- The power-loss flush runs: its commands carry PLW (R318, R333). -/
def plwOn (d : Dev) : Bool := d.med.pla.phase != 0

/-- Issue a media command on a link (R317, R321). -/
def mediaCmd (m op flags arg0 arg1 : Nat) (payload : Bytes) (work : MedWork) (d : Dev) : Dev :=
  if d.fenced && !fencedOp op then d
  else
    let f := flags + (if plwOn d then 2 else 0)
    pumpLink m (d.modLink m fun l => { l with queue := l.queue ++ [⟨0, op, f, arg0, arg1, payload, work⟩] })

/-- Response payload a command implies (R321). -/
def responseLen (c : LinkCmd) : Nat :=
  match c.opcode with
  | 1 => bitsAt c.arg0 40 7 * 256
  | 2 => (((List.range 4).map fun q => bitsAt c.arg1 (16 * q + 8) 8).foldl (· + ·) 0) * 256
  | 6 => 64
  | 7 => 4096
  | 0x0D => c.payload.length
  | _ => 0

/-- Commands issued again when their link returns (R336). -/
def reissuedOp (op : Nat) : Bool := [5, 6, 7, 8, 9, 0x0C, 0x0D].contains op

/-- What becomes of a command outstanding when its link goes down (R336): issued again, or its witness read again, or left to
its owner as ended (encoded by the owner's commands). -/
def afterDown (c : LinkCmd) : List LinkCmd :=
  if reissuedOp c.opcode then [{ c with tag := 0 }]
  else if c.opcode = 0x0A then [⟨0, 9, 0, c.arg0, 0, [], c.work⟩]
  else if c.opcode = 0x0B then [⟨0, 9, 0, 0, 0, [], c.work⟩]
  else []

/-- A link goes down (R336): count, cause, and what was outstanding ends; commands that end are returned. -/
def linkDown (m cause : Nat) (d : Dev) : List LinkCmd × Dev :=
  if d.linkPhase m = lpDown then ([], d)
  else
    let l := d.link m
    let keep := l.tags.flatMap afterDown
    let ended := l.tags.filter fun c => (afterDown c).isEmpty
    let d1 := ((setPhase m lpDown d).setF (R.MED_L_STATE_DOWN_CAUSE m) cause).modLink m fun l => { l with
      hostDown := cause == 4, replay := [], replays := 0, discard := false, cmdCred := 0, dataCred := 0, idleRun := 0,
      tags := [], queue := keep ++ l.queue, lseqTx := 0, lseqRx := 0 }
    (ended, syncLink m (d1.err (R.E_MED_L_DOWNS m)))

/-- A response whose status does not fit its command (R603). -/
def unfitStatus (op st : Nat) : Bool :=
  st == 6 || st == 7 || st == 9 || (st == 1 && op != 3 && op != 4) || (st == 2 && op != 5) ||
    (st == 4 && op != 0x0A && op != 0x0B) || decide (st > 9)

/-- What a response means for the link: taken with its command, a fault that takes the link down, or nothing. -/
inductive RespFit where
  | taken (c : LinkCmd)
  | fault
  | idle
  deriving DecidableEq, Repr

/-- Match a response to its outstanding command (R322, R328, R603). A link that is not up receives nothing. -/
def fitResponse (m : Nat) (ops : List Nat) (r : MedResp) (d : Dev) : RespFit :=
  if d.linkPhase m ≠ lpUp ∧ d.linkPhase m ≠ lpRetrain then .idle
  else match (d.link m).tags.find? fun c => c.tag == r.tag && ops.contains c.opcode with
    | none => .fault
    | some c =>
      if r.status = 5 ∨ unfitStatus c.opcode r.status ∨
          (r.payload.length ≠ responseLen c ∧ r.status ≤ 2) then .fault
      else .taken c

/-- Take a command out of a link's tags, acknowledge the response frame and count it (R319); ALONE and FENCED show in the registers (R318, R331). -/
def takeResponse (m : Nat) (c : LinkCmd) (r : MedResp) (d : Dev) : Dev :=
  let l := d.link m
  let d1 := (d.modLink m fun l => { l with
    tags := l.tags.filter (fun x => x.tag != c.tag), lseqRx := (l.lseqRx + 1) % 2 ^ 32, discard := false }).emit (.mediaCtl m 2 l.lseqRx)
  let d2 := (((d1.stat (R.MED_L_RX_FRAMES m) 1).stat (R.MED_L_RX_BYTES m) r.payload.length).setB
    (R.MED_L_STATE_ALONE m) (bitAt r.flags 3))
  let d3 := if r.status = 3 then (d2.err (R.E_MED_L_FENCED m)).setB (R.MED_L_STATE_FENCED_SEEN m) true else d2
  pumpLink m (syncLink m d3)

end Sys2Proof.Machine
end

