-- ==== Sys2Proof/Machine/MediaOps.lean ====
section
/-! DEFINITION. Placement on flash: geometry, erase blocks, streams, staging pages, journal groups (R138 to R148, R266 to R283,
R296, R297, R304). -/

namespace Sys2Proof.Machine

/-- A module nothing is known of. -/
def moduleFresh : Module :=
  { id := 0, dies := 0, planes := 1, pages := 0, blocks := 0, slcPages := 0, eraseLimit := 0, readLimit := 0, spare := 0,
    known := false, unavail := none, openBlk := [], mPage := none, gPages := [], queued := 0, victim := none,
    collecting := false, scrub := 0 }

/-- An erase block that nothing has opened: FREE and never erased. -/
def blockFresh : EBlock :=
  { state := 0, stream := 0xFF, dieMask := 0, erases := 0, fill := 0, valid := 0, sealTime := 0, openJsn := 0, sumA := 0,
    sumB := 0, sumPages := 0, domains := 0, disturb := 0, summary := [], written := [],
    parity := [], closed := false, bare := false, units := [] }

/-- A module. -/
def Dev.module (d : Dev) (m : Nat) : Module := tabGet moduleFresh d.med.modules m
/-- Change a module. -/
def Dev.modModule (d : Dev) (m : Nat) (f : Module → Module) : Dev :=
  { d with med := { d.med with modules := tabPut d.med.modules m (f (d.module m)) } }
/-- An erase block by its key. -/
def Dev.eblock (d : Dev) (k : Nat) : EBlock := tabGet blockFresh d.med.blocks k
/-- Change an erase block. -/
def Dev.modBlock (d : Dev) (k : Nat) (f : EBlock → EBlock) : Dev :=
  { d with med := { d.med with blocks := tabPut d.med.blocks k (f (d.eblock k)) } }

/-- Key of an erase block. -/
def blkKey (m ebn : Nat) : Nat := m * 2 ^ 32 + ebn
/-- Module of an erase block's key. -/
def blkModule (k : Nat) : Nat := k / 2 ^ 32
/-- EBN of an erase block's key. -/
def blkEbn (k : Nat) : Nat := k % 2 ^ 32

/-- Smallest power of two's exponent that is not below `n`. -/
def clog2 (n : Nat) : Nat := ((List.range 41).find? fun k => decide (n ≤ 2 ^ k)).getD 40

/-- Width of the crumb offset within an erase block, k of R267. -/
def offBits (x : Module) : Nat := 10 + clog2 x.planes + clog2 x.pages
/-- Stripe groups of a module (R267). -/
def groupsOf (x : Module) : Nat := x.dies / 16
/-- Width of GROUP. -/
def groupBits (x : Module) : Nat := clog2 (groupsOf x)
/-- Address width W (R266). -/
def addrBits (x : Module) : Nat := offBits x + groupBits x + clog2 x.blocks
/-- EBN of a crumb index. -/
def ebnOf (x : Module) (crumb : Nat) : Nat := crumb / 2 ^ offBits x
/-- Offset of a crumb in its erase block. -/
def offOf (x : Module) (crumb : Nat) : Nat := crumb % 2 ^ offBits x
/-- First crumb of an erase block. -/
def blkBase (x : Module) (ebn : Nat) : Nat := ebn * 2 ^ offBits x
/-- BLOCK of an EBN. -/
def blockOf (x : Module) (ebn : Nat) : Nat := ebn / 2 ^ groupBits x
/-- GROUP of an EBN. -/
def groupOf (x : Module) (ebn : Nat) : Nat := ebn % 2 ^ groupBits x
/-- Crumbs of an erase block. -/
def blkCrumbs (x : Module) : Nat := 2 ^ offBits x
/-- The erase block of a crumb on a module. -/
def Dev.blkOf (d : Dev) (m crumb : Nat) : Nat := blkKey m (ebnOf (d.module m) crumb)

/-- The superblock geometry meets the conditions of R266; the page size is the superblock's PAGE_SIZE_KIB. -/
def geomOk (x : Module) (pageKib : Nat) : Bool :=
  pageKib == 16 && (x.planes == 1 || x.planes == 2 || x.planes == 4) && decide (64 ≤ x.pages ∧ x.pages ≤ 4096) &&
    2 ^ clog2 x.pages == x.pages && decide (x.planes * x.pages ≤ 1024) && x.dies % 32 == 0 &&
    decide (32 ≤ x.dies ∧ x.dies ≤ 1024) && decide (1024 ≤ x.blocks) && decide (16 ≤ x.slcPages) && decide (addrBits x ≤ 40)

/-- The module serves this head. -/
def Dev.modOn (d : Dev) (m : Nat) : Bool := d.getB (R.MED_M_STATE_IN_SERVICE m)
/-- The module is spent for this head (R297). -/
def Dev.spent (d : Dev) (m : Nat) : Bool := d.getB (R.MED_M_STATE_SPENT m)
/-- Modules in service. -/
def onModules (d : Dev) : List Nat := (List.range moduleCount).filter d.modOn

/-- The pool erase block of an ordinal of this head (R268, R269, R272). -/
def poolEbn (d : Dev) (x : Module) (k : Nat) : Nat :=
  (4 + k / (groupsOf x / 2)) * 2 ^ groupBits x + 2 * (k % (groupsOf x / 2)) + d.headNum
/-- Pool erase blocks of this head on a module. -/
def poolSize (x : Module) : Nat := (x.blocks - 4) * (groupsOf x / 2)
/-- An EBN is this head's and in the pool. -/
def ownPool (d : Dev) (x : Module) (ebn : Nat) : Bool :=
  decide (blockOf x ebn ≥ 4) && groupOf x ebn % 2 == d.headNum
/-- Own pool erase blocks of a module that are not FREE. -/
def usedBlocks (d : Dev) (m : Nat) : List (Nat × EBlock) :=
  d.med.blocks.filter fun e => blkModule e.1 == m && ownPool d (d.module m) (blkEbn e.1) && e.2.state != 0
/-- FREE own pool erase blocks of a module. -/
def freeCount (d : Dev) (m : Nat) : Nat := poolSize (d.module m) - (usedBlocks d m).length

/-- Crumbs of a block's dies that are not retired. -/
def goodCrumbs (x : Module) (b : EBlock) : Nat :=
  blkCrumbs x / 16 * ((List.range 16).filter fun i => !bitAt b.dieMask i).length

/-- Open erase block of a stream on a module. -/
def openBlock (d : Dev) (m stream : Nat) : Option Nat := tabFind (d.module m).openBlk stream

/-- Streams (R271): H0 0, H1 1, G1 2, G2 3, G3 4, M 5. -/
def sM : Nat := 5

/-- Parity slots there are: 2 GiB over the slot size (R280). -/
def paritySlots (x : Module) : Nat := 2 ^ 31 / (Nat.max 1 (x.planes * x.pages) * 16384)

/-- Bring the level registers of a module and of the pool up to date (R304, R312). -/
def poolOf (d : Dev) : Nat :=
  let per := fun m =>
    if !d.modOn m || d.spent m then 0
    else
      let x := d.module m
      (freeCount d m - d.getF R.MED_RESERVE_RESERVE_EB) * blkCrumbs x +
        (([0, 1].filterMap fun s => (openBlock d m s).map fun k => goodCrumbs x (d.eblock k) - (d.eblock k).fill).foldl
          (· + ·) 0)
  ((List.range moduleCount).map per).foldl (· + ·) 0 - d.med.reserved

/-- Bring the media level registers up to date. -/
def syncMedia (m : Nat) (d : Dev) : Dev :=
  let own := ((d.med.blocks.filter fun e => blkModule e.1 == m && ownPool d (d.module m) (blkEbn e.1)).map (·.2))
  let ers := (own.filter fun b => b.state != 6).map (·.erases)
  let d0 := ((d.setF (R.MED_M_FREE_LEVEL m) (freeCount d m)).setF (R.MED_M_OPEN_LEVEL m)
    (((d.module m).openBlk.map fun e => 2 ^ e.1).foldl (· + ·) 0)).setF R.MED_POOL_CRUMBS (poolOf d)
  let d1 := (d0.setF (R.MED_M_WEAR_MIN_ERASES m) (if own.length < poolSize (d.module m) then 0 else
    ers.foldl Nat.min (ers.headD 0))).setF (R.MED_M_WEAR_MAX_ERASES m) (ers.foldl Nat.max 0)
  (d1.setF R.MED_RESERVE_PARITY_SLOTS (paritySlots (d.module m))).setF R.MED_SLOTS_FREE
    (paritySlots (d.module m) - d.med.parityUsed)

/-- Modules that contribute to the pool (R304). -/
def poolModules (d : Dev) : List Nat :=
  (onModules d).filter fun m => !d.spent m && (decide (freeCount d m > d.getF R.MED_RESERVE_RESERVE_EB) ||
    [0, 1].any fun s => match openBlock d m s with
      | some k => decide ((d.eblock k).fill < goodCrumbs (d.module m) (d.eblock k))
      | none => false)

/-- The JSN the next gate reserves (R124). -/
def Dev.nextJsn (d : Dev) : Nat := d.getF R.CMQ_JSN_NEXT

/-- Highest JSN of the durable prefix. -/
def Dev.durableJsn (d : Dev) : Nat := d.getF R.CMQ_JSN_DURABLE

/-- A JSN comes before another (R571). -/
def jsnLt (a b : Nat) : Bool := newerW 32 b a

/-- Entries listed by rising slot, put into JSN order: those whose JSN comes before the first one's stand in front (R124, R571). -/
def jsnOrder {α : Type} (f : α → Nat) (l : List α) : List α :=
  match l with
  | [] => []
  | x :: _ => (l.filter fun y => jsnLt (f y) (f x)) ++ l.filter fun y => !jsnLt (f y) (f x)

/-- Bytes of a journal record (R145). -/
def recBytes (d : Dev) (g : Grp) (i : Nat) (r : JRec) : Bytes :=
  let flags := d.headNum + 2 * b2n g.solo + 4 * b2n (i + 1 == g.recs.length)
  let b := leBytes 1 r.type ++ leBytes 1 1 ++ leBytes 1 flags ++ leBytes 1 g.recs.length ++ leBytes 4 (g.jsn + i) ++
    leBytes 4 g.jsn ++ leBytes 4 r.nsg ++ leBytes 8 r.subject ++ leBytes 8 r.a ++ leBytes 8 r.b ++ leBytes 8 r.c ++
    leBytes 8 g.time ++ leBytes 2 g.inst ++ zeros 2
  b ++ leBytes 4 (crcNat b)

/-- The records of a group as bytes. -/
def groupBytes (d : Dev) (g : Grp) : Bytes :=
  ((List.range g.recs.length).zip g.recs).flatMap fun e => recBytes d g e.1 e.2

/-- Reserve the JSNs of a group at a gate (R124, R138). -/
def reserveGroup (count inst cmd chunk : Nat) (d : Dev) : Nat × Dev :=
  let j := d.nextJsn
  let g : Grp := ⟨j, count, [], 0, inst, d.getB R.CMQ_WR_MODE_SOLO, .reserved, cmd, chunk, 0, true, []⟩
  (j, { d.setF R.CMQ_JSN_NEXT (j + count) with write := { d.write with groups := d.write.groups ++ [g] } })

/-- Change the group that begins at a JSN. -/
def Dev.modGrp (d : Dev) (j : Nat) (f : Grp → Grp) : Dev :=
  { d with write := { d.write with groups := mapWhere (fun g => g.jsn == j) f d.write.groups } }

/-- The group that begins at a JSN. -/
def Dev.grp (d : Dev) (j : Nat) : Option Grp := d.write.groups.find? fun g => g.jsn == j

/-- Reserve a group for records of the Keep plane and issue its PLACE (R144, R274). -/
def placeGroup (issuer : Nat) (recs : List JRec) (inst : Nat) (d : Dev) : Dev :=
  let r := reserveGroup recs.length inst 0 0 d
  let d1 := r.2.modGrp r.1 fun g => { g with recs := recs }
  let b := match d1.grp r.1 with
    | some g => groupBytes d1 g
    | none => []
  issueTicket issuer 2 pPlace none (r.1 % 2 ^ 18) b 512
    (mkArgs (match recs with
      | x :: _ => x.subject
      | [] => 0) 0 r.1) (.group r.1) d1

/-- The first 8 bytes of a block-table entry (R271). -/
def blockWord (b : EBlock) : Nat := b.state + b.stream * 256 + b.dieMask * 65536 + b.erases * 2 ^ 32

/-- A BLOCK record (R274). -/
def blockRec (k : Nat) (b : EBlock) : JRec :=
  ⟨0x23, 0, blkEbn k + blkModule k * 2 ^ 40, blockWord b, b.sumA, b.sumB⟩

/-- Own ordinal of an erase block (R272). -/
def ownOrd (x : Module) (ebn : Nat) : Nat := blockOf x ebn * (groupsOf x / 2) + groupOf x ebn / 2

/-- What sets the block table of the other head's erase blocks, which a survivor keeps, apart in keys of tables and leaves (R506, R509). -/
def btFor (d : Dev) (h : Nat) : Nat := if h = d.headNum then 0 else 2 ^ 48

/-- The block-table leaf of an erase block has changed (R272): module × 2^32 + leaf, apart for the other head's. -/
def markLeaf (k : Nat) (d : Dev) : Dev :=
  let x := d.module (blkModule k)
  let l := btFor d (groupOf x (blkEbn k) % 2) + blkModule k * 2 ^ 32 + ownOrd x (blkEbn k) / 64
  if d.med.btDirty.contains l then d else { d with med := { d.med with btDirty := d.med.btDirty ++ [l] } }

/-- Journal the present state of an erase block. -/
def journalBlock (k : Nat) (d : Dev) : Dev := placeGroup iMed [blockRec k (d.eblock k)] 0 (markLeaf k d)

/-- The FREE own pool block a stream opens (R278): lowest ERASES, or the highest below the erase limit, ties to the lowest EBN. -/
def chooseFree (d : Dev) (m stream : Nat) : Option Nat :=
  let x := d.module m
  let listed := d.med.blocks.filter fun e => blkModule e.1 == m && ownPool d x (blkEbn e.1)
  let cands := ((List.range (Nat.min (poolSize x) (listed.length + 1))).map fun k => blkKey m (poolEbn d x k)).filter
    fun k => (d.eblock k).state == 0
  let all := cands ++ ((listed.filter fun e => e.2.state == 0).map (·.1)).filter fun k => !cands.contains k
  let best := fun (better : Nat → Nat → Bool) (l : List Nat) => l.foldl (fun b k =>
    match b with
    | none => some k
    | some y => if better (d.eblock k).erases (d.eblock y).erases then some k else some y) (none : Option Nat)
  if stream = 1 ∨ stream = 3 ∨ stream = 4 then
    match best (fun a b => decide (a > b)) (all.filter fun k => decide ((d.eblock k).erases < x.eraseLimit)) with
    | some k => some k
    | none => best (fun a b => decide (a < b)) all
  else best (fun a b => decide (a < b)) all

/-- Open an erase block for a stream (R270, R278, R280); H0 and H1 keep clear of the reserve unless crumbs reserved at a gate
need the block. -/
def openErase (m stream : Nat) (must : Bool) (d : Dev) : Option (Nat × Dev) :=
  if decide (stream ≤ 1) && !must && decide (freeCount d m ≤ d.getF R.MED_RESERVE_RESERVE_EB) then none
  else if stream ≠ sM ∧ d.med.parityUsed ≥ paritySlots (d.module m) then none
  else match chooseFree d m stream with
    | none => none
    | some k =>
      let j := d.nextJsn
      let d1 := d.modBlock k fun b => { blockFresh with
        state := 1, stream := stream, dieMask := b.dieMask, erases := b.erases, openJsn := j, disturb := b.disturb }
      let d2 := { d1 with med := { d1.med with parityUsed := d1.med.parityUsed + b2n (stream != sM) } }
      let d3 := d2.modModule m fun x => { x with openBlk := tabPut x.openBlk stream k }
      some (k, syncMedia m (journalBlock k d3))

/-- A flash page of an erase block lies on a retired die. -/
def pageRetired (x : Module) (b : EBlock) (page : Nat) : Bool := bitAt b.dieMask (page / x.planes % 16)

/-- Flash pages of an erase block. -/
def blkPages (x : Module) : Nat := blkCrumbs x / 64

/-- The first flash page at or after one that is not on a retired die, looking ahead one row at most. -/
def goodPage (x : Module) (b : EBlock) (page : Nat) : Nat :=
  match (List.range (16 * x.planes)).find? fun i => !pageRetired x b (page + i) with
  | some i => page + i
  | none => page

/-- Register the SEALED state of an open block: it takes no more pages (R270, R273). -/
def sealBlock (k : Nat) (d : Dev) : Dev :=
  let b := d.eblock k
  if b.state ≠ 1 then d
  else
    let d1 := d.modBlock k fun b => { b with state := 2, sealTime := d.now }
    syncMedia (blkModule k) (journalBlock k (d1.modModule (blkModule k) fun x => { x with
      openBlk := x.openBlk.filter fun e => e.2 != k }))

/-- Number of own staging pages (R139). -/
def stagingPages : Nat := 524288

/-- A free staging page. -/
def pageFresh : StagePage := ⟨0, 0, 0, 0, 0, 0, 0, [], 0, false⟩
/-- A staging page. -/
def Dev.stage (d : Dev) (p : Nat) : StagePage := tabGet pageFresh d.write.pages p
/-- Change a staging page. -/
def Dev.modStage (d : Dev) (p : Nat) (f : StagePage → StagePage) : Dev :=
  { d with write := { d.write with pages := tabPut d.write.pages p (f (d.stage p)) } }

/-- The lowest free staging page. -/
def freeStage (d : Dev) : Option Nat :=
  (List.range (Nat.min stagingPages (d.write.pages.length + 1))).find? fun p => (d.stage p).state == 0

/-- The bytes of a staging descriptor (R140). -/
def descBytes (p : Nat) (s : StagePage) : Bytes :=
  let b := leBytes 4 p ++ leBytes 1 s.state ++ leBytes 1 s.stream ++ leBytes 1 s.module ++ leBytes 1 s.fill ++
    leBytes 8 s.flash ++ leBytes 4 s.openJsn ++ leBytes 4 s.lastJsn ++ zeros 4
  b ++ leBytes 4 (crcNat b)

/-- A changed descriptor goes to the peer's mirror (R149). -/
def mirrorDesc (p : Nat) (d : Dev) : Dev :=
  if d.mirrors then mirrorWrite 1 (32 * p) (descBytes p (d.stage p)) d else d

/-- The image of a staging page; crumbs not assigned are zero (R142). -/
def stageBytes (s : StagePage) : Bytes := (List.range 64).flatMap fun c => tabGet (zeros 256) s.crumbs c

/-- The open staging page of a stream on a module. -/
def openStage (d : Dev) (stream m : Nat) : Option Nat :=
  (d.write.pages.find? fun e => e.2.state == 1 && e.2.stream == stream && e.2.module == m).map (·.1)

/-- Crumbs left in an erase block from its fill point on dies that are not retired. -/
def crumbsLeft (x : Module) (b : EBlock) : Nat := goodCrumbs x b - b.fill

/-- The flash page that the next staging page of a block is bound to: the next page of its order (R267, R296). -/
def nextFlash (d : Dev) (k : Nat) : Nat :=
  let x := d.module (blkModule k)
  let b := d.eblock k
  let good := (List.range (blkPages x)).filter fun p => !pageRetired x b p
  blkBase x (blkEbn k) + (good.getD (b.fill / 64) 0) * 64

/-- Bind a free staging page to the next flash page of a stream's open erase block, opening one where needed (R140 to R142). -/
def bindStage (stream m n : Nat) (d : Dev) : Option (Nat × Dev) :=
  let opened : Option (Nat × Dev) := match openBlock d m stream with
    | some k => if crumbsLeft (d.module m) (d.eblock k) ≥ n then some (k, d) else openErase m stream true (sealBlock k d)
    | none => openErase m stream true d
  match opened with
  | none => none
  | some (k, d1) =>
    match freeStage d1 with
    | none => none
    | some p => some (p, mirrorDesc p (d1.modStage p fun _ => { pageFresh with
        state := 1, stream := stream, module := m, flash := nextFlash d1 k, openJsn := d1.nextJsn }))

/-- Assign crumbs of an open staging page (R142): the range and the page's new fill. -/
def takeCrumbs (p n : Nat) (d : Dev) : CrumbRange × Dev :=
  let s := d.stage p
  let k := d.blkOf s.module s.flash
  let d1 := (d.modStage p fun s => { s with fill := s.fill + n, state := if s.fill + n ≥ 64 then 2 else s.state }).modBlock k
    fun b => { b with fill := b.fill + n }
  (⟨p, s.fill, n⟩, mirrorDesc p (d1.stat R.CMQ_WR_CRUMBS n))

/-- Close an open staging page: what is left of it stays unassigned (R142). -/
def closeStage (p : Nat) (d : Dev) : Dev :=
  let s := d.stage p
  let k := d.blkOf s.module s.flash
  mirrorDesc p ((d.modStage p fun s => { s with state := 2 }).modBlock k fun b => { b with
    fill := b.fill + (64 - s.fill) })

/-- Assign `n` crumbs of a stream on a module in one or two staging pages (R142). Crumbs left before the block boundary that
do not hold the copy stay unassigned, and it begins in a page of the next block. -/
def assignCopy (stream m n : Nat) (d : Dev) : Option (List CrumbRange × Dev) :=
  let fresh := fun (d : Dev) =>
    match bindStage stream m n d with
    | none => none
    | some (p, d1) => let r := takeCrumbs p n d1; some ([r.1], r.2)
  match openStage d stream m with
  | none => fresh d
  | some p =>
    let room := 64 - (d.stage p).fill
    let k := d.blkOf m (d.stage p).flash
    if room ≥ n then let r := takeCrumbs p n d; some ([r.1], r.2)
    else if crumbsLeft (d.module m) (d.eblock k) < n then fresh (sealBlock k (closeStage p d))
    else
      let a := takeCrumbs p room d
      match bindStage stream m (n - room) a.2 with
      | none => none
      | some (q, d1) =>
        let b := takeCrumbs q (n - room) d1
        some ([a.1, b.1], b.2)

/-- Module for a copy of a miss (R277): in service, not spent, fewest of this head's staging pages full or programming, then the
lowest; `not` is the module of the first copy. -/
def chooseModule (d : Dev) (not : Option Nat) : Option Nat :=
  let busy := fun m => (d.write.pages.filter fun e => e.2.module == m && (e.2.state == 2 || e.2.state == 3)).length
  ((onModules d).filter fun m => !d.spent m && some m != not && (d.module m).known).foldl (fun b m =>
    match b with
    | none => some m
    | some x => if busy m < busy x then some m else some x) none

/-- Crumb index on flash of a crumb range's first crumb. -/
def rangeCrumb (d : Dev) (r : CrumbRange) : Nat := (d.stage r.page).flash + r.first

/-- Write a copy's sealed crumbs into its staging ranges and to the peer's mirror (R143, R149). -/
def writeRanges (rs : List CrumbRange) (b : Bytes) (d : Dev) : Dev :=
  match rs with
  | [] => d
  | r :: rest =>
    let part := b.take (r.count * 256)
    let d1 := d.modStage r.page fun s => { s with
      crumbs := (List.range r.count).foldl (fun t i => tabPut t (r.first + i) (slice part (256 * i) 256)) s.crumbs }
    let d2 := if d1.mirrors then mirrorWrite 0 (r.page * 16384 + r.first * 256) part d1 else d1
    writeRanges rest (b.drop (r.count * 256)) d2

/-- Add a copy to its erase block's summary (R273). -/
def addSummary (m crumb n handle dom : Nat) (d : Dev) : Dev :=
  let x := d.module m
  d.modBlock (d.blkOf m crumb) fun b => { b with
    summary := b.summary ++ [⟨handle, offOf x crumb, n, dom⟩], valid := b.valid + n,
    domains := if bitAt b.domains (dom % 64) then b.domains else b.domains + 2 ^ (dom % 64) }

/-- SLC flag of a crumb's erase block (R269, R318). -/
def slcFlag (x : Module) (crumb : Nat) : Nat := b2n (decide (blockOf x (ebnOf x crumb) < 4))

/-- A staging page can be programmed: full, and every assigned crumb has been written. -/
def stageReady (s : StagePage) : Bool := s.state == 2 && decide (s.crumbs.length ≥ s.fill)

/-- Statistics register of a stream's programmed pages. -/
def progStat (stream : Nat) : Nat := R.MED_PROG_H0 + 8 * stream

/-- Issue the program of a full staging page's die: all its planes in one multi-plane program (R267). -/
def programStage (p : Nat) (d : Dev) : Dev :=
  let s := d.stage p
  let x := d.module s.module
  let n := x.planes
  let base := s.flash / 64 / n * n
  let mates := (d.write.pages.filter fun e =>
    e.2.module == s.module && e.2.state != 0 && e.2.flash / 64 / n * n == base && stageReady e.2).map (·.1)
  let sealed := (d.eblock (d.blkOf s.module s.flash)).state != 1
  if !stageReady s || (d.eblock (d.blkOf s.module s.flash)).closed || decide (mates.length < n) && !sealed then d
  else
    let at' := fun q => mates.find? fun p => (d.stage p).flash / 64 % n == q
    let mask := ((List.range n).map fun q => if (at' q).isSome then 2 ^ q else 0).foldl (· + ·) 0
    let payload := (List.range n).flatMap fun q =>
      match at' q with
      | some p => stageBytes (d.stage p)
      | none => []
    let d1 := forEach mates (fun q d => mirrorDesc q (d.modStage q fun s => { s with state := 3 })) d
    let d2 := d1.modModule s.module fun x => { x with queued := x.queued + 1 }
    if n = 1 then mediaCmd s.module 3 0 s.flash 0 payload (.staging mates) d2
    else mediaCmd s.module 4 0 (base * 64) mask payload (.staging mates) d2

/-- Two modules for a page of stream M: in service, not spent, fewest queued programs, then the lowest (R279). -/
def mModules (d : Dev) : Option (Nat × Nat) :=
  let pick := fun (not : Option Nat) => ((onModules d).filter fun m => some m != not && (d.module m).known).foldl
    (fun (b : Option Nat) m =>
      match b with
      | none => some m
      | some x =>
        if (d.spent x && !d.spent m) || (d.spent x == d.spent m && decide ((d.module m).queued < (d.module x).queued))
        then some m else some x) none
  match pick none with
  | none => none
  | some a => (pick (some a)).map fun b => (a, b)

/-- Program the stream M page of a module, unassigned units zero (R279). -/
def programM (m : Nat) (d : Dev) : Dev :=
  match (d.module m).mPage with
  | none => d
  | some p =>
    let b := p.units.flatMap (·.2)
    let d1 := d.modModule m fun x => { x with mPage := none, queued := x.queued + 1 }
    let d2 := d1.stat R.MED_PROG_M 1
    mediaCmd m 3 0 p.addr 0 (b ++ zeros (16384 - b.length)) (.mUnits m p.addr (p.units.map (·.1))) d2

/-- The stream M page of a module, bound to the next flash page of its open block where none is being filled. -/
def ensureM (m : Nat) (d : Dev) : Option Dev :=
  if (d.module m).mPage.isSome then some d
  else
    let opened : Option (Nat × Dev) := match openBlock d m sM with
      | some k => if crumbsLeft (d.module m) (d.eblock k) ≥ 64 then some (k, d) else openErase m sM true (sealBlock k d)
      | none => openErase m sM true d
    match opened with
    | none => none
    | some (k, d1) =>
      let a := nextFlash d1 k
      some ((d1.modBlock k fun b => { b with fill := b.fill + 64, valid := b.valid + 64 }).modModule m fun x => { x with
        mPage := some ⟨a, []⟩ })

/-- Assign one 4 KiB unit of stream M on a module (R279): its location in the form of R236. -/
def assignM (m : Nat) (use : MUse) (b : Bytes) (d : Dev) : Option (Nat × Dev) :=
  match ensureM m d with
  | none => none
  | some d1 =>
    match (d1.module m).mPage with
    | none => none
    | some p =>
      let unit := p.addr / 16 + p.units.length
      let k := d1.blkOf m p.addr
      let d2 := (d1.modModule m fun x => { x with mPage := some { p with units := p.units ++ [(use, slice b 0 4096)] } }).modBlock k
        fun e => { e with units := tabPut e.units (unit - blkBase (d1.module m) (blkEbn k) / 16) use }
      some (unit + m * 2 ^ 36, if p.units.length + 1 ≥ 4 then programM m d2 else d2)

/-- Place a page of stream M on two modules (R279): both locations. Where fewer than two modules serve, it waits. -/
def placeM (use : Nat → MUse) (b : Bytes) (d : Dev) : Option (Nat × Nat × Dev) :=
  match mModules d with
  | none => none
  | some (x, y) =>
    match assignM x (use 0) b d with
    | none => none
    | some (a, d1) =>
      match assignM y (use 1) b d1 with
      | none => none
      | some (c, d2) => some (a, c, d2)

/-- A physical block is retired (R296): the die's bit, the counts, the spare share, RETIRED from four dies on. -/
def retireDie (k die : Nat) (d : Dev) : Dev :=
  let m := blkModule k
  let b := d.eblock k
  if bitAt b.dieMask die then d
  else
    let mask := b.dieMask + 2 ^ die
    let n := ((List.range 16).filter fun i => bitAt mask i).length
    let d1 := d.modBlock k fun b => { b with dieMask := mask, state := if n ≥ 4 then 6 else b.state }
    let lost := if n ≥ 4 then 13 else 1
    let d2 := forEach (List.range lost) (fun _ d => (d.err R.E_MED_RETIRED).err (R.E_MED_M_RETIRED m)) d1
    let left := d2.getF (R.MED_M_SPARE_LEVEL m) - lost
    let d3 := d2.setF (R.MED_M_SPARE_LEVEL m) left
    let d4 := if left = 0 ∧ !d3.spent m then
        (d3.setB (R.MED_M_STATE_SPENT m) true).postAt 0x1205 (sa 0x12 m 0 0) [m]
      else d3
    syncMedia m (journalBlock k d4)

end Sys2Proof.Machine
end

