-- ==== Sys2Proof/Machine/ReadOps.lean ====
section
/-! DEFINITION. Messages to the peer and crumb reads, over the media link or through the peer (R163, R164, R239, R496, R497). -/

namespace Sys2Proof.Machine

/-- Send a request to the peer with the next TAG and remember it (R496). -/
def requestPeer (mtype a b : Nat) (args : List Nat) (body : Bytes) (work : MedWork) (d : Dev) : Dev :=
  let t := d.per.nextTag
  sendPeer mtype t args body { d with per := { d.per with
    nextTag := (t + 1) % 2 ^ 32
    reqs := d.per.reqs ++ [⟨t, mtype, a, b, work⟩] } }

/-- The request that a reply's TAG answers, taken out of those in flight. -/
def takeRequest (tag mtype : Nat) (d : Dev) : Option PeerReq × Dev :=
  let p := fun (r : PeerReq) => r.tag == tag && r.mtype == mtype
  (d.per.reqs.find? p, { d with per := { d.per with reqs := d.per.reqs.filter fun r => !p r } })

/-- Page status of a copy that neither port reaches. -/
def psUnavailable : Nat := 255

/-- Crumbs that a page status leaves no bytes of: uncorrectable, erased, unavailable (R323). -/
def psLost (st : Nat) : Bool := decide (st ≥ 3)

/-- Change a page-in. -/
def modPageIn (key : Nat) (f : PageIn → PageIn) (d : Dev) : Dev :=
  { d with map := { d.map with pageIns := mapWhere (fun p => p.key == key) f d.map.pageIns } }

/-- Change a read. -/
def Dev.modRd (d : Dev) (id : Nat) (f : RCmd → RCmd) : Dev :=
  { d with read := { d.read with cmds := mapWhere (fun c => c.h.id == id) f d.read.cmds } }

/-- A read in flight. -/
def Dev.rdCmd (d : Dev) (id : Nat) : Option RCmd := d.read.cmds.find? fun c => c.h.id == id

/-- Change one chunk of a read. -/
def Dev.modRChunk (d : Dev) (id k : Nat) (f : RChunk → RChunk) : Dev :=
  d.modRd id fun c => { c with chunks := mapWhere (fun x => x.idx == k) f c.chunks }

/-- One chunk of a read. -/
def Dev.rChunk (d : Dev) (id k : Nat) : Option RChunk :=
  match d.rdCmd id with
  | some c => c.chunks.find? fun x => x.idx == k
  | none => none

/-- Loss causes (R406): 1 uncorrectable page, 2 decode failure, 3 module unavailable, 4 map or record unavailable. -/
def causeOf (st : Nat) : Nat := if st = psUnavailable then 3 else 1

/-- One part of a chunk has been answered: its bytes, zeros in the place of lost ones (R165, R323). -/
def recordPart (part st : Nat) (data : Bytes) (c : RChunk) : RChunk :=
  match c.parts.getD part (0, 0, 0) with
  | (first, n, _) =>
    let lost := psLost st
    let c1 := { c with fetched := tabPut c.fetched part (if lost then zeros (n * 256) else slice data 0 (n * 256)) }
    if lost then
      let c2 := { c1 with lostCrumbs := c1.lostCrumbs ++ (List.range n).map (first + ·) }
      { c2 with scope := Nat.max c2.scope (causeOf st) }
    else c1

/-- A crumb read has been answered: its status and bytes go to the work it was made for. A read made for the peer is
answered to it with the crumbs before the message (R164, R497). -/
def recordRead (work : MedWork) (st : Nat) (data : Bytes) (d : Dev) : Dev :=
  match work with
  | .pageIn key => modPageIn key (fun p => { p with got := some (!psLost st, data) }) d
  | .readChunk rd k part => d.modRChunk rd k (recordPart part st data)
  | .peerRead tag arg key va =>
    sendPeer 0x25 tag [arg, if st = psUnavailable then 8 else st * 256] []
      (if data.isEmpty then d else postMsg (peerQp 3) .write .none data data.length key va d)
  | _ => { d with med := { d.med with results := d.med.results ++ [⟨work, st, data⟩] } }

/-- The first answered read for a work, taken. -/
def takeResult (work : MedWork) (d : Dev) : Option ReadResult × Dev :=
  (d.med.results.find? fun r => r.work == work,
   { d with med := { d.med with results := d.med.results.filter fun r => r.work != work } })

/-- Where crumbs that the peer reads for a request are placed in the forward landing window (log entry 8). -/
def readSlot (tag : Nat) : Nat := 2 ^ 31 + tag % 2048 * 2 ^ 20

/-- Ask the peer for crumbs, or leave the copy unavailable (R164). -/
def readElsewhere (m crumb n : Nat) (work : MedWork) (d : Dev) : Dev :=
  let forPeer := match work with
    | .peerRead _ _ _ _ => true
    | _ => false
  if d.peerUp && !forPeer then requestPeer 0x24 crumb (n + m * 2 ^ 7) [crumb + n * 2 ^ 40 + m * 2 ^ 48, winKey d 3, readSlot d.per.nextTag] [] work
    (d.stat R.CMQ_RD_PEER_PATH 1)
  else recordRead work psUnavailable [] d

/-- Add a read to the tally of an erase block that the peer owns (R293); an entry that reaches 1,024 reads, or the oldest one of a
full table, is sent to its owner. -/
def tallyRead (m ebn n : Nat) (d : Dev) : Dev :=
  let send := fun (e : Nat × Nat × Nat) (d : Dev) => if d.peerUp then sendPeer 0x26 0 [e.2.1 + e.1 * 2 ^ 24, e.2.2] [] d else d
  let c := ((d.med.tallies.find? fun e => e.1 == m && e.2.1 == ebn).map (·.2.2)).getD 0 + n
  let rest := d.med.tallies.filter fun e => !(e.1 == m && e.2.1 == ebn)
  if c ≥ 1024 then send (m, ebn, c) { d with med := { d.med with tallies := rest } }
  else if rest.length ≥ 4096 then
    match rest with
    | [] => d
    | e :: r => send e { d with med := { d.med with tallies := r ++ ([(m, ebn, c)] : List (Nat × Nat × Nat)) } }
  else { d with med := { d.med with tallies := rest ++ ([(m, ebn, c)] : List (Nat × Nat × Nat)) } }

/-- Add reads to the read-disturb counter of an own erase block (R292): the refresh queue at READ_LIMIT, the counter stuck at its
largest value. -/
def disturb (k n : Nat) (d : Dev) : Dev :=
  let b := d.eblock k
  let x := d.module (blkModule k)
  let v := Nat.min (b.disturb + n) 0xFFFFFFFF
  let d1 := d.modBlock k fun b => { b with disturb := v }
  let d2 := if decide (b.disturb < x.readLimit ∧ x.readLimit ≤ v) && !d.med.refresh.contains k then
      { d1 with med := { d1.med with refresh := d1.med.refresh ++ [k] } }
    else d1
  if v = 0xFFFFFFFF ∧ b.disturb ≠ 0xFFFFFFFF then
    (d2.err R.E_MED_RD_STUCK).postAt 0x1204 (sa 0x12 (blkModule k) 0 0) [blkModule k, blkEbn k]
  else d2

/-- Count one flash-page read (R163, R292, R293). -/
def noteRead (m crumb : Nat) (d : Dev) : Dev :=
  let x := d.module m
  let e := ebnOf x crumb
  if groupOf x e % 2 = d.headNum ∨ d.per.adopted then
    if (d.eblock (blkKey m e)).state = 0 then d else disturb (blkKey m e) 1 d
  else tallyRead m e 1 d

/-- Read crumbs of one flash page (R163, R164): over this head's link while it is up, a retrain included (R335), else through the peer, or
unavailable. -/
def readCrumbs (m crumb n : Nat) (work : MedWork) (d : Dev) : Dev :=
  if d.getB (R.MED_M_STATE_FAILED m) then recordRead work psUnavailable [] d
  else if d.linkUp m || d.linkPhase m == lpRetrain then
    mediaCmd m 1 (slcFlag (d.module m) crumb) (crumb + n * 2 ^ 40) 0 [] work (noteRead m crumb d)
  else readElsewhere m crumb n work d

end Sys2Proof.Machine
end

