-- ==== Sys2Proof/Machine/MapOps.lean ====
section
/-! DEFINITION. The paged map: keys, entries, pointers, content records, cache lines, page-ins, pending and visible state
(R180 to R187, R232 to R258, R438 to R445). -/

namespace Sys2Proof.Machine

/-- A page key (R233). -/
def mkKey (tree level page : Nat) : Nat := page % 2 ^ 33 + level * 2 ^ 33 + tree * 2 ^ 36
/-- TREE of a key. -/
def keyTree (k : Nat) : Nat := bitsAt k 36 15
/-- LEVEL of a key. -/
def keyLevel (k : Nat) : Nat := bitsAt k 33 3
/-- PAGE of a key. -/
def keyPage (k : Nat) : Nat := k % 2 ^ 33

/-- Content tree of a head (R232). -/
def contentTree (h : Nat) : Nat := 0x7FF0 + h
/-- Flash-index tree of a head. -/
def indexTree (h : Nat) : Nat := 0x7FF2 + h
/-- Namespace-root tree of a head. -/
def rootTree (h : Nat) : Nat := 0x7FF4 + h
/-- A logical-map tree. -/
def isLogical (tree : Nat) : Bool := decide (1 ≤ tree ∧ tree ≤ 0x7FEF)

/-- Set of a page key (R251). -/
def setIndex (k : Nat) : Nat :=
  let p := keyPage k
  (p % 2 ^ 17) ^^^ (p / 2 ^ 17) ^^^ (keyTree k * 4 % 2 ^ 17) ^^^ keyLevel k

/-- Logical map entry values (R234). -/
def entUnmapped : Nat := 0
/-- ZERO. -/
def entZero : Nat := 0x0800000000000000
/-- LOST. -/
def entLost : Nat := 0x1000000000000000
/-- An entry is a content handle. -/
def isHandle (e : Nat) : Bool := e / 2 ^ 59 == 0 && e % 2 ^ 32 != 0
/-- An entry is LOST or reserved. -/
def isLostEnt (e : Nat) : Bool := !isHandle e && e != entUnmapped && e != entZero

/-- Slot of a handle (R180). -/
def slotOf (h : Nat) : Nat := h % 2 ^ 41
/-- LOC of a handle. -/
def locOf (h : Nat) : Nat := h % 2 ^ 32
/-- Bucket of a handle. -/
def bucketOf (h : Nat) : Nat := bitsAt h 32 27
/-- Head that allocated a handle. -/
def handleHead (h : Nat) : Nat := bitsAt h 31 1
/-- Key of the content leaf of a handle (R235). -/
def contentKey (h : Nat) : Nat :=
  let s := slotOf h
  mkKey (contentTree (handleHead h)) 0 (bitsAt s 32 9 * 2 ^ 23 + bitsAt s 8 23)

/-- This head holds the tables of a head: its own, and the other's after a take-over (R241). -/
def Dev.owns (d : Dev) (h : Nat) : Bool := h == d.headNum || d.per.adopted

/-- WORD_A fields of a content record (R182): crumb, module, length in crumbs, epoch. -/
def recCrumb (w : Nat) : Nat := bitsAt w 0 40
/-- MODULE. -/
def recModule (w : Nat) : Nat := bitsAt w 40 5
/-- LEN + 1. -/
def recLen (w : Nat) : Nat := bitsAt w 45 6 + 1
/-- EPOCH. -/
def recEpoch (w : Nat) : Nat := bitsAt w 51 12
/-- REFS of the second word. -/
def recRefs (w : Nat) : Nat := bitsAt w 0 24
/-- FLAGS of the second word. -/
def recFlags (w : Nat) : Nat := bitsAt w 24 8
/-- CRC of the second word. -/
def recCrc (w : Nat) : Nat := bitsAt w 32 32
/-- WORD_A from its fields. -/
def mkWordA (crumb m len epoch : Nat) : Nat :=
  crumb % 2 ^ 40 + m % 32 * 2 ^ 40 + (len - 1) % 64 * 2 ^ 45 + epoch % 4096 * 2 ^ 51
/-- The lost mark in CRUMB (R299). -/
def lostMark : Nat := 0xFFFFFFFFFF

/-- The CRC of a content record bound to a domain and a handle (R184). -/
def recBound (dom h w0 w1 : Nat) : Nat :=
  crcNat (leBytes 2 dom ++ leBytes 4 (bucketOf h) ++ zeros 2 ++ leBytes 8 w0 ++ leBytes 4 (w1 % 2 ^ 32) ++ zeros 4)

/-- The second word with the CRC that its domain and handle bind. -/
def sealRec (dom h w0 w1 : Nat) : Nat := w1 % 2 ^ 32 + recBound dom h w0 w1 * 2 ^ 32

/-- The record verifies under a domain and a handle (R184). -/
def recOk (dom h w0 w1 : Nat) : Bool := recCrc w1 == recBound dom h w0 w1

/-- The second word after a change of the record. A CRC-32C is affine, so the bound CRC of the new content follows from that
of the old one without the domain, and a record that failed its check still fails it. -/
def rebind (h o0 o1 n0 n1 : Nat) : Nat :=
  n1 % 2 ^ 32 + (recCrc o1 ^^^ recBound 0 h o0 o1 ^^^ recBound 0 h n0 n1) * 2 ^ 32

/-- Threshold of CAPPED (R186). -/
def capLevel : Nat := 0xF00000

/-- A record's two words after a journal record (R146, R185 to R187, R202, R274). -/
def applyRec (h : Nat) (r : JRec) (w : Nat × Nat) : Nat × Nat :=
  let flags := recFlags w.2
  if r.type = 2 ∧ r.subject = h then (r.a, r.b)
  else if r.type = 3 ∧ r.subject = h then
    let refs := if recRefs w.2 = 0xFFFFFF then 0xFFFFFF else r.b % 2 ^ 24
    let f := if refs ≥ capLevel ∧ !bitAt flags 3 then flags + 8 else flags
    (w.1, rebind h w.1 w.2 w.1 (refs + f * 2 ^ 24))
  else if r.type = 0x20 ∧ r.subject = h ∧ w.1 = r.b then (r.a, rebind h w.1 w.2 r.a w.2)
  else if r.type = 0x21 ∧ r.subject = h ∧ w.1 = r.b then
    let n0 := slotOf r.a + recEpoch w.1 * 2 ^ 51
    let n1 := recRefs w.2 + (if bitAt flags 3 then 8 else 0) * 2 ^ 24 + 16 * 2 ^ 24
    (n0, rebind h w.1 w.2 n0 n1)
  else if r.type = 0x21 ∧ r.a = h then
    let f := if bitAt flags 5 then flags else flags + 32
    (w.1, rebind h w.1 w.2 w.1 (recRefs w.2 + f * 2 ^ 24))
  else if r.type = 0x22 ∧ (r.subject = h ∨ (r.subject + 1 = h ∧ bitAt r.b 1)) then (0, 0)
  else w

/-- The list page that holds a snapshot's record, by its SNAP_ID (R439). -/
def snapKey (nsg id : Nat) : Nat := mkKey nsg 7 (id % 4096 / 64)

/-- Pages a journal record changes, of the kinds this head's map holds (R146, R274). -/
def recKeys (r : JRec) : List Nat :=
  match r.type with
  | 1 => [mkKey r.nsg 0 (r.subject / 512)]
  | 2 => [contentKey r.subject]
  | 3 => [contentKey r.subject]
  | 0x20 => [contentKey r.subject]
  | 0x21 => [contentKey r.subject] ++ (if contentKey r.a = contentKey r.subject then [] else [contentKey r.a])
  | 0x22 => [contentKey r.subject]
  | 0x10 => [snapKey r.nsg r.subject]
  | 0x12 => [snapKey r.nsg r.subject]
  | 0x13 => [snapKey r.nsg r.subject]
  | 0x14 => [snapKey r.nsg r.subject]
  | _ => []

/-- Handles a record changes. -/
def recHandles (r : JRec) : List Nat :=
  match r.type with
  | 2 => [r.subject]
  | 3 => [r.subject]
  | 0x20 => [r.subject]
  | 0x21 => [r.subject, r.a]
  | 0x22 => if bitAt r.b 1 then [r.subject, r.subject + 1] else [r.subject]
  | _ => []

/-- Durable mutations not yet applied. -/
def visibleRecs (d : Dev) : List JRec := d.map.deferred.map (·.rec')

/-- Every committed mutation still pending as well (R243). -/
def newestRecs (d : Dev) : List JRec :=
  visibleRecs d ++ (d.write.groups.filter fun g => g.stage == .committed || g.stage == .sent).flatMap (·.recs)

/-- Mutations a lookup sees in its mode. -/
def modeRecs (d : Dev) (newest : Bool) : List JRec := if newest then newestRecs d else visibleRecs d

/-- A page's 4,096 bytes. -/
def pageBytes (p : PageData) : Bytes := (List.range 512).flatMap fun i => leBytes 8 (tabGet 0 p i)

/-- Words from a list of bytes. -/
def pageOf4k (b : Bytes) : PageData :=
  ((List.range 512).map fun i => (i, fieldAt b (8 * i) 8)).filter fun e => e.2 != 0

/-- The null pointer (R236). -/
def ptrNull : PagePtr := ⟨0, 0, 0, 0, 0, false⟩

/-- The 28 checked bytes of a pointer. -/
def ptrBody (p : PagePtr) : Bytes :=
  leBytes 8 p.a ++ leBytes 8 p.b ++ leBytes 4 p.crc ++ leBytes 4 p.epoch ++ leBytes 1 p.level ++ leBytes 1 (b2n p.lost) ++
    zeros 2

/-- The 32 bytes of a pointer (R236). -/
def ptrBytes (p : PagePtr) : Bytes := if p = ptrNull then zeros 32 else ptrBody p ++ leBytes 4 (crcNat (ptrBody p))

/-- A pointer from its 32 bytes; one that fails PTR_CRC counts as LOST (R236). -/
def ptrOf (b : Bytes) : PagePtr :=
  if b.all (· == 0#8) then ptrNull
  else
    let p : PagePtr := ⟨fieldAt b 0 8, fieldAt b 8 8, fieldAt b 16 4, fieldAt b 20 4, fieldAt b 24 1, fieldAt b 25 1 % 2 == 1⟩
    if fieldAt b 28 4 = crcNat (slice b 0 28) then p else { p with lost := true }

/-- Pointer `k` of a directory page's data (R237). -/
def ptrAt (p : PageData) (k : Nat) : PagePtr := ptrOf ((List.range 4).flatMap fun i => leBytes 8 (tabGet 0 p (4 * k + i)))

/-- Write a 64-bit word of a page. -/
def setWord (p : PageData) (i v : Nat) : PageData := tabSet 0 p i v

/-- Set pointer `k` of a directory page. -/
def setPtr (p : PageData) (k : Nat) (x : PagePtr) : PageData :=
  let b := ptrBytes x
  (List.range 4).foldl (fun p i => setWord p (4 * k + i) (fieldAt b (8 * i) 8)) p

/-- A namespace by its array-wide number. -/
def Dev.ns (d : Dev) (nsg : Nat) : Option Ns := tabFind d.nvm.namespaces nsg

/-- Smallest d with 512 × 128^d at least the chunk count (R232). -/
def logicalRoot (chunks : Nat) : Nat := ((List.range 6).find? fun k => decide (chunks ≤ 512 * 128 ^ k)).getD 5

/-- Level of a tree's root (R232). -/
def rootLevel (d : Dev) (tree : Nat) : Nat :=
  if isLogical tree then match d.ns tree with
    | some n => logicalRoot n.chunks
    | none => 0
  else if tree = rootTree 0 ∨ tree = rootTree 1 then 2 else 5

/-- The tree in which the root pointer of a logical map stands: this head's namespace-root tree, or after a take-over the failed head's
(R506). -/
def nsTree (d : Dev) (t : Nat) : Nat := if d.per.adoptedNs.contains t then rootTree (1 - d.headNum) else rootTree d.headNum

/-- Parent page of a page, with the pointer's place in it; none for a root whose pointer is kept on die. The pointer to a
logical map's root stands in the namespace-root tree (R237), and that to a snapshot list's directory beside it (R439). -/
def parentOf (d : Dev) (k : Nat) : Option (Nat × Nat) :=
  let t := keyTree k
  let l := keyLevel k
  if isLogical t ∧ l = 7 then some (mkKey t 6 0, keyPage k)
  else if isLogical t ∧ l = 6 then none
  else if l < rootLevel d t then some (mkKey t (l + 1) (keyPage k / 128), keyPage k % 128)
  else if isLogical t then some (mkKey (nsTree d t) 0 (t / 128), t % 128)
  else none

/-- Way of a page's line in its set. -/
def findWay (d : Dev) (k : Nat) : Option Nat :=
  (List.range 16).find? fun w => match tabFind d.map.lines (setIndex k * 16 + w) with
    | some l => l.key == k
    | none => false

/-- A page's line. -/
def Dev.line (d : Dev) (k : Nat) : Option MapLine :=
  match findWay d k with
  | some w => tabFind d.map.lines (setIndex k * 16 + w)
  | none => none

/-- Change a page's line. -/
def Dev.modLine (d : Dev) (k : Nat) (f : MapLine → MapLine) : Dev :=
  match findWay d k with
  | some w => match tabFind d.map.lines (setIndex k * 16 + w) with
    | some l => { d with map := { d.map with lines := tabPut d.map.lines (setIndex k * 16 + w) (f l) } }
    | none => d
  | none => d

/-- Slot of the eviction buffer that holds a page's live version (R245). -/
def slotOfKey (d : Dev) (k : Nat) : Option (Nat × EvSlot) := d.map.evb.find? fun e => e.2.key == k && e.2.snap.isNone

/-- A free slot of the eviction buffer. -/
def freeSlot (d : Dev) : Option Nat := lowestBelow 16384 fun i => (tabFind d.map.evb i).isNone

/-- Bring the map's level registers up to date. -/
def syncMap (d : Dev) : Dev :=
  let ls := d.map.lines
  (((((d.setF R.MAP_VALID_LEVEL ls.length).setF R.MAP_DIRTY_LEVEL (ls.filter fun l => l.2.dirty).length).setF
    R.MAP_LOCKED_LEVEL (ls.filter fun l => l.2.locked).length).setF R.MAP_EVB_LEVEL d.map.evb.length).setF
    R.MAP_MSHR_LEVEL d.map.pageIns.length).setF R.MAP_FIFO_LEVEL d.map.fifo.length

/-- Nodes of a set's tree on the way to a way, with the side taken (R250): node 1 is the root. -/
def plruPath (w : Nat) : List (Nat × Nat) :=
  [(1, w / 8 % 2), (2 + w / 8, w / 4 % 2), (4 + w / 4, w / 2 % 2), (8 + w / 2, w % 2)]

/-- Point a set's tree away from a way (most recently used) or towards it (least recently used). -/
def plruMark (set w : Nat) (recent : Bool) (d : Dev) : Dev :=
  let t := tabGet 0 d.map.plru set
  let t2 := (plruPath w).foldl (fun t e => setBitsAt t (e.1 - 1) 1 (if recent then 1 - e.2 else e.2)) t
  { d with map := { d.map with plru := tabSet 0 d.map.plru set t2 } }

/-- Walk a set's tree from a node `n` of depth `k` to a way that may be taken (R252). -/
def plruWalk (t : Nat) (ok : Nat → Bool) (k n : Nat) : Option Nat :=
  match k with
  | 0 => if ok (n - 16) then some (n - 16) else none
  | j + 1 =>
    let side := b2n (bitAt t (n - 1))
    match plruWalk t ok j (2 * n + side) with
    | some w => some w
    | none => plruWalk t ok j (2 * n + (1 - side))

/-- A way may be a victim (R252): not locked, not held, not dirty with a write-back in flight; `clean` leaves out dirty ones. -/
def eligible (d : Dev) (set : Nat) (clean : Bool) (w : Nat) : Bool :=
  match tabFind d.map.lines (set * 16 + w) with
  | none => true
  | some l => !l.locked && tabGet 0 d.map.holds l.key == 0 && !(l.dirty && (clean || (slotOfKey d l.key).isSome))

/-- A pin entry names a page (R258). -/
def pinned (d : Dev) (k : Nat) : Bool :=
  (List.range 16).any fun n => d.getB (R.MAP_PIN_CTL_VALID n) &&
    (let s := d.getF (R.MAP_PIN_CTL_SPAN n)
     d.getF (R.MAP_PIN_KEY_TREE n) == keyTree k && d.getF (R.MAP_PIN_KEY_LEVEL n) == keyLevel k &&
       d.getF (R.MAP_PIN_KEY_PAGE n) / 2 ^ s == keyPage k / 2 ^ s)

/-- Place an eviction slot's page on stream M (R245, R279). With fewer than two modules in service it waits in its slot. -/
def placeSlot (i : Nat) (d : Dev) : Dev :=
  match tabFind d.map.evb i with
  | none => d
  | some s =>
    if s.placed then d
    else match placeM (fun c => .page s.key c) (pageBytes s.data) d with
      | none => d
      | some (a, b, d1) =>
        { d1 with map := { d1.map with evb := tabPut d1.map.evb i { s with placed := true, locA := a, locB := b } } }

/-- Copy a dirty line into a free slot (R245 step 1): its dirty bit clears and its FIFO entry ends. -/
def copyOut (k : Nat) (d : Dev) : Option Dev :=
  match d.line k, freeSlot d with
  | some l, some i =>
    if !l.dirty || (slotOfKey d k).isSome then none
    else
      let d1 := { d with map := { d.map with
        evb := tabPut d.map.evb i ⟨k, l.data, false, 0, 0, 0, false, l.firstJsn, l.epoch, none⟩
        fifo := d.map.fifo.filter fun e => e.1 != k } }
      some (placeSlot i (d1.modLine k fun l => { l with dirty := false }))
  | _, _ => none

/-- Give up the line of a way: a dirty one is evicted through a slot first (R252, R255). -/
def vacate (set w : Nat) (d : Dev) : Option Dev :=
  match tabFind d.map.lines (set * 16 + w) with
  | none => some d
  | some l =>
    let drop := fun (d : Dev) => { d with map := { d.map with lines := tabDel d.map.lines (set * 16 + w) } }
    if l.dirty then (copyOut l.key d).map fun d1 => (drop d1).stat R.MAP_EVICTIONS 1 else some (drop d)

/-- The way a fill takes (R252, R258) and whether it lands locked. -/
def chooseWay (d : Dev) (k : Nat) : Option (Nat × Bool) :=
  let set := setIndex k
  let t := tabGet 0 d.map.plru set
  let noSlot := (freeSlot d).isNone
  let pick := fun (ok : Nat → Bool) =>
    match plruWalk t (fun w => ok w && eligible d set noSlot w) 4 1 with
    | some w => some w
    | none => none
  let low := fun w => decide (w < 4)
  let lockable := match (List.range 4).find? fun w => (tabFind d.map.lines (set * 16 + w)).isNone with
    | some w => some w
    | none => pick low
  if pinned d k then
    match lockable with
    | some w => some (w, true)
    | none => (pick fun _ => true).map fun w => (w, false)
  else (pick fun _ => true).map fun w => (w, false)

/-- Install a page in its set (R252, R258): the way is vacated, the line is valid, and most recently used unless prefetched. -/
def fillPage (k : Nat) (data : PageData) (dirty : Bool) (epoch jsn : Nat) (demand : Bool) (d : Dev) : Option Dev :=
  match chooseWay d k with
  | none => none
  | some (w, lock) =>
    match vacate (setIndex k) w d with
    | none => none
    | some d1 =>
      let l : MapLine := ⟨k, data, dirty, lock, jsn, !demand, epoch, none⟩
      let d2 := { d1 with map := { d1.map with lines := tabPut d1.map.lines (setIndex k * 16 + w) l } }
      let d3 := if lock then d2.stat R.MAP_PIN_FILLS 1 else if pinned d k then d2.stat R.MAP_PIN_OVERFLOW 1 else d2
      let d4 := if dirty then { d3 with map := { d3.map with fifo := d3.map.fifo ++ [(k, jsn)] } } else d3
      some (syncMap (plruMark (setIndex k) w demand d4))

/-- Make a line dirty from a JSN on (R246). -/
def dirtyLine (k jsn : Nat) (d : Dev) : Dev :=
  match d.line k with
  | none => d
  | some l =>
    if l.dirty then d
    else syncMap { d.modLine k (fun l => { l with dirty := true, firstJsn := jsn }) with
      map := { (d.modLine k (fun l => { l with dirty := true, firstJsn := jsn })).map with
        fifo := d.map.fifo ++ [(k, jsn)] } }

/-- The page a lost one is replaced by (R240): LOST entries, LOST pointers, or empty; none for content pages. -/
def lostPage (k : Nat) : Option PageData :=
  let t := keyTree k
  if isLogical t ∧ keyLevel k = 0 then some ((List.range 512).map fun i => (i, entLost))
  else if isLogical t ∧ keyLevel k < 6 then
    some ((List.range 128).foldl (fun p i => setPtr p i { ptrNull with lost := true }) [])
  else if t = indexTree 0 ∨ t = indexTree 1 then some []
  else none

/-- What looking for a page gives: present, unavailable for good, or the work waits. -/
inductive PageRes where
  | ready | unavailable | wait
  deriving DecidableEq, Repr

/-- Remember work that waits for the map itself: a walk, a rebuild, a way, a page-in entry. -/
def stall (w : Waiter) (d : Dev) : Dev :=
  if d.map.stalled.contains w then d else { d with map := { d.map with stalled := d.map.stalled ++ [w] } }

/-- Lookups stall: the reset walk, or the walk of an invalidate-all (R260, R261). -/
def walking (d : Dev) : Bool := d.getB R.MAP_STATE_RESET_WALK || d.getF R.MAP_STATE_INV == 3

/-- Read a copy of a page (R239). -/
def readCopy (k : Nat) (loc : Nat) (d : Dev) : Dev :=
  readCrumbs (bitsAt loc 36 5) (bitsAt loc 0 36 * 16) 16 (.pageIn k) d

/-- Start a page-in (R239, R253). -/
def startPageIn (k : Nat) (p : PagePtr) (demand : Bool) (ws : List Waiter) (d : Dev) : Dev :=
  let d1 := { d with map := { d.map with pageIns := d.map.pageIns ++ ([⟨k, p, demand, false, none, false, ws⟩] : List PageIn) } }
  syncMap (readCopy k p.a ((d1.stat (if demand then R.MAP_MISSES else R.MAP_PREFETCHES)) 1))

/-- Install a page that needs no media access, or leave the work waiting for a way. -/
def makePage (w : Waiter) (k : Nat) (data : PageData) (dirty : Bool) (epoch : Nat) (d : Dev) : PageRes × Dev :=
  match fillPage k data dirty epoch d.nextJsn true d with
  | some d1 => (.ready, d1)
  | none => (.wait, stall w d)

/-- A page was found in the eviction buffer: rescue it into a way, clean (R256). -/
def rescue (w : Waiter) (k : Nat) (s : EvSlot) (d : Dev) : PageRes × Dev :=
  match fillPage k s.data false s.epoch s.firstJsn true d with
  | some d1 => (.ready, d1.stat R.MAP_RESCUES 1)
  | none => (.wait, stall w d)

/-- The prefetch of R254 after a demand miss on a page. -/
def prefetchNext (k : Nat) (d : Dev) : Dev :=
  let n := k + 1
  let chunks := match d.ns (keyTree k) with
    | some x => x.chunks
    | none => 512 * 128 ^ 5
  let inTree := keyPage k + 1 < 2 ^ 33 &&
    (!isLogical (keyTree k) || decide ((keyPage k + 1) * 512 * 128 ^ keyLevel k < chunks)) && decide (keyLevel k < 6)
  if !inTree || (d.line n).isSome || (slotOfKey d n).isSome || d.map.pageIns.any (fun p => p.key == n) ||
      decide (d.map.pageIns.length ≥ 3072) then d
  else match parentOf d n with
    | none => d
    | some (pk, i) =>
      match d.line pk with
      | none => d
      | some l =>
        let p := ptrAt l.data i
        if p = ptrNull ∨ p.lost then d else startPageIn n p false [] d

/-- Follow a page's pointer (R238 to R240, R253). -/
def viaPtr (w : Waiter) (k : Nat) (p : PagePtr) (d : Dev) : PageRes × Dev :=
  if p = ptrNull then makePage w k [] false 0 d
  else if p.lost then
    match lostPage k with
    | some data => makePage w k data true p.epoch d
    | none => (.unavailable, d)
  else if d.map.pageIns.length ≥ 4096 then (.wait, stall w d)
  else (.wait, prefetchNext k (startPageIn k p true [w] d))

/-- The root pointer of a logical map's tree that came with its instance (R430, R433) and does not stand in this head's namespace-root tree
yet. -/
def arrivedRoot (d : Dev) (k : Nat) : Option PagePtr :=
  if isLogical (keyTree k) && keyLevel k == rootLevel d (keyTree k) then tabFind d.map.roots (k / 2 ^ 33) else none

/-- A page of a tree being taken over has to be asked of the previous owner first (R430). -/
def handingIn (d : Dev) (k : Nat) : Bool :=
  d.map.handIn.any (fun e => e.1 == keyTree k && decide (d.now < e.2)) && !d.map.answered.contains k

/-- Ask the previous owner for its line of a page, once (R430). -/
def askLine (k : Nat) (d : Dev) : Dev :=
  if d.map.asked.contains k then d
  else sendPeer 0x43 0 [k] [] { d with map := { d.map with asked := d.map.asked ++ [k] } }

/-- Bring a page into the cache for a piece of work (R253, R256, R257): present, or the work waits, or never. -/
def ensurePage (fuel : Nat) (w : Waiter) (k : Nat) (d : Dev) : PageRes × Dev :=
  match fuel with
  | 0 => (.unavailable, d)
  | n + 1 =>
    if walking d || stewardHeld d 0x10 then (.wait, stall w d)
    else if d.map.rebuild.contains k then (.wait, stall w d)
    else match findWay d k with
      | some way =>
        let used := match d.line k with
          | some l => l.prefetched
          | none => false
        let d1 := (plruMark (setIndex k) way true d).modLine k fun l => { l with prefetched := false }
        (.ready, if used then d1.stat R.MAP_PREFETCH_USED 1 else d1)
      | none =>
        match slotOfKey d k with
        | some (_, s) => rescue w k s d
        | none =>
          if d.map.pageIns.any fun p => p.key == k then
            (.wait, modPageIn k (fun p => { p with
              waiters := if p.waiters.contains w then p.waiters else p.waiters ++ [w] }) d)
          else if handingIn d k then (.wait, stall w (askLine k d))
          else match parentOf d k, arrivedRoot d k with
            | none, _ => viaPtr w k (tabGet ptrNull d.map.roots (k / 2 ^ 33)) d
            | _, some p => viaPtr w k p d
            | some (pk, i), none =>
              match ensurePage n w pk d with
              | (.ready, d1) => match d1.line pk with
                | some l => viaPtr w k (ptrAt l.data i) d1
                | none => (.wait, stall w d1)
              | r => r

/-- Levels a chain of absent parents can have: eight pages of one tree and three of the namespace roots. -/
def mapFuel : Nat := 12

/-- What a lookup answers. -/
inductive Look where
  | val (v : Nat × Nat) | unavailable | wait
  deriving DecidableEq, Repr

/-- Count a lookup: a hit where the line was there (R253). -/
def countLookup (hit : Bool) (d : Dev) : Dev :=
  let d1 := d.stat R.MAP_LOOKUPS 1
  if hit then d1.stat R.MAP_HITS 1 else d1

/-- The logical map entry of a chunk (R234, R235, R243). -/
def lookupEntry (w : Waiter) (newest : Bool) (nsg chunk : Nat) (d : Dev) : Look × Dev :=
  let k := mkKey nsg 0 (chunk / 512)
  let hit := (d.line k).isSome
  match ensurePage mapFuel w k d with
  | (.ready, d1) =>
    let base := match d1.line k with
      | some l => tabGet 0 l.data (chunk % 512)
      | none => entUnmapped
    let v := (modeRecs d1 newest).foldl (fun e r =>
      if r.type = 1 ∧ r.nsg = nsg ∧ r.subject = chunk then r.a else e) base
    (.val (v, 0), countLookup hit d1)
  | (.unavailable, d1) => (.unavailable, countLookup false d1)
  | (.wait, d1) => (.wait, d1)

/-- Ask the owner for a peer-owned record (R242). -/
def askRecord (h mode dom : Nat) (d : Dev) : Dev :=
  if d.per.reqs.any fun r => r.mtype == 0x18 && r.a == h then d
  else requestPeer 0x18 h mode [h, mode, dom % 4096] [] MedWork.none (d.stat R.MAP_REMOTE 1)

/-- The two words of a content record (R182, R243). A record the peer owns is asked for; its mode bits are NEWEST 1, LEASE 2,
HOLD 4. -/
def lookupRecord (w : Waiter) (mode dom h : Nat) (d : Dev) : Look × Dev :=
  if d.owns (handleHead h) then
    let k := contentKey h
    let hit := (d.line k).isSome
    match ensurePage mapFuel w k d with
    | (.ready, d1) =>
      let i := 2 * (slotOf h % 256)
      let base := match d1.line k with
        | some l => (tabGet 0 l.data i, tabGet 0 l.data (i + 1))
        | none => (0, 0)
      (.val ((modeRecs d1 (bitAt mode 0)).foldl (fun v r => applyRec h r v) base), countLookup hit d1)
    | (.unavailable, d1) => (.unavailable, countLookup false d1)
    | (.wait, d1) => (.wait, d1)
  else match tabFind d.map.remote h with
    | some r => if r.status = 0 then
        (.val ((modeRecs d (bitAt mode 0)).foldl (fun v x => applyRec h x v) (r.w0, r.w1)), countLookup false d)
      else (.unavailable, d)
    | none => if d.peerUp then (.wait, stall w (askRecord h mode dom d)) else (.unavailable, d)

/-- Forget the answers the peer gave about a record, once the work that asked has used them. -/
def forgetRemote (h : Nat) (d : Dev) : Dev := { d with map := { d.map with remote := tabDel d.map.remote h } }

/-- A position lies under one that a deletion walk has still to visit, or is its leaf in progress (R448). -/
def underKey (k a : Nat) : Bool :=
  keyTree k == keyTree a && decide (keyLevel k ≤ keyLevel a) && keyPage k / 128 ^ (keyLevel a - keyLevel k) == keyPage a

/-- The deletion walk of a snapshot has passed a position, so that the snapshot is excluded there (R447). -/
def walkPassed (d : Dev) (nsg epoch k : Nat) : Bool :=
  match d.nvm.walks.find? fun w => w.nsg == nsg && w.snap == epoch with
  | none => false
  | some w => w.started && !(w.todo.any fun e => underKey k e.1) && !(w.leaf.any fun e => e.1 == k)

/-- A snapshot still holds versions of a position (R447). -/
def snapHolds (d : Dev) (nsg k : Nat) (s : Snap) : Bool :=
  s.state == 1 || s.state == 2 || (s.state == 3 && !walkPassed d nsg s.epoch k)

/-- The snapshots that share a version of a page with epoch `v`, lowest epoch first (R438, R443, R447). The list pages belong to no
snapshot's tree. -/
def sharers (d : Dev) (n : Ns) (k v : Nat) : List Nat :=
  if v ≥ n.epoch ∨ keyLevel k ≥ 6 then []
  else ((n.snaps.filter fun s => decide (s.epoch ≥ v) && snapHolds d n.nsg k s).map (·.epoch)).foldl (fun l e =>
    l.filter (· < e) ++ [e] ++ l.filter (· > e)) []

/-- The epoch of the snapshot that owns a version of a page with epoch `v`, where one shares it (R443). -/
def ownerSnap (d : Dev) (n : Ns) (k v : Nat) : Option Nat := (sharers d n k v).head?

/-- A child of a directory page has a version with an epoch above `lo` that is not yet on flash where the directory's frozen version for
a snapshot will name it (R445). -/
def childPending (d : Dev) (k lo epoch : Nat) : Bool :=
  let child := fun (c : Nat) => keyTree c == keyTree k && keyLevel c + 1 == keyLevel k && keyPage c / 128 == keyPage k
  let live := fun (v : Nat) => decide (lo < v ∧ v ≤ epoch)
  d.map.evb.any (fun e => child e.2.key && (e.2.snap == some epoch || (e.2.snap.isNone && live e.2.epoch))) ||
    d.map.lines.any fun e => child e.2.key && e.2.dirty && live e.2.epoch

/-- Place a slot once its order lets it (R445): a frozen directory after every child version it names. -/
def placeReady (i : Nat) (d : Dev) : Dev :=
  match tabFind d.map.evb i with
  | none => d
  | some s =>
    match s.snap with
    | some e => if childPending d s.key 0 e then d else placeSlot i d
    | none => placeSlot i d

/-- Put a line's data into a frozen slot for a snapshot (R444). -/
def freezeSlot (l : MapLine) (e v : Nat) (d : Dev) : Option Dev :=
  match freeSlot d with
  | none => none
  | some i => some (placeReady i { d with map := { d.map with
      evb := tabPut d.map.evb i (⟨l.key, l.data, false, 0, 0, 0, false, l.firstJsn, v, some e⟩ : EvSlot) } })

/-- The epoch of a namespace in force for the mutation with a JSN (R441): groups below a Create's boundary belong to its snapshot. -/
def epochAt (n : Ns) (jsn : Nat) : Nat :=
  (n.snaps.filter fun s => s.state == 1 && jsnLt jsn s.boundary).foldl (fun b s => Nat.min b s.epoch) n.epoch

/-- Freeze a line before its first change in the current epoch (R444): one slot for the owning snapshot unless its version is on flash
already, and one for a later snapshot of its own where a child of the page has a version that only that one takes (R445). None
where no slot is free. -/
def freezeLine (k jsn : Nat) (d : Dev) : Option Dev :=
  match d.line k, d.ns (keyTree k) with
  | some l, some n =>
    let now := epochAt n jsn
    if !isLogical (keyTree k) || decide (l.epoch ≥ now) then some d
    else
      let d0 := d.modLine k fun l => { l with epoch := now }
      match (sharers d n k l.epoch).filter (· < now) with
      | [] => some d0
      | e :: rest =>
        let d1 := d0.stat R.SNP_FROZEN 1
        let first := if !l.dirty && (slotOfKey d k).isNone && !childPending d k 0 e then some d1 else freezeSlot l e l.epoch d1
        (rest.foldl (fun (s : Nat × Option Dev) e2 =>
          (e2, s.2.bind fun d2 => if childPending d k s.1 e2 then freezeSlot l e2 e2 (d2.stat R.SNP_FROZEN 1) else some d2))
          (e, first)).2
  | _, _ => some d

/-- Change the words of a page that is present, freezing it first (R185, R234, R444). -/
def changeLine (k jsn : Nat) (f : PageData → PageData) (d : Dev) : Option Dev :=
  (freezeLine k jsn d).map fun d1 => dirtyLine k jsn (d1.modLine k fun l => { l with data := f l.data })

/-- Words of a snapshot record after a journal record (R439, R440); `root` is the root pointer it takes at Create. -/
def applySnap (r : JRec) (time : Nat) (root : PagePtr) (p : PageData) : PageData :=
  let i := 8 * (r.subject % 64)
  let ptr := fun (p : PageData) (x : PagePtr) =>
    let b := ptrBytes x
    (List.range 4).foldl (fun p j => setWord p (i + 4 + j) (fieldAt b (8 * j) 8)) p
  match r.type with
  | 0x10 => ptr (setWord (setWord (setWord (setWord p i (r.subject % 2 ^ 32 + r.a / 2 ^ 32 * 2 ^ 32)) (i + 1)
      (r.a % 2 ^ 32 + 2 ^ 32)) (i + 2) (r.b % 2 ^ 32)) (i + 3) time) root
  | 0x12 => setWord p (i + 1) (r.a % 2 ^ 32 + 3 * 2 ^ 32)
  | 0x13 => ptr (setWord p (i + 1) (tabGet 0 p (i + 1) % 2 ^ 32 + 2 * 2 ^ 32)) root
  | 0x14 => (List.range 8).foldl (fun p j => setWord p (i + j) 0) p
  | _ => p

/-- The root pointer of a namespace's live tree as last written back (R445). -/
def liveRoot (d : Dev) (nsg : Nat) : PagePtr :=
  match d.line (mkKey (nsTree d nsg) 0 (nsg / 128)) with
  | some l => ptrAt l.data (nsg % 128)
  | none => ptrNull

/-- A page's words after a journal record. -/
def applyToPage (k : Nat) (r : JRec) (p : PageData) : PageData :=
  if r.type = 1 then setWord p (r.subject % 512) r.a
  else ((recHandles r).filter fun h => contentKey h == k).foldl (fun p h =>
    let i := 2 * (slotOf h % 256)
    let v := applyRec h r (tabGet 0 p i, tabGet 0 p (i + 1))
    setWord (setWord p i v.1) (i + 1) v.2) p

/-- Owner of a page among the heads: this head changes it (R241). -/
def ownsPage (d : Dev) (k : Nat) : Bool :=
  let t := keyTree k
  if isLogical t then match d.ns t with
    | some n => d.getF (R.INS_I_STATE_SERVER n.inst) == d.headNum
    | none => false
  else d.owns (t % 2)

/-- The root pointer that a snapshot record takes (R440, R445): at Create the live one as last written back, at SNAP_ROOT that of the
record. -/
def recRoot (d : Dev) (r : JRec) : PagePtr :=
  if r.type = 0x13 then
    let e := match d.ns r.nsg with
      | some n => ((n.snaps.find? fun s => s.id == r.subject).map (·.root.epoch)).getD 0
      | none => 0
    if r.a = 0 ∧ r.b = 0 then ptrNull else ⟨r.a, r.b, r.c % 2 ^ 32, e, r.c / 2 ^ 32 % 256, false⟩
  else liveRoot d r.nsg

/-- Keep the snapshot list that the steward works with in step with the list pages (R439). -/
def noteSnap (r : JRec) (time : Nat) (root : PagePtr) (d : Dev) : Dev :=
  let upd := fun (n : Ns) =>
    match r.type with
    | 0x10 =>
      let x : Snap := ⟨r.subject, r.subject % 4096, r.a / 2 ^ 32, r.a % 2 ^ 32, 1, r.b % 2 ^ 32, time, root⟩
      { n with snaps := n.snaps.filter (fun s => s.id != r.subject) ++ [x], epoch := Nat.max n.epoch (r.a % 2 ^ 32 + 1) }
    | 0x12 => { n with snaps := mapWhere (fun s => s.id == r.subject) (fun s => { s with state := 3 }) n.snaps }
    | 0x13 => { n with snaps := mapWhere (fun s => s.id == r.subject) (fun s => { s with state := 2, root := root }) n.snaps }
    | 0x14 => { n with snaps := n.snaps.filter fun s => s.id != r.subject }
    | _ => n
  match d.ns r.nsg with
  | some n => { d with nvm := { d.nvm with namespaces := tabPut d.nvm.namespaces r.nsg (upd n) } }
  | none => d

/-- A peer's record has changed a page: its lowest such JSN is kept until the page is on flash (R248). -/
def notePeerJsn (k j : Nat) (d : Dev) : Dev :=
  match tabFind d.map.peerFirst k with
  | some _ => d
  | none => { d with map := { d.map with peerFirst := tabPut d.map.peerFirst k j } }

/-- Apply one durable mutation, or keep it where its page is not there yet (R243). A snapshot's Create needs the page of the live root
pointer as well. -/
def applyOne (m : Mutation) (s : List Mutation × Dev) : List Mutation × Dev :=
  let snap := decide (0x10 ≤ m.rec'.type ∧ m.rec'.type ≤ 0x14)
  if s.1.any fun x => x.key == m.key then (s.1 ++ [m], s.2)
  else
    let pre := if m.rec'.type = 0x10 then ensurePage mapFuel .apply (mkKey (nsTree s.2 m.rec'.nsg) 0 (m.rec'.nsg / 128)) s.2
      else (PageRes.ready, s.2)
    match pre with
    | (.wait, d1) => (s.1 ++ [m], d1)
    | (_, d0) =>
      match ensurePage mapFuel .apply m.key d0 with
      | (.ready, d1) =>
        let root := recRoot d1 m.rec'
        let f := if snap then applySnap m.rec' m.time root else applyToPage m.key m.rec'
        match changeLine m.key (if m.peer then d1.nextJsn else m.jsn) f d1 with
        | some d2 =>
          let d3 := if m.rec'.type = 1 then d2.modLine m.key fun l => { l with heat := some d2.now }
            else if snap then noteSnap m.rec' m.time root d2 else d2
          (s.1, if m.peer then notePeerJsn m.key m.jsn d3 else d3)
        | none => (s.1 ++ [m], d1)
      | (.unavailable, d1) => (s.1, d1)
      | (.wait, d1) => (s.1 ++ [m], d1)

/-- Apply the durable mutations whose pages are there, in JSN order for each page. During the final move and the walk of an
invalidate-all they wait (R261). -/
def applyDeferred (d : Dev) : Dev :=
  if d.getF R.MAP_STATE_INV ≥ 2 then d
  else
    let r := d.map.deferred.foldl (fun s m => applyOne m s) (([] : List Mutation), { d with map := { d.map with deferred := [] } })
    syncMap { r.2 with map := { r.2.map with deferred := r.1 ++ r.2.map.deferred } }

/-- Hand the records of a durable group to the map, for the pages this head owns (R122, R242). The snapshot list of a namespace the peer serves
is kept in step as well. -/
def makeVisible (peer : Bool) (jsn time : Nat) (rs : List JRec) (d : Dev) : Dev :=
  let ms := ((List.range rs.length).zip rs).flatMap fun e =>
    ((recKeys e.2).filter (ownsPage d)).map fun k => (⟨jsn + e.1, k, e.2, time, peer⟩ : Mutation)
  let d1 := if peer then forEach (rs.filter fun r => decide (0x10 ≤ r.type ∧ r.type ≤ 0x14) && !ownsPage d (mkKey r.nsg 7 0))
    (fun r d => noteSnap r time (if r.type = 0x13 then recRoot d r else ptrNull) d) d else d
  applyDeferred { d1 with map := { d1.map with deferred := d1.map.deferred ++ ms } }

/-- Hold or release the lines that a control ticket names (R244). -/
def holdLines (ks : List Nat) (on : Bool) (d : Dev) : Dev :=
  forEach ks (fun k d => { d with map := { d.map with
    holds := tabSet 0 d.map.holds k (if on then tabGet 0 d.map.holds k + 1 else tabGet 0 d.map.holds k - 1) } }) d

/-- REDO of this head (R246): the lowest JSN a page that is not on flash still needs. -/
def redoJsn (d : Dev) : Nat :=
  let js := d.map.fifo.map (·.2) ++ d.map.evb.map (fun e => e.2.firstJsn) ++ (d.map.deferred.filter fun m => !m.peer).map (·.jsn) ++
    (d.write.groups.filter fun g => g.stage != .reserved).map (·.jsn) ++
    (d.map.handLines.filter (·.dirty)).map (·.jsn) ++ d.map.handed.map (·.2)
  js.foldl (fun b j => if jsnLt j b then j else b) d.nextJsn

/-- Dirty map-cache lines for the dirty budget (R246). -/
def dirtyLines (d : Dev) : Nat :=
  (d.map.lines.filter fun l => l.2.dirty).length + (d.map.evb.filter fun e => decide (e.2.programmed < 2)).length

end Sys2Proof.Machine
end

