-- ==== Sys2Proof/Machine/NvmOps.lean ====
section
/-! DEFINITION. Commands from accept to completion: statuses, completions on fabric queues, slice queues and the peer's
forwarded queues, asynchronous events, Error Information and loss records (R402 to R407, R416, R425, R531, R535). -/

namespace Sys2Proof.Machine

/-- Statuses (R402), SCT × 256 + SC. -/
def stOk : Nat := 0
/-- Invalid Command Opcode. -/
def stOpcode : Nat := 0x001
/-- Invalid Field in Command. -/
def stField : Nat := 0x002
/-- Data Transfer Error. -/
def stTransfer : Nat := 0x004
/-- Internal Error. -/
def stInternal : Nat := 0x006
/-- Command Abort Requested. -/
def stAborted : Nat := 0x007
/-- Invalid Namespace or Format. -/
def stNamespace : Nat := 0x00B
/-- Invalid Number of SGL Descriptors. -/
def stSglCount : Nat := 0x00E
/-- Data SGL Length Invalid. -/
def stSglLen : Nat := 0x00F
/-- SGL Descriptor Type Invalid. -/
def stSglType : Nat := 0x011
/-- Command Interrupted. -/
def stInterrupted : Nat := 0x021
/-- LBA Out of Range. -/
def stLba : Nat := 0x080
/-- Capacity Exceeded. -/
def stCapacity : Nat := 0x081
/-- Asynchronous Event Request Limit Exceeded. -/
def stAerLimit : Nat := 0x105
/-- Unrecovered Read Error. -/
def stUnrecovered : Nat := 0x281
/-- Asymmetric Access Inaccessible. -/
def stInaccessible : Nat := 0x302
/-- Host Pathing Error. -/
def stPathing : Nat := 0x370
/-- Snapshot Limit Reached. -/
def stSnapLimit : Nat := 0x7C0
/-- Snapshot Not Found. -/
def stSnapNotFound : Nat := 0x7C1
/-- Snapshot In Use. -/
def stSnapInUse : Nat := 0x7C2

/-- Do Not Retry (R402). -/
def dnrOf (st : Nat) : Bool := st != 0 && !([0x021, 0x081, 0x302, 0x370].contains st)

/-- Heads of every command between accept and completion. -/
def allHeads (d : Dev) : List CHead :=
  d.write.cmds.map (·.h) ++ (d.read.cmds.filter fun r => r.purpose == .client).map (·.h) ++ d.nvm.cmds.map (·.h)

/-- Bring the outstanding levels up to date (R408, R437). -/
def syncOutstanding (inst : Nat) (d : Dev) : Dev :=
  let ext := (allHeads d).filter fun h => match h.origin with
    | .internal _ => false
    | .stream _ _ _ => false
    | _ => true
  let d1 := (d.setF R.CMQ_OUTSTANDING_CMDS ext.length).setF (R.INS_I_OUTSTANDING_CMDS inst)
    (ext.filter fun h => h.inst == inst).length
  d1.setF R.CMQ_RD_INFLIGHT_CMDS (d.read.cmds.filter fun r => r.purpose == .client).length

/-- A controller. -/
def Dev.ctrl (d : Dev) (c : Nat) : Option Ctrl := tabFind d.nvm.ctrls c
/-- Change a controller. -/
def Dev.modCtrl (d : Dev) (c : Nat) (f : Ctrl → Ctrl) : Dev :=
  match tabFind d.nvm.ctrls c with
  | some x => { d with nvm := { d.nvm with ctrls := tabPut d.nvm.ctrls c (f x) } }
  | none => d

/-- A slice never bound. -/
def sliceFresh : Slice := ⟨false, 0, 0, [], 0, 0, 0xFFFF, 0⟩
/-- A slice. -/
def Dev.slice (d : Dev) (s : Nat) : Slice := tabGet sliceFresh d.nvm.slices s
/-- Change a slice. -/
def Dev.modSlice (d : Dev) (s : Nat) (f : Slice → Slice) : Dev :=
  { d with nvm := { d.nvm with slices := tabPut d.nvm.slices s (f (d.slice s)) } }
/-- A slice queue with nothing in it. -/
def sliceQFresh : SliceQ := ⟨0, 0, 0, 0, 0, 0, true, false, []⟩

/-- SQID a completion names. -/
def originQid (o : Origin) : Nat :=
  match o with
  | .fabric _ q _ => q
  | .slice _ q _ => q + 1
  | .peer a => bitsAt a 32 16
  | _ => 0
/-- CID a completion names. -/
def originCid (o : Origin) : Nat :=
  match o with
  | .fabric _ _ c => c
  | .slice _ _ c => c
  | .peer a => bitsAt a 48 16
  | _ => 0

/-- The 16 bytes of a completion entry, with its phase bit. -/
def cqeBytes (sqHead qid cid st dw0 : Nat) (phase : Bool) : Bytes :=
  leBytes 8 dw0 ++ leBytes 2 sqHead ++ leBytes 2 qid ++ leBytes 2 cid ++
    leBytes 2 (b2n phase + (st % 256) * 2 + (st / 256 % 8) * 512 + b2n (dnrOf st) * 32768)

/-- Signal a slice's vector under its hold-off (R531). -/
def sliceMessage (s : Nat) (d : Dev) : Dev :=
  let x := d.slice s
  if x.vector = 0xFFFF then d
  else
    let m := tabGet ⟨false, 0⟩ d.hep.slices s
    if m.holdoff then { d with hep := { d.hep with slices := tabPut d.hep.slices s ⟨true, m.entries + 1⟩ } }
    else
      let on := d.getF R.HEP_MSIX_HOLDOFF_UNITS != 0
      { d.msix x.vector (some x.pasid) with hep := { (d.msix x.vector (some x.pasid)).hep with
          slices := tabPut d.hep.slices s ⟨on, 0⟩ } }

/-- Write a completion entry to a slice's queue in host memory: the entry, the tail, the phase (R416). -/
def putCqe (s q : Nat) (st dw0 cid : Nat) (d : Dev) : Dev :=
  let x := d.slice s
  let y := tabGet sliceQFresh x.queues q
  let b := cqeBytes y.sqHead (q + 1) cid st dw0 y.phase
  let tail := if y.cqTail + 1 ≥ x.depth then 0 else y.cqTail + 1
  (d.hostWrite (y.cqBase + 16 * y.cqTail) b (some x.pasid)).modSlice s fun z => { z with
    queues := tabPut z.queues q { y with cqTail := tail, phase := if tail = 0 then !y.phase else y.phase } }

/-- Whether a slice's completion queue has no free entry. -/
def cqFull (d : Dev) (s q : Nat) : Bool :=
  let x := d.slice s
  let y := tabGet sliceQFresh x.queues q
  (if y.cqTail + 1 ≥ x.depth then 0 else y.cqTail + 1) == y.cqHead

/-- Write a completion entry and signal the slice; with the queue full, or others waiting, it waits for the host to free an entry. -/
def writeCqe (s q : Nat) (st dw0 cid : Nat) (d : Dev) : Dev :=
  if cqFull d s q || !(tabGet sliceQFresh (d.slice s).queues q).cqWait.isEmpty then
    d.modSlice s fun z => { z with queues := tabMod sliceQFresh z.queues q fun y => { y with cqWait := y.cqWait ++ [(st, dw0, cid)] } }
  else sliceMessage s (putCqe s q st dw0 cid d)

/-- A completion for a slice: discarded for an older generation (R425, R537), held while host DMA is stopped (R535), else written. -/
def sliceCpl (h : CHead) (s q cid st dw0 : Nat) (d : Dev) : Dev :=
  if (d.slice s).gen ≠ h.sgen then
    ((d.stat (R.INS_I_DISCARDS h.inst) 1).stat R.INS_DISCARDS 1).stat R.HEP_DISCARDED_CPL 1
  else if d.dmaOn then writeCqe s q st dw0 cid d
  else
    let d1 := { d with hep := { d.hep with held := d.hep.held ++
        ([⟨s, q, h.sgen, leBytes 4 dw0 ++ leBytes 2 cid ++ leBytes 2 st⟩] : List HeldCqe) } }
    (d1.setF R.HEP_HELD_CPL_ENTRIES d1.hep.held.length).setB R.HEP_FUNC_HOLDING true

/-- Add an Error Information entry to the command's controller (R402). -/
def addError (h : CHead) (st lba : Nat) (d : Dev) : Dev :=
  match h.origin with
  | .fabric c q cid => d.modCtrl c fun x => { x with
      errCount := x.errCount + 1
      errors := (⟨x.errCount + 1, q, cid, st, lba, h.sqe.nsid⟩ :: x.errors).take 256 }
  | _ => d

/-- The Ordered bit of an I/O command (R391). -/
def isOrdered (h : CHead) : Bool := !h.admin && bitAt h.sqe.cdw3 31

/-- Count a completed command (R402, R408). -/
def countCpl (h : CHead) (st : Nat) (d : Dev) : Dev :=
  let d1 := d.stat (if h.admin then R.CMQ_ADMIN_CMDS else R.CMQ_IO_CMDS) 1
  let d2 := if isOrdered h then d1.stat R.CMQ_ORDERED 1 else d1
  let d3 := if st ≠ 0 then d2.err R.E_CMQ_ERR_CMDS else d2
  let d4 := if [0x001, 0x002, 0x00E, 0x011].contains st then d3.err R.E_CMQ_INVALID_CMDS else d3
  if st = stAborted then d4.stat R.CMQ_ABORTS 1 else d4

/-- Discard a completion of an older generation (R425). -/
def discardCpl (h : CHead) (d : Dev) : Dev := (d.stat (R.INS_I_DISCARDS h.inst) 1).stat R.INS_DISCARDS 1

/-- Whether a command's instance has moved on to another generation (R99, R425). -/
def staleHead (d : Dev) (h : CHead) : Bool := !h.admin && h.gen != d.instGen h.inst

/-- Queue pair of a controller's queue; its admin queue pair for queue 0. -/
def queueQp (x : Ctrl) (q : Nat) : Nat :=
  if q = 0 then x.qpn else ((x.qids.find? fun e => e.1 == q).map (·.2)).getD 0

/-- Send a command's completion to where it came from (R402). `lba` is the LBA that an Error Information entry gives. -/
def sendCompletion (h : CHead) (st dw0 lba : Nat) (d : Dev) : Dev :=
  if staleHead d h then discardCpl h d
  else
    let d1 := countCpl h st (if st = 0 then d else addError h st lba d)
    match h.origin with
    | .fabric c q cid =>
      match d1.ctrl c with
      | none => discardCpl h d
      | some x =>
        let n := queueQp x q
        let inv := if bitsAt h.sqe.dptr 120 8 = 0x4F then bitsAt h.sqe.dptr 88 32 else 0
        if (d1.qp n).st ≠ .rts then d1
        else
          let d2 := (d1.emit (.completion c q cid st dw0 (dnrOf st))).modQp n fun y => { y with recvFree := y.recvFree + 1 }
          postMsg n .send .none (cqeBytes 0 q cid st dw0 false) 16 inv 0 d2
    | .slice s q cid => sliceCpl h s q cid st dw0 d1
    | .peer a => if !d1.peerUp then discardCpl h d1 else sendPeer 0x32 0 [a] (cqeBytes 0 (bitsAt a 32 16) (bitsAt a 48 16) st dw0 false) d1
    | _ => d

/-- Namespaces of an instance. -/
def instNamespaces (d : Dev) (i : Nat) : List Ns := (d.nvm.namespaces.filter fun e => e.2.inst == i).map (·.2)

/-- Take a command out of the table of commands that are neither reads nor writes. -/
def dropNCmd (id : Nat) (d : Dev) : Dev :=
  { d with nvm := { d.nvm with cmds := d.nvm.cmds.filter fun c => c.h.id != id } }

/-- Change a command of that table. -/
def Dev.modN (d : Dev) (id : Nat) (f : NCmd → NCmd) : Dev :=
  { d with nvm := { d.nvm with cmds := mapWhere (fun c => c.h.id == id) f d.nvm.cmds } }

/-- A command of that table. -/
def Dev.nCmd (d : Dev) (id : Nat) : Option NCmd := d.nvm.cmds.find? fun c => c.h.id == id

/-- Complete a command of that table. -/
def finishN (id st dw0 : Nat) (d : Dev) : Dev :=
  match d.nCmd id with
  | none => d
  | some c => syncOutstanding c.h.inst (sendCompletion c.h st dw0 0 (dropNCmd id d))

/-- Post an asynchronous event on a controller that has a request outstanding (R405, R407): Dword 0 carries type, information and
log page. One whose page's last event has not been read yet gets none. -/
def postAen (c type info page : Nat) (d : Dev) : Dev :=
  match d.ctrl c with
  | none => d
  | some x =>
    match x.aers with
    | [] => d
    | id :: rest =>
      if x.maskedEv.contains page then d
      else finishN id stOk (type + info * 256 + page * 65536)
        ((d.modCtrl c fun x => { x with aers := rest, maskedEv := x.maskedEv ++ [page] }).stat R.CMQ_AER_POSTED 1)

/-- Controllers of an instance. -/
def instCtrls (d : Dev) (i : Nat) : List Nat :=
  (d.nvm.ctrls.filter fun e => e.2.inst == i).map (·.1)

/-- An instance beside its registers, never created. -/
def instFresh : Inst := ⟨[], [], 0, 0, 0, [], none, 0, 0, 0⟩
/-- An instance. -/
def Dev.inst (d : Dev) (i : Nat) : Inst := tabGet instFresh d.nvm.insts i
/-- Change an instance. -/
def Dev.modInst (d : Dev) (i : Nat) (f : Inst → Inst) : Dev :=
  { d with nvm := { d.nvm with insts := tabPut d.nvm.insts i (f (d.inst i)) } }

/-- ANA change: event type 2h, information 03h, log page 0Ch, on each controller of the instance (R405); the change is counted for
the log page. -/
def anaChange (i : Nat) (d : Dev) : Dev := forEach (instCtrls d i) (fun c d => postAen c 2 3 0x0C d)
  (d.modInst i fun x => { x with anaCount := x.anaCount + 1 })

/-- A namespace of an instance changed: event type 2h, information 00h, log page 04h (R401). -/
def nsChange (i nsid : Nat) (d : Dev) : Dev :=
  forEach (instCtrls d i) (fun c d => postAen c 2 0 4 (d.modCtrl c fun x => { x with
    changed := if x.changed.contains nsid then x.changed else x.changed ++ [nsid] })) d

/-- Next LSEQ (R406): it skips 0. -/
def nextLseq (s : Nat) : Nat := if (s + 1) % 2 ^ 32 = 0 then 1 else (s + 1) % 2 ^ 32

/-- Bring `CMQ_LOSS_SEQ` up to date. -/
def syncLoss (d : Dev) : Dev :=
  (d.setF R.CMQ_LOSS_SEQ_NEWEST d.nvm.lseq).setF R.CMQ_LOSS_SEQ_OLDEST ((d.nvm.loss.head?.map (·.lseq)).getD 0)

/-- Add a loss record (R173, R406, R407): no second one for a namespace chunk and handle whose first one stands in the log. -/
def addLoss (nsg chunk lost cause m flags page handle : Nat) (d : Dev) : Dev :=
  if d.nvm.loss.any fun r => r.nsg == nsg && r.chunk == chunk && r.handle == handle then d
  else
    let q := nextLseq d.nvm.lseq
    let l := d.nvm.loss ++ [⟨q, nsg, chunk, lost, cause, m, flags, page, handle, d.now⟩]
    let d1 := syncLoss { d with nvm := { d.nvm with lseq := q, loss := l.drop (l.length - 65536) } }
    let i := match d.ns nsg with
      | some n => n.inst
      | none => 0
    forEach (instCtrls d1 i) (fun c d => postAen c 7 0xC0 0xC0 d) d1

/-- Two commands came through the same submission queue (R392). -/
def sameQueue (a b : Origin) : Bool :=
  match a, b with
  | .fabric c q _, .fabric c' q' _ => c == c' && q == q'
  | .slice s q _, .slice s' q' _ => s == s' && q == q'
  | .peer x, .peer y => x % 2 ^ 48 == y % 2 ^ 48
  | _, _ => false

/-- The order rule of R392 lets a command be admitted: an Ordered one waits for all before it, any one for an Ordered one
before it, on its queue. -/
def orderOk (d : Dev) (h : CHead) : Bool :=
  (allHeads d).all fun x => !(decide (x.id < h.id) && sameQueue x.origin h.origin && !x.admin) ||
    !(isOrdered h || isOrdered x)

/-- Bring `CMQ_ORDERED_WAIT` up to date. -/
def syncOrdered (d : Dev) : Dev :=
  let waiting := (d.write.cmds.filter fun c => c.queued && !c.admitted).map (·.h) ++
    (d.read.cmds.filter fun c => c.queued && !c.admitted && c.purpose == .client).map (·.h) ++
    (d.nvm.cmds.filter (·.held)).map (·.h)
  d.setF R.CMQ_ORDERED_WAIT_CMDS (waiting.filter fun h => !orderOk d h).length

end Sys2Proof.Machine
end

