-- ==== Sys2Proof/Machine/PanOps.lean ====
section
/-! DEFINITION. The Pantry: handles, buckets, reservations, holds, probes (R177 to R204). -/

namespace Sys2Proof.Machine

/-- The bucket's entries, newest first (R189). -/
def Dev.bucket (d : Dev) (b : Nat) : List PanEnt := tabGet [] d.pan.buckets b

/-- Write a bucket; `PAN_ENTRIES` follows. -/
def setBucket (b : Nat) (l : List PanEnt) (d : Dev) : Dev :=
  let n := d.getF R.PAN_ENTRIES_USED + l.length - (d.bucket b).length
  ({ d with pan := { d.pan with buckets := tabSet [] d.pan.buckets b l } }).setF R.PAN_ENTRIES_USED n

/-- Remove the entry of a bucket that names a locator (R197). -/
def removeEntry (b loc : Nat) (d : Dev) : Dev := setBucket b ((d.bucket b).filter fun e => e.loc != loc) d

/-- Insert an entry as the newest of its bucket, in place of one with its TAG; the oldest of 16 is dropped (R197). -/
def insertEntry (b tag loc : Nat) (d : Dev) : Dev :=
  let l := ⟨tag, loc⟩ :: (d.bucket b).filter fun e => e.tag != tag
  let d1 := (setBucket b (l.take 16) d).stat R.PAN_INSERTS 1
  if l.length > 16 then d1.stat R.PAN_EVICTS 1 else d1

/-- Move the entry that names a locator to the newest place (R197). -/
def refreshEntry (b loc : Nat) (d : Dev) : Dev :=
  match (d.bucket b).find? fun e => e.loc == loc with
  | some e => setBucket b (e :: (d.bucket b).filter fun x => x.loc != loc) d
  | none => d

/-- Insert an entry as the oldest of its bucket where there is room and its TAG is new (R205). -/
def learnEntry (b tag loc : Nat) (d : Dev) : Dev :=
  let l := d.bucket b
  if l.length ≥ 16 ∨ l.any (fun e => e.tag == tag) then d
  else (setBucket b (l ++ [⟨tag, loc⟩]) d).stat R.PAN_RELEARNED 1

/-- Key of a slot in the table of slots in use. -/
def slotKey (slice9 loc : Nat) : Nat := slice9 * 2 ^ 32 + loc

/-- A slot lies under a content page that is lost for good (R240). -/
def slotLost (d : Dev) (slice9 loc : Nat) : Bool :=
  let page := keyPage (contentKey (slotKey slice9 loc))
  (List.range 7).any fun l => d.pan.noAlloc.contains (mkKey (contentTree (bitsAt loc 31 1)) l (page / 128 ^ l))

/-- A slot is free. -/
def slotFree (d : Dev) (slice9 loc : Nat) : Bool :=
  loc != 0 && !tabGet false d.pan.used (slotKey slice9 loc) && !slotLost d slice9 loc

/-- Mark the slot of a handle used or free. -/
def markSlot (h : Nat) (u : Bool) (d : Dev) : Dev :=
  { d with pan := { d.pan with used := tabSet false d.pan.used (slotOf h) u } }

/-- Allocate a handle, or a pair with an even LOC, from the free slots of its bucket's slice (R181): the lowest, as the model's
choice (log entry 9). -/
def allocHandle (b : Nat) (pair : Bool) (d : Dev) : Option (Nat × Dev) :=
  let s := b % 512
  let base := d.headNum * 2 ^ 31
  let n := (d.pan.used.filter fun e => e.1 / 2 ^ 32 == s).length
  let ok := fun i =>
    if pair then slotFree d s (base + 2 * i) && slotFree d s (base + 2 * i + 1) else slotFree d s (base + i)
  let lost := (d.pan.noAlloc.map fun k => 256 * 128 ^ keyLevel k).foldl (· + ·) 0
  match (List.range (Nat.min (n + lost + 2) (2 ^ 31 / (if pair then 2 else 1)))).find? ok with
  | none => none
  | some i =>
    let loc := if pair then base + 2 * i else base + i
    let h := b * 2 ^ 32 + loc
    let d1 := markSlot h true d
    some (h, if pair then markSlot (h + 1) true d1 else d1)

/-- Return a handle that no record was made under (R136). -/
def returnHandle (h : Nat) (pair : Bool) (d : Dev) : Dev :=
  let d1 := markSlot h false d
  if pair then markSlot (h + 1) false d1 else d1

/-- Levels of the reservation and hold tables. -/
def syncPan (d : Dev) : Dev :=
  (d.setF R.PAN_RESV_USED d.pan.resv.length).setF R.PAN_HOLDS_USED d.pan.holds.length

/-- Hold count of a record. -/
def holdCount (d : Dev) (h : Nat) : Nat := (d.pan.holds.filter fun x => x.handle == h).length

/-- Take a probe hold (R196); on a peer-owned record it is registered with the owner (R242). -/
def takeHold (h cmd chunk : Nat) (d : Dev) : Dev :=
  syncPan { d with pan := { d.pan with holds := d.pan.holds ++ [⟨h, cmd, chunk⟩] } }

/-- Release the probe hold of a chunk (R196). -/
def releaseHold (cmd chunk : Nat) (d : Dev) : Dev :=
  match d.pan.holds.find? fun x => x.cmd == cmd && x.chunk == chunk with
  | none => d
  | some x =>
    let d1 := syncPan { d with pan := { d.pan with
      holds := d.pan.holds.filter fun y => !(y.cmd == cmd && y.chunk == chunk) } }
    if d1.owns (handleHead x.handle) then d1 else sendPeer 0x1A 0 [x.handle, 2] [] d1

/-- Enter a reservation where the table has room (R193). -/
def enterResv (r : Resv) (d : Dev) : Dev :=
  if d.pan.resv.length ≥ 131072 then d else syncPan { d with pan := { d.pan with resv := d.pan.resv ++ [r] } }

/-- Remove the reservation of a handle (R193). -/
def dropResv (h : Nat) (d : Dev) : Dev :=
  syncPan { d with pan := { d.pan with resv := d.pan.resv.filter fun r => r.handle != h } }

/-- A write in flight. -/
def Dev.wCmd (d : Dev) (id : Nat) : Option WCmd := d.write.cmds.find? fun c => c.h.id == id

/-- Change a write. -/
def Dev.modW (d : Dev) (id : Nat) (f : WCmd → WCmd) : Dev :=
  { d with write := { d.write with cmds := mapWhere (fun c => c.h.id == id) f d.write.cmds } }

/-- A chunk of a write, by its chunk index. -/
def Dev.wChunk (d : Dev) (id k : Nat) : Option WChunk :=
  match d.wCmd id with
  | some c => c.chunks.find? fun x => x.idx == k
  | none => none

/-- Change a chunk of a write. -/
def Dev.modChunk (d : Dev) (id k : Nat) (f : WChunk → WChunk) : Dev :=
  d.modW id fun c => { c with chunks := mapWhere (fun x => x.idx == k) f c.chunks }

/-- The reservation a probe uses (R193, R194): of those that match, the one whose command was admitted first, which among
commands in flight is the lowest number admitted. MIRROR2 probes use only pairs. -/
def matchResv (d : Dev) (dom b tag epoch : Nat) (pair : Bool) : Option Resv :=
  (d.pan.resv.filter fun r => r.dom == dom && r.bucket == b && r.tag == tag && r.epoch == epoch && (!pair || r.pair)).foldl
    (fun x r =>
      match x with
      | none => some r
      | some y => if r.cmd < y.cmd then some r else some y) none

/-- The command of a number has passed its gate. -/
def isGated (d : Dev) (cmd : Nat) : Bool :=
  match d.wCmd cmd with
  | some c => c.gated
  | none => true

/-- A MISS (R192, R193): a handle is reserved where the slice has one, and entered so that others can depend on it. -/
def probeMiss (dom b tag epoch cmd chunk : Nat) (pair : Bool) (d : Dev) : Dev :=
  let d1 := d.stat R.PAN_MISSES 1
  match allocHandle b pair d1 with
  | none => d1.modChunk cmd chunk fun c => { c with kind := some .missNone, stage := .squeeze }
  | some (h, d2) =>
    enterResv ⟨dom, b, tag, epoch, h, cmd, chunk, pair⟩
      (d2.modChunk cmd chunk fun c => { c with kind := some (.miss h), stage := .squeeze })

/-- A DEPENDENT HIT (R192). -/
def probeDep (h cmd chunk : Nat) (d : Dev) : Dev :=
  (d.stat R.PAN_DEP_HITS 1).modChunk cmd chunk fun c => { c with kind := some (.depHit h), stage := .ready }

/-- What validation of a Pantry hint finds (R191): it holds, the entry is stale, or it stays and the probe misses. -/
inductive Hint where
  | hit | stale | keep
  deriving DecidableEq, Repr

/-- Checks V1 to V7 of R191 on a record. -/
def checkHint (d : Dev) (dom epoch h : Nat) (pair : Bool) (w : Nat × Nat) : Hint :=
  let f := recFlags w.2
  if !recOk dom h w.1 w.2 || bitAt f 2 || bitAt f 4 || recEpoch w.1 != epoch % 4096 || recRefs w.2 == 0 then .stale
  else if bitAt f 3 || decide (recRefs w.2 + holdCount d h ≥ capLevel) || (pair && !bitAt f 1) ||
      decide (d.pan.holds.length ≥ 131072) then .keep
  else .hit

/-- The probe compares its bucket (R191). -/
def probeBucket (dom b tag epoch cmd chunk : Nat) (pair : Bool) (d : Dev) : Dev :=
  match (d.bucket b).find? fun e => e.tag == tag with
  | none => probeMiss dom b tag epoch cmd chunk pair d
  | some e =>
    let h := b * 2 ^ 32 + e.loc
    match lookupRecord (.probe cmd chunk) 5 dom h d with
    | (.wait, d1) => d1.modChunk cmd chunk fun c => { c with stage := .probeWait }
    | (.unavailable, d1) => probeMiss dom b tag epoch cmd chunk pair
        ((removeEntry b e.loc (forgetRemote h d1)).stat R.PAN_STALE 1)
    | (.val w, d1) =>
      let d2 := forgetRemote h d1
      match checkHint d2 dom epoch h pair w with
      | .stale => probeMiss dom b tag epoch cmd chunk pair ((removeEntry b e.loc d2).stat R.PAN_STALE 1)
      | .keep => probeMiss dom b tag epoch cmd chunk pair d2
      | .hit => (takeHold h cmd chunk (d2.stat R.PAN_HITS 1)).modChunk cmd chunk fun c => { c with
          kind := some (.hit h), stage := .ready }

/-- Probe the Pantry for a chunk (R191 to R194): reservations first, then the bucket; a bucket whose read has an
uncorrectable error is cleared first (R190). While the Pantry steward's region is rebaked the probe waits (R77). -/
def probeChunk (cmd chunk : Nat) (bad : Bool) (d : Dev) : Dev :=
  match d.wCmd cmd, d.wChunk cmd chunk with
  | some c, some x =>
    if x.stage ≠ .probe ∧ x.stage ≠ .probeWait then d
    else if stewardHeld d 0x11 then stall (.probe cmd chunk) d
    else
      let b := fpBucket x.fp
      let tag := fpTag x.fp
      let d0 := if bad then
          ((setBucket b [] d).err R.E_PAN_DRAM_CLR).postAt 0x1103 (ownPage 0x11) [b]
        else d
      let d1 := if x.stage = .probe then d0.stat R.PAN_PROBES 1 else d0
      match matchResv d1 c.dom b tag c.epoch c.mirror2 with
      | none => probeBucket c.dom b tag c.epoch cmd chunk c.mirror2 d1
      | some r =>
        if r.cmd = cmd ∨ isGated d1 r.cmd then probeDep r.handle cmd chunk d1
        else if r.cmd < cmd then
          let d2 : Dev := { d1 with pan := { d1.pan with waits := d1.pan.waits ++ [⟨cmd, chunk, r.cmd⟩] } }
          (d2.stat R.PAN_WAITS 1).modChunk cmd chunk fun c => { c with stage := .probeWait }
        else probeMiss c.dom b tag c.epoch cmd chunk c.mirror2 d1
  | _, _ => d

/-- The zero fingerprint a write compares against: of its domain at its own epoch (R135, R179). -/
def isZeroFp (d : Dev) (c : WCmd) (fp : Bytes) : Bool :=
  match zeroFp d c.dom c.epoch with
  | some z => z == fp
  | none => false

/-- Queue an append to the flash index, or drop it where the queue is full (R201). -/
def queueAppend (b tag loc : Nat) (d : Dev) : Dev :=
  if d.pan.appends.length ≥ 4194304 then d.stat R.PAN_IDX_DROPS 1
  else { d with pan := { d.pan with appends := d.pan.appends ++ [⟨b, tag, loc⟩] } }

/-- Flash pages of a bucket in the index (R200): 64 of 340 entries. -/
def indexKey (d : Dev) (b j : Nat) : Nat := mkKey (indexTree d.headNum) 0 (b * 64 + j)

/-- The used entries of an index page; an all-zero page is empty, a page that fails its CRC is taken as empty too (R200, R238). -/
def indexEntries (p : PageData) : List PanEnt :=
  let b := pageBytes p
  if fieldAt b 12 4 ≠ crcNat (overlay b 12 (zeros 4)) then []
  else (List.range (Nat.min (fieldAt b 6 2) 340)).map fun k => ⟨fieldAt b (16 + 12 * k) 8, fieldAt b (24 + 12 * k) 4⟩

/-- The bytes of an index page (R200). -/
def indexPage (b j : Nat) (l : List PanEnt) : PageData :=
  let body := leBytes 4 b ++ leBytes 1 j ++ leBytes 1 1 ++ leBytes 2 l.length ++ zeros 4
  let ents := l.flatMap fun e => leBytes 8 e.tag ++ leBytes 4 e.loc
  let full := slice (body ++ zeros 4 ++ ents) 0 4096
  pageOf4k (overlay full 12 (leBytes 4 (crcNat full)))

end Sys2Proof.Machine
end

