-- ==== Sys2Proof/Machine/NetOps.lean ====
section
/-! DEFINITION. Data pointers, landing, placing and the end of a command (R123, R131, R169, R383, R384, R395, R403, R404, R417, R498). -/

namespace Sys2Proof.Machine

/-- A data descriptor: address, length, remote key. -/
structure Desc where
  addr : Nat
  len : Nat
  key : Nat
  deriving DecidableEq, Repr

/-- What the data pointer of a command names: no data, bytes of the capsule, or buffers at the client or host. -/
inductive DataPtr where
  | bad (status : Nat)
  | inCapsule (b : Bytes)
  | list (l : List Desc)
  deriving DecidableEq, Repr

/-- Type and subtype of a descriptor's 16 bytes. -/
def sglType (b : Bytes) : Nat := fieldAt b 15 1
/-- A keyed data block. -/
def keyedDesc (b : Bytes) : Desc := ⟨fieldAt b 0 8, fieldAt b 8 3, fieldAt b 11 4⟩
/-- A data block or segment. -/
def plainDesc (b : Bytes) : Desc := ⟨fieldAt b 0 8, fieldAt b 8 4, 0⟩

/-- The descriptors of a list; none where one is of another type. -/
def descList (keyed : Bool) (b : Bytes) : Option (List Desc) :=
  let ds := (List.range (b.length / 16)).map fun i => slice b (16 * i) 16
  if ds.all fun x => if keyed then sglType x == 0x40 || sglType x == 0x4F else sglType x == 0x00 then
    some (ds.map fun x => if keyed then keyedDesc x else plainDesc x)
  else none

/-- Commands that take in-capsule data (R383): Write, Dataset Management, Secure Deallocate. -/
def takesCapsule (opc : Nat) : Bool := [0x01, 0x09, 0x85].contains opc

/-- A list of descriptors, checked as R384 has it. -/
def listPtr (keyed : Bool) (b : Bytes) : DataPtr :=
  let n := b.length / 16
  if b.length % 16 ≠ 0 ∨ n < 2 ∨ n > 16 then .bad stSglCount
  else match descList keyed b with
    | some l => .list l
    | none => .bad stSglType

/-- The data pointer of a command from a fabric queue (R384), from a slice (R417), or of one whose data is already here. -/
def dataPtr (h : CHead) : DataPtr :=
  let b := leBytes 16 h.sqe.dptr
  match h.origin with
  | .fabric _ _ _ =>
    let x := plainDesc b
    if sglType b = 0x40 ∨ sglType b = 0x4F then .list [keyedDesc b]
    else if sglType b = 0x01 then
      if !takesCapsule h.sqe.opc then .bad stSglType
      else if x.len > 8192 ∨ x.addr + x.len > h.cap.length then .bad stSglLen
      else .inCapsule (slice h.cap x.addr x.len)
    else if sglType b = 0x31 then
      if x.len > 8192 ∨ x.addr + x.len > h.cap.length then .bad stSglLen
      else listPtr true (slice h.cap x.addr x.len)
    else .bad stSglType
  | .slice _ _ _ =>
    if h.sqe.psdt ≠ 1 then .bad stSglType
    else if sglType b = 0x00 then .list [plainDesc b]
    else if sglType b = 0x30 then listPtr false h.cap
    else .bad stSglType
  | _ => .inCapsule h.cap

/-- Bytes a data pointer names. -/
def ptrLen (p : DataPtr) : Nat :=
  match p with
  | .bad _ => 0
  | .inCapsule b => b.length
  | .list l => l.foldl (fun n x => n + x.len) 0

/-- The pieces of a buffer list that bytes at an offset fall into (R169): descriptor, offset in it, offset in the bytes, length. -/
def ptrPieces (l : List Desc) (off n : Nat) : List (Desc × Nat × Nat × Nat) :=
  match l with
  | [] => []
  | x :: r =>
    if n = 0 then []
    else if off ≥ x.len then ptrPieces r (off - x.len) n
    else
      let k := Nat.min n (x.len - off)
      (x, off, 0, k) :: (ptrPieces r 0 (n - k)).map fun e => (e.1, e.2.1, e.2.2.1 + k, e.2.2.2)

/-- Queue pair of a command's queue. -/
def headQp (d : Dev) (h : CHead) : Nat :=
  match h.origin with
  | .fabric c q _ => match d.ctrl c with
    | some x => queueQp x q
    | none => 0
  | _ => 0

/-- The descriptors of a command's buffer. -/
def bufList (h : CHead) : List Desc :=
  match dataPtr h with
  | .list l => l
  | _ => []

/-- Where forwarded data of a command lies in the forward landing window of either head (R497; the place is the model's choice,
log entry 8). -/
def fwdOffset (id : Nat) : Nat := id % 2048 * 2 ^ 20
/-- Base of the forward landing window in DRAM (log entry 8). -/
def fwdBase : Nat := 2 ^ 35
/-- Base of the bulk window in DRAM (log entry 8). -/
def bulkBase : Nat := 2 ^ 35 + 2 ^ 32
/-- Base of the receive staging of a stream unit in DRAM (log entry 8). -/
def streamBase (u : Nat) : Nat := 2 ^ 35 + 2 ^ 33 + u * 2 ^ 25

/-- ARG0 of the forwarding frames (R497). -/
def fwdArg (h : CHead) : Nat :=
  match h.origin with
  | .fabric c q cid => h.inst + c * 2 ^ 16 + q * 2 ^ 32 + cid * 2 ^ 48
  | .slice s q cid => h.inst + (0x8000 + s) * 2 ^ 16 + (q + 1) * 2 ^ 32 + cid * 2 ^ 48
  | .peer a => a
  | _ => 0

/-- Place bytes at an offset of a client's or host's buffer (R169, R417): the head that serves it writes by RDMA WRITE or DMA. `k` is the
chunk they belong to. -/
def placeBytes (h : CHead) (k off : Nat) (b : Bytes) (d : Dev) : Dev :=
  let pieces := ptrPieces (bufList h) off b.length
  let d1 := d.emit (.place h.id off b)
  match h.origin with
  | .fabric _ _ _ => forEach pieces (fun e d =>
      postMsg (headQp d h) .write (.readData h.id k) (slice b e.2.2.1 e.2.2.2) e.2.2.2 e.1.key (e.1.addr + e.2.1) d) d1
  | .slice s _ _ =>
    if (d.slice s).gen ≠ h.sgen then d
    else forEach pieces (fun e d => d.hostWrite (e.1.addr + e.2.1) (slice b e.2.2.1 e.2.2.2) (some (d.slice s).pasid)) d1
  | _ => d

/-- Place read data (R169): counted too. -/
def placeData (h : CHead) (k off : Nat) (b : Bytes) (d : Dev) : Dev := placeBytes h k off b (d.stat R.CMQ_RD_BYTES b.length)

/-- Landing buffers in use (R131), in bytes. -/
def landingBytes (d : Dev) : Nat := d.write.lands.foldl (fun n l => n + l.want) 0

/-- Change a landing buffer. -/
def modLanding (id : Nat) (f : Landing → Landing) (d : Dev) : Dev :=
  { d with write := { d.write with lands := mapWhere (fun l => l.cmd == id) f d.write.lands } }

/-- A landing buffer. -/
def Dev.landing (d : Dev) (id : Nat) : Option Landing := d.write.lands.find? fun l => l.cmd == id

/-- Free a landing buffer. -/
def dropLanding (id : Nat) (d : Dev) : Dev :=
  { d with write := { d.write with lands := d.write.lands.filter fun l => l.cmd != id } }

/-- Start landing a command's data (R131): taken from the capsule, pulled by RDMA READ, or read from the host. -/
def startLanding (h : CHead) (want : Nat) (d : Dev) : Dev :=
  let add := fun (data : Bytes) (err left : Nat) (d : Dev) =>
    ({ d with write := { d.write with lands := d.write.lands ++ ([⟨h.id, want, data, err, left⟩] : List Landing) } } : Dev)
  match dataPtr h with
  | .bad st => add [] st 0 d
  | .inCapsule b => add b 0 0 d
  | .list l =>
    let pieces := ptrPieces l 0 want
    match h.origin with
    | .slice s _ _ =>
      if !d.dmaOn then add [] stPathing 0 d
      else forEach pieces (fun e d =>
        d.hostRead (.sliceData h.id e.2.2.1) (e.1.addr + e.2.1) e.2.2.2 (some (d.slice s).pasid))
        (add (zeros want) 0 pieces.length d)
    | _ =>
      let n := headQp d h
      if (d.qp n).st ≠ .rts then add [] stTransfer 0 d
      else forEach pieces (fun e d =>
        postMsg n .readReq (.writeLand h.id e.2.2.1) [] e.2.2.2 e.1.key (e.1.addr + e.2.1) d) (add (zeros want) 0 pieces.length d)

/-- One read of a command's data has ended at its offset: with the status of the disagreement, or with its bytes (R131, R403). The first
disagreement stays. -/
def landBytes (id off st : Nat) (b : Bytes) (d : Dev) : Dev :=
  modLanding id (fun l => { l with
    data := if st = 0 then overlay l.data off b else l.data, left := l.left - 1, err := if l.err = 0 then st else l.err }) d

/-- Change a stream. -/
def modStream (u : Nat) (f : Stream → Stream) (d : Dev) : Dev :=
  match tabFind d.nvm.streams u with
  | none => d
  | some s => { d with nvm := { d.nvm with streams := tabPut d.nvm.streams u (f s) } }

/-- A write of a received frame of a stream has ended (R454): its chunks are durable, or to be offered again. `chunk` is its first. -/
def streamChunkDone (unit seq chunk st : Nat) (d : Dev) : Dev :=
  modStream unit (fun s => { s with rx := mapWhere (fun x => x.seq == seq) (fun x => { x with
    live := x.live.filter fun e => e.1 != chunk
    failed := if st = 0 then x.failed else x.failed ++ x.live.filter fun e => e.1 == chunk }) s.rx }) d

/-- A chunk that a sender asked for has been read, or is lost (R453). -/
def streamData (unit chunk : Nat) (b : Option Bytes) (d : Dev) : Dev :=
  modStream unit (fun s => { s with data := tabPut s.data chunk b }) d

/-- A child write of a batch has ended (R396, R301, R303): the parent keeps the first error and its count of what is left. -/
def childDone (parent id st : Nat) (d : Dev) : Dev :=
  d.modN parent fun c => { c with wait := c.wait.filter (· != id), status := if c.status = 0 then st else c.status }

/-- Flush commands that waited for a write wait for it no longer (R395); those that wait for nothing more complete. -/
def flushRelease (id : Nat) (d : Dev) : Dev :=
  let d1 := { d with nvm := { d.nvm with cmds := d.nvm.cmds.map fun c =>
    if c.h.sqe.opc = 0 && !c.h.admin then { c with wait := c.wait.filter (· != id) } else c } }
  forEach (d1.nvm.cmds.filter fun c => c.h.sqe.opc == 0 && !c.h.admin && !c.held && c.wait.isEmpty) (fun c d =>
    finishN c.h.id stOk 0 (d.stat R.CMQ_FLUSHES 1)) d1

/-- End a write with a status (R123): its completion goes to where it came from, and what waited for it goes on. -/
def endWrite (h : CHead) (st : Nat) (d : Dev) : Dev :=
  let lba := h.sqe.cdw10 + h.sqe.cdw11 * 2 ^ 32
  let d1 := match h.origin with
    | .internal p => childDone p h.id st d
    | .stream u s c => streamChunkDone u s c st d
    | _ => sendCompletion h st 0 lba d
  flushRelease h.id (dropLanding h.id d1)

end Sys2Proof.Machine
end

