-- ==== Sys2Proof/Machine/WriteOps.lean ====
section
/-! DEFINITION. The write path from admission to durability (R120 to R156, R193 to R197, R242 to R244, R304). -/

namespace Sys2Proof.Machine

/-- Chunks of a write that it covers only in part (R132). -/
def isPartial (x : WChunk) : Bool := x.len != chunkBytes

/-- Sum of numbers. -/
def sumL (l : List Nat) : Nat := l.foldl (· + ·) 0

/-- This head's dirty bytes (R125 to R127): staging pages open, full or programming, journal records not on two modules,
dirty map lines. -/
def dirtyOwn (d : Dev) : Nat :=
  16384 * (d.write.pages.filter fun e => 1 ≤ e.2.state && e.2.state ≤ 3).length +
    64 * (d.write.ring.filter fun e => decide (e.2.programmed < 2)).length + 4096 * dirtyLines d

/-- Peer-mirror bytes held: mirror pages and the peer's journal records (R126). -/
def dirtyPeer (d : Dev) : Nat := 16384 * d.per.mirror.length + 64 * d.per.journal.length

/-- B in bytes: the lower of the two heads' values where they differ (R128). -/
def budgetB (d : Dev) : Nat :=
  let own := d.getF R.CMQ_DIRTY_BUDGET_B_MIB
  (match d.write.peerBudget with
    | some p => if d.peerUp then Nat.min own p else own
    | none => own) * 2 ^ 20

/-- The effective limit L (R126), from the area's capacity where B exceeds it (R311). -/
def limitL (d : Dev) : Nat :=
  let b := if d.getB R.MED_PLA_CAPPED then Nat.min (budgetB d) (d.getF R.MED_PLA_CAP_MIB * 2 ^ 20) else budgetB d
  if d.getB R.CMQ_WR_MODE_SOLO then b - dirtyPeer d else b / 2

/-- Outstanding charges. -/
def charges (d : Dev) : Nat := sumL (d.write.cmds.map (·.charge))

/-- MiB, rounded up. -/
def mib (n : Nat) : Nat := (n + 2 ^ 20 - 1) / 2 ^ 20

/-- Bring the level registers of the write path up to date (R157), and the time the admission queue was not empty. -/
def syncWrite (d : Dev) : Dev :=
  let d1 := (((d.setF R.CMQ_DIRTY_LIMIT_MIB (mib (limitL d))).setF R.CMQ_DIRTY_OWN_MIB
    (mib (dirtyOwn d + charges d))).setF R.CMQ_DIRTY_PEER_MIB (mib (dirtyPeer d))).setF R.CMQ_INTERLOCK_USED
    d.write.interlock.length
  let busy := !d.write.queue.isEmpty
  let d2 := syncOrdered (d1.setB R.CMQ_WR_MODE_THROTTLED busy)
  match d.write.waitSince, busy with
  | none, true => { d2 with write := { d2.write with waitSince := some d2.now } }
  | some t, false =>
    ((({ d2 with write := { d2.write with waitSince := none } }).stat R.CMQ_WR_THROTTLE_NS (d2.now - t)).setB
      R.CMQ_WR_MODE_CAUSE_DIRTY false).setB R.CMQ_WR_MODE_CAUSE_CREDITS false
  | _, _ => d2

/-- Free staging credits (R125). -/
def Dev.credits (d : Dev) : Nat := d.getF R.CMQ_CREDITS_FREE
/-- Return credits. -/
def returnCredits (n : Nat) (d : Dev) : Dev := d.setF R.CMQ_CREDITS_FREE (d.credits + n)

/-- Key of a data key context of a write (R143, R471). -/
def dataCtx (dom epoch : Nat) : Nat := keyIndex 1 dom epoch
/-- Key of a de-duplication key context (R178). -/
def dedupCtx (dom epoch : Nat) : Nat := keyIndex 2 dom epoch

/-- A ticket of a write before its gate carries the instance's generation (R138). -/
def preGate (c : WCmd) : Option (Nat × Nat) := some (c.h.inst, c.h.gen)

/-- Issue the CHUNKER ticket of consecutive chunks (R133): new data, then one before-image for each partial chunk. -/
def issueChunker (c : WCmd) (xs : List WChunk) (d : Dev) : Dev :=
  match xs with
  | [] => d
  | x :: _ =>
    let new := xs.flatMap fun y => slice c.landed y.src y.len
    let imgs := xs.flatMap fun y => if isPartial y then y.before.getD (zeros chunkBytes) else []
    let d1 := forEach xs (fun y d => d.modChunk c.h.id y.idx fun z => { z with stage := .cutting }) d
    issueTicket iCmd 0 pChunker (preGate c) (c.h.id % 2 ^ 18) (new ++ imgs) (xs.length * chunkBytes)
      (mkArgs x.idx x.off xs.length) (.chunker c.h.id x.idx xs.length) d1

/-- Issue the DIGEST of a chunk whose bytes stand in it (R135, R178). -/
def fingerprintChunk (c : WCmd) (x : WChunk) (d : Dev) : Dev :=
  issueTicket iCmd 0 pDigest (preGate c) (c.h.id % 2 ^ 18) x.data 32 (mkArgs 0 (dedupCtx c.dom c.epoch) 0) (.digest c.h.id x.idx)
    (d.modChunk c.h.id x.idx fun y => { y with stage := .fingerprint })

/-- Whole chunks from the front of a list that follow one another, four at most (R133). -/
def takeRun (n : Nat) (l : List WChunk) : List WChunk :=
  match n, l with
  | 0, _ => []
  | _, [] => []
  | k + 1, x :: r =>
    match r with
    | [] => [x]
    | y :: _ => if y.idx = x.idx + 1 then x :: takeRun k r else [x]

/-- CHUNKER tickets of whole chunks, up to four each. -/
def cutWhole (fuel : Nat) (c : WCmd) (l : List WChunk) (d : Dev) : Dev :=
  match fuel, l with
  | 0, _ => d
  | _, [] => d
  | n + 1, x :: r =>
    let run := takeRun 4 (x :: r)
    cutWhole n c ((x :: r).drop run.length) (issueChunker c run d)

/-- Cut what can be cut once the data has landed (R133): whole chunks, and partial chunks whose before-image is there. -/
def cutChunks (id : Nat) (d : Dev) : Dev :=
  match d.wCmd id with
  | none => d
  | some c =>
    if !c.landedOk || c.zero then
      -- a partial chunk of Write Zeroes is a partial write of zero blocks (R397)
      forEach (c.chunks.filter fun x => c.zero && x.stage == .landing && x.before.isSome) (fun x d => issueChunker c [x] d) d
    else
      let whole := c.chunks.filter fun x => x.stage == .landing && !isPartial x
      let part := c.chunks.filter fun x => x.stage == .landing && isPartial x && x.before.isSome
      forEach part (fun x d => issueChunker c [x] d) (cutWhole 256 c whole d)

/-- Writes before in order of admission that touch a chunk and have not reached its control commit (R134). -/
def earlierOn (d : Dev) (c : WCmd) (idx : Nat) : Bool :=
  d.write.cmds.any fun o => o.admitted && decide (o.adm < c.adm) && o.h.nsg == c.h.nsg &&
    o.chunks.any fun x => x.idx == idx && (match x.stage with
      | .committed => false
      | .durable => false
      | .abandoned => false
      | _ => true)

/-- A chunk of a read with nothing done yet. -/
def rChunkNew (idx first n : Nat) : RChunk :=
  { idx := idx, firstBlk := first, nBlks := n, stage := .lookup, entry := 0, handle := 0, w0 := 0, w1 := 0, stagePages := [],
    blocks := [], parts := [], fetched := [], lostCrumbs := [], altTried := false, data := [], lostBlks := [], scope := 0,
    slot := false, sent := false }

/-- Number a new command. -/
def newId (d : Dev) : Nat × Dev := (d.nvm.nextCmd, { d with nvm := { d.nvm with nextCmd := d.nvm.nextCmd + 1 } })

/-- Start the before-image reads that may start now (R132, R134): internal reads of the whole chunk. -/
def startBefore (d : Dev) : Dev :=
  forEach d.write.cmds (fun c d =>
    forEach (c.chunks.filter fun x => c.admitted && isPartial x && x.stage == .landing && x.before.isNone) (fun x d =>
      if earlierOn d c x.idx ||
          d.read.cmds.any (fun r => r.purpose == .before c.h.id x.idx) then d
      else
        let r := newId d
        let rc : RCmd := ⟨{ c.h with id := r.1, origin := .internal c.h.id }, .before c.h.id x.idx, c.dom, x.idx * 4, 4, false,
          true, [rChunkNew x.idx 0 4], 0, none⟩
        let d1 : Dev := { r.2 with read := { r.2.read with cmds := r.2.read.cmds ++ [rc] } }
        d1.stat R.CMQ_WR_RMW 1) d) d

/-- Release a write's interlock entries, all or those of one chunk (R134). -/
def freeInterlock (id : Nat) (idx : Option Nat) (d : Dev) : Dev :=
  { d with write := { d.write with interlock := d.write.interlock.filter fun e =>
      !(e.1 == id && (match idx with
        | some k => e.2.2 == k
        | none => true)) } }

/-- Give back what a chunk's probe took: its reserved handle, or its hold (R136, R196). -/
def releaseChunk (c : WCmd) (x : WChunk) (d : Dev) : Dev :=
  match x.kind with
  | some (.miss h) => returnHandle h c.mirror2 (dropResv h d)
  | some (.hit _) => releaseHold c.h.id x.idx d
  | _ => d

/-- Probes that waited for a command start again or are answered (R194). -/
def wakeProbes (cmd : Nat) (d : Dev) : Dev :=
  let ws := d.pan.waits.filter fun w => w.ownerCmd == cmd
  let d1 := { d with pan := { d.pan with waits := d.pan.waits.filter fun w => w.ownerCmd != cmd } }
  forEach ws (fun w d => probeChunk w.cmd w.chunk false d) d1

/-- Drop the outstanding tickets of a command's tables: their completions find no entry and are discarded (R98). -/
def dropReads (cmd : Nat) (d : Dev) : Dev :=
  { d with read := { d.read with cmds := d.read.cmds.filter fun r => match r.purpose with
      | .before c _ => c != cmd
      | _ => true } }

/-- Give up a write before its gate (R131, R138, R139): credits, charges, interlocks and handles return; `st` completes it, none
does not. -/
def abandonWrite (id : Nat) (st : Option Nat) (d : Dev) : Dev :=
  match d.wCmd id with
  | none => d
  | some c =>
    let d1 := forEach c.chunks (releaseChunk c) d
    let d2 := returnCredits c.credits (freeInterlock id none (dropReads id d1))
    let d3 : Dev := { d2 with write := { d2.write with
      cmds := d2.write.cmds.filter fun x => x.h.id != id
      queue := d2.write.queue.filter (· != id) } }
    let d4 := match st with
      | some s => endWrite c.h s d3
      | none => discardCpl c.h d3
    syncWrite (startBefore (wakeProbes id (syncOutstanding c.h.inst d4)))

/-- Crumbs a chunk stores, counting both copies of a MIRROR2 chunk (R125). -/
def chunkCrumbs (c : WCmd) (x : WChunk) : Nat :=
  match x.kind with
  | some (.miss _) => x.crumbs * (if c.mirror2 then 2 else 1)
  | _ => 0

/-- Settle the chunks of a command that share a reservation (R193): the lowest becomes the owner, with the SQUEEZE output of the
one that missed. -/
def settle (c : WCmd) : WCmd :=
  let owners := c.chunks.filterMap fun x => match x.kind with
    | some (.miss h) => some (h, x)
    | _ => none
  { c with chunks := c.chunks.map fun x =>
      match owners.find? fun o => x.kind == some (.miss o.1) || x.kind == some (.depHit o.1) with
      | none => x
      | some (h, m) =>
        let first := c.chunks.all fun y => !(y.kind == some (.miss h) || y.kind == some (.depHit h)) || decide (x.idx ≤ y.idx)
        if first then { x with kind := some (.miss h), comp := m.comp, crumbs := m.crumbs, raw := m.raw, data := m.data }
        else { x with kind := some (.depHit h), comp := [], crumbs := 0, raw := false } }

/-- The handle an outcome maps the chunk to, or ZERO, or LOST (R144, R454). -/
def newEntry (x : WChunk) : Nat :=
  match x.kind with
  | some (.hit h) => h
  | some (.depHit h) => h
  | some (.miss h) => h
  | some .lost => entLost
  | _ => entZero

/-- Groups reserved and not committed that set a map entry. -/
def openGroups (d : Dev) (nsg idx : Nat) : List Grp :=
  d.write.groups.filter fun g => g.nsg == nsg && g.chunk == idx && g.stage == .reserved && g.cmd != 0

/-- JSNs a chunk's group reserves (R124, R144): the new content and its companion, or the count; the map entry; the count of the
old entry where that is, or may become, a handle. A hit on the handle that the entry holds adjusts no count. -/
def groupCount (d : Dev) (c : WCmd) (x : WChunk) (old : Nat) : Nat :=
  let same := (openGroups d c.h.nsg x.idx).isEmpty && isHandle old && newEntry x == old
  let mayOld := isHandle old || (openGroups d c.h.nsg x.idx).any fun g =>
    match d.wChunk g.cmd g.chunk with
    | some y => isHandle (newEntry y)
    | none => false
  let aliased := match d.line (contentKey old) with
    | some l => bitAt (recFlags (tabGet 0 l.data (2 * (slotOf old % 256) + 1))) 4
    | none => true
  if same then 1
  else 1 + b2n mayOld + b2n (isHandle old && aliased) + (match x.kind with
    | some (.miss _) => if c.mirror2 then 2 else 1
    | some (.hit _) => 1
    | some (.depHit _) => 1
    | _ => 0)

/-- The ring has room for records (R148): those in it and those reserved. -/
def ringRoomFor (d : Dev) (n : Nat) : Bool :=
  decide (d.write.ring.length + sumL ((d.write.groups.filter fun g => g.stage == .reserved).map (·.count)) + n ≤ 1048576)

/-- Crumb ranges of a miss's copies are assigned in staging (R142, R277), hot data to H0 (R276). -/
def assignChunk (c : WCmd) (x : WChunk) (d : Dev) : Option Dev :=
  let stream := match d.line (mkKey c.h.nsg 0 (x.idx / 512)) with
    | some l => match l.heat with
      | some t => if d.now - t < d.getF R.MED_POLICY_HOT_AGE_S * 1000000000 then 0 else 1
      | none => 1
    | none => 1
  let place := fun (not : Option Nat) (d : Dev) =>
    match chooseModule d not with
    | none => none
    | some m => (assignCopy stream m x.crumbs d).map fun r => (m, r)
  match place none d with
  | none => none
  | some (m, rs, d1) =>
    let a : Copy := ⟨m, (rs.head?.map (rangeCrumb d1)).getD 0, rs⟩
    if !c.mirror2 then some (d1.modChunk c.h.id x.idx fun y => { y with copies := [a] })
    else match place (some m) d1 with
      | none => none
      | some (n, qs, d2) =>
        let b : Copy := ⟨n, (qs.head?.map (rangeCrumb d2)).getD 0, qs⟩
        some (d2.modChunk c.h.id x.idx fun y => { y with copies := [a, b] })

/-- Bytes that SEAL encrypts for a chunk (R143). -/
def sealInput (x : WChunk) : Bytes := if x.raw then x.data else slice x.comp 0 (x.crumbs * 256)

/-- Issue the SEAL of a miss whose crumbs are assigned (R138, R143). -/
def issueSeal (c : WCmd) (x : WChunk) (d : Dev) : Dev :=
  let h := newEntry x
  issueTicket iCmd 0 pSeal none (c.h.id % 2 ^ 18) (sealInput x) (x.crumbs * 256) (mkArgs h (dataCtx c.dom c.epoch) 0)
    (.seal c.h.id x.idx) d

/-- Crumbs reserved at a gate are assigned, in chunk order, and sealed (R142, R143). -/
def assignAll (id : Nat) (d : Dev) : Dev :=
  match d.wCmd id with
  | none => d
  | some c =>
    forEach (c.chunks.filter fun x => x.crumbs != 0 && x.copies.isEmpty && (match x.kind with
        | some (.miss _) => true
        | _ => false)) (fun x d =>
      match assignChunk c x d with
      | none => d
      | some d1 =>
        let n := x.crumbs * (if c.mirror2 then 2 else 1)
        let d2 := { d1 with med := { d1.med with reserved := d1.med.reserved - n } }
        let d3 := match d2.wChunk id x.idx with
          | some y => issueSeal c y (d2.modGrp y.jsn fun g => { g with
              pages := y.copies.flatMap fun p => p.ranges.map (·.page) })
          | none => d2
        d3) d

/-- The split of a leaf that a chunk's MAPWALK waits for (R443). -/
def splitOpen (d : Dev) (nsg leaf : Nat) : Bool :=
  d.nvm.splits.any fun s => s.nsg == nsg && s.leaf == leaf && !s.committed

/-- A lower group names the same entry and is neither committed nor given up (R124). -/
def lowerOpen (d : Dev) (nsg idx jsn : Nat) : Bool := (openGroups d nsg idx).any fun g => jsnLt g.jsn jsn

/-- Issue the MAPWALK of a chunk where R124 and R443 allow: its old entry is the newest committed one. -/
def issueMapwalk (c : WCmd) (x : WChunk) (d : Dev) : Dev :=
  if x.stage ≠ .sealing ∨ lowerOpen d c.h.nsg x.idx x.jsn ∨ splitOpen d c.h.nsg (x.idx / 512) then d
  else match lookupEntry (.control c.h.id x.idx) true c.h.nsg x.idx d with
    | (.val v, d1) =>
      let old := if isLostEnt v.1 then entUnmapped else v.1
      let r : JRec := ⟨1, c.h.nsg, x.idx, newEntry x, old, 0⟩
      let d2 := holdLines [mkKey c.h.nsg 0 (x.idx / 512)] true d1
      issueTicket iMap 0 pMapwalk none (x.jsn % 2 ^ 18) (recBytes d2 ⟨x.jsn, 1, [r], d2.now, c.h.inst, false, .reserved, 0, 0, 0,
          true, []⟩ 0 r) 512 (mkArgs (contentKey r.a) 0 x.jsn) (.mapwalk c.h.id x.idx)
        (d2.modChunk c.h.id x.idx fun y => { y with stage := .mapwalk, old := old })
    | (_, d1) => d1

/-- Records PLACE emits for a chunk before and after its MAP_SET (R144, R185): none where the entry does not change. -/
def placeSets (c : WCmd) (x : WChunk) : List Nat × List Nat :=
  let n := newEntry x
  let minus := if isHandle x.old && x.old != n then [x.old] else []
  match x.kind with
  | some (.miss h) => (h :: (if c.mirror2 then [h + 1] else []), minus)
  | some (.hit h) => (if x.old = h then [] else [h], minus)
  | some (.depHit h) => (if x.old = h then [] else [h], minus)
  | _ => ([], minus)

/-- Another group with lower JSNs may change one of these records (a split may change any), or one in issue does: PLACE tickets of one record follow each
other in JSN order, so that each sees the count the one before it left. -/
def placeBlocked (d : Dev) (jsn : Nat) (hs : List Nat) : Bool :=
  d.write.groups.any fun g => g.jsn != jsn && g.stage == .reserved &&
    ((jsnLt g.jsn jsn && (decide (g.count > 8) || (g.cmd != 0 && g.recs.isEmpty))) ||
      g.recs.any fun r => (recHandles r).any hs.contains)

/-- The new content record of a copy (R182, R185): REFS 1 on the primary. -/
def contentNew (c : WCmd) (x : WChunk) (h : Nat) (comp : Bool) : JRec :=
  let cp := if comp then x.copies.getD 1 ⟨0, 0, []⟩ else x.copies.getD 0 ⟨0, 0, []⟩
  let w0 := mkWordA cp.crumb cp.module x.crumbs c.epoch
  let flags := b2n x.raw + 2 * b2n (c.mirror2 && !comp) + 4 * b2n comp
  let w1 := (if comp then 0 else 1) + flags * 2 ^ 24
  ⟨2, c.h.nsg, h, w0, sealRec c.dom h w0 w1, if comp then 0 else fpTag x.fp⟩

/-- A REF_ADJ (R146): delta as a two's-complement number and the count after it, which sticks at FFFFFFh (R187). -/
def refAdj (nsg h : Nat) (plus : Bool) (w1 : Nat) : JRec :=
  let n := recRefs w1
  let after := if n = 0xFFFFFF then n else if plus then n + 1 else n - 1
  ⟨3, nsg, h, if plus then 1 else 2 ^ 64 - 1, after, 0⟩

/-- Look up records in NEWEST mode; none while one waits (R144, R242). -/
def lookupAll (w : Waiter) (dom : Nat) (hs : List Nat) (d : Dev) : Option (List (Nat × (Nat × Nat))) × Dev :=
  hs.foldl (fun s h =>
    match s.1 with
    | none => s
    | some l =>
      match lookupRecord w 3 dom h s.2 with
      | (.val v, d1) => (some (l ++ [(h, v)]), d1)
      | (.unavailable, d1) => (some (l ++ [(h, (0, 0))]), d1)
      | (.wait, d1) => (none, d1)) (some [], d)

/-- Thresholds of REFS that a group brings about (R186, R187): content capped, reference stuck, once per record. -/
def noteThresholds (rs : List JRec) (vals : List (Nat × (Nat × Nat))) (d : Dev) : Dev :=
  forEach (rs.filter fun r => r.type == 3 && r.a == 1) (fun r d =>
    let w := ((vals.find? fun e => e.1 == r.subject).map (·.2)).getD (0, 0)
    let d1 := if r.b ≥ capLevel ∧ !bitAt (recFlags w.2) 3 then
        (d.err R.E_PAN_CAPPED).postAt 0x1101 (ownPage 0x11) [r.subject]
      else d
    if recRefs w.2 = 0xFFFFFF ∧ !d1.pan.stuck.contains r.subject then
      ((({ d1 with pan := { d1.pan with stuck := d1.pan.stuck ++ [r.subject] } }).err R.E_PAN_STUCK).postAt 0x1102
        (ownPage 0x11) [r.subject])
    else d1) d

/-- Take leases for peer-owned records (R242). -/
def takeLeases (cmd chunk : Nat) (hs : List Nat) (d : Dev) : Dev :=
  forEach (hs.filter fun h => !d.owns (handleHead h)) (fun h d => { d with map := { d.map with
    leases := d.map.leases ++ [⟨h, false, cmd, chunk⟩] } }) d

/-- Targets of the aliases among records (R203): the target's slot under the victim's bucket. -/
def aliasTargets (vals : List (Nat × (Nat × Nat))) : List Nat :=
  (vals.filter fun e => bitAt (recFlags e.2.2) 4).map fun e => e.1 / 2 ^ 41 * 2 ^ 41 + e.2.1 % 2 ^ 41

/-- Assemble a chunk's group: what PLACE emits before and after the MAP_SET, and the REF_ADJ −1 on the target of an alias that
dies (R203). -/
def buildGroup (c : WCmd) (x : WChunk) (vals : List (Nat × (Nat × Nat))) : List JRec :=
  let sets := placeSets c x
  let val := fun h => ((vals.find? fun e => e.1 == h).map (·.2)).getD (0, 0)
  let pre := match x.kind with
    | some (.miss h) => contentNew c x h false :: (if c.mirror2 then [contentNew c x (h + 1) true] else [])
    | _ => sets.1.map fun h => refAdj c.h.nsg h true (val h).2
  let post := sets.2.flatMap fun h =>
    let r := refAdj c.h.nsg h false (val h).2
    let t := x.old / 2 ^ 41 * 2 ^ 41 + (val h).1 % 2 ^ 41
    if bitAt (recFlags (val h).2) 4 ∧ r.b = 0 then [r, refAdj c.h.nsg t false (val t).2] else [r]
  pre ++ [⟨1, c.h.nsg, x.idx, newEntry x, x.old, 0⟩] ++ post

/-- Issue the PLACE of a chunk, or learn that none is needed (R144, R195): the owner of a dependent chunk's content must have
committed. -/
def issuePlace (c : WCmd) (x : WChunk) (d : Dev) : Option Dev :=
  let sets := placeSets c x
  let adj := (match x.kind with
    | some (.miss _) => []
    | _ => sets.1) ++ sets.2
  let all := sets.1 ++ sets.2
  if all.isEmpty then none
  else
    let ownerOpen := match x.kind with
      | some (.depHit h) => d.pan.resv.any fun r => r.handle == h
      | _ => false
    if ownerOpen || placeBlocked d x.jsn all then some d
    else match lookupAll (.control c.h.id x.idx) c.dom adj d with
      | (none, d0) => some d0
      | (some vals0, d0) =>
      match lookupAll (.control c.h.id x.idx) c.dom (aliasTargets vals0) d0 with
      | (none, d1) => some d1
      | (some valsT, d1) =>
        let vals := vals0 ++ valsT
        let rs := buildGroup c x vals
        let d2 := (takeLeases c.h.id x.idx adj (holdLines (all.map contentKey) true (noteThresholds rs vals d1))).modGrp
          x.jsn fun g => { g with recs := rs }
        let b := match d2.grp x.jsn with
          | some g => groupBytes d2 g
          | none => []
        some (issueTicket iMed 0 pPlace none (x.jsn % 2 ^ 18) b 512 (mkArgs (newEntry x) 0 x.jsn) (.place c.h.id x.idx)
          (d2.modChunk c.h.id x.idx fun y => { y with stage := .place }))

/-- Records of a group enter the ring (R145, R148), with their TIME. -/
def ringEnter (g : Grp) (d : Dev) : Dev :=
  forEach ((List.range g.recs.length).zip g.recs) (fun e d => { d with write := { d.write with
    ring := tabPut d.write.ring ((g.jsn + e.1) % 2 ^ 32) ⟨recBytes d g e.1 e.2, e.2, false, 0, false⟩ } }) d

/-- Close reserved JSNs that no record uses with a VOID (R139, R147): a group of one record. -/
def voidRange (first last inst : Nat) (solo : Bool) (d : Dev) : Dev :=
  let g : Grp := ⟨first, 1, [⟨0x0F, 0, 0, first, last, 0⟩], d.now, inst, solo, .committed, 0, 0, 0, true, []⟩
  let before := d.write.groups.filter fun x => !jsnLt first x.jsn
  let after := d.write.groups.filter fun x => jsnLt first x.jsn
  ringEnter g { d with write := { d.write with groups := before ++ [g] ++ after } }

/-- A group reaches its control commit (R121): its records carry the time, enter the ring, and JSNs it did not use are closed. -/
def commitGroup (jsn : Nat) (rs : List JRec) (d : Dev) : Dev :=
  match d.grp jsn with
  | none => d
  | some g =>
    let g1 := { g with recs := rs, time := d.now, stage := .committed }
    let d1 := ringEnter g1 (d.modGrp jsn fun _ => g1)
    if g.count > rs.length then voidRange ((jsn + rs.length) % 2 ^ 32) ((jsn + g.count - 1) % 2 ^ 32) g.inst g.solo d1 else d1

/-- Content that a control commit leaves without references joins the dead queue (R290). -/
def deadQueue (r : JRec) (d : Dev) : Dev :=
  if r.type = 3 ∧ r.b % 2 ^ 24 = 0 ∧ d.owns (handleHead r.subject) then
    if d.med.dead.length ≥ 1048576 then d.err R.E_MED_DEAD_DROPS
    else { d with med := { d.med with dead := d.med.dead ++ [r.subject] } }
  else d

/-- Write a group into the peer's journal mirror (R498), record by record, as the ring may wrap within it. -/
def mirrorJournal (g : Grp) (d : Dev) : Dev :=
  forEach ((List.range g.recs.length).zip g.recs) (fun e d =>
    mirrorWrite 2 ((g.jsn + e.1) % 1048576 * 64) (recBytes d g e.1 e.2) d) d

/-- Send what may be sent to the mirror (R149): groups in JSN order, each complete, after the crumbs it points to. -/
def pumpMirror (l : List Grp) (d : Dev) : Dev :=
  match l with
  | [] => d
  | g :: rest =>
    match g.stage with
    | .durable => pumpMirror rest d
    | .sent => pumpMirror rest d
    | .reserved => d
    | .committed =>
      if g.solo || !d.peerUp then pumpMirror rest d
      else if !g.sealed then d
      else pumpMirror rest ((mirrorJournal g d).modGrp g.jsn fun x => { x with
        stage := .sent })

/-- Send what may be sent to the mirror. -/
def mirrorGroups (d : Dev) : Dev := pumpMirror d.write.groups d

/-- Continue every chunk whose control phase may go on (R124, R144, R195). -/
def pumpControl (finishPlaceless : WCmd → WChunk → Dev → Dev) (d : Dev) : Dev :=
  forEach d.write.cmds (fun c d => if !c.gated then d else forEach c.chunks (fun x d =>
    match d.wChunk c.h.id x.idx with
    | none => d
    | some y =>
      match y.stage with
      | .sealing => issueMapwalk c y d
      | .mapwalk =>
        if y.jcount = 0 then
          match issuePlace c y d with
          | some d1 => d1
          | none => finishPlaceless c y d
        else d
      | _ => d) d) d

end Sys2Proof.Machine
end

