-- ==== Sys2Proof/Machine/SoloOps.lean ====
section
/-! DEFINITION. The SLC journal region in solo mode: batches, modules, places (R152, R269, R306, R307). -/

namespace Sys2Proof.Machine

/-- Modules that hold this head's power-loss area (R308): the two lowest in service of its parity, or the lowest others. -/
def plaModules (d : Dev) : List Nat :=
  let own := (onModules d).filter fun m => m % 2 == d.headNum
  (own ++ (onModules d).filter fun m => m % 2 != d.headNum).take 2

/-- Flash pages of one SLC erase block (R269, R270). -/
def slcBlkPages (x : Module) : Nat := x.planes * 16 * x.slcPages

/-- Crumb index of page `p` of the SLC erase block of an ordinal in a two-BLOCK region that begins at BLOCK `base` (R269): BLOCK, then
GROUP, then page. -/
def slcCrumb (d : Dev) (x : Module) (base blk p : Nat) : Nat :=
  let per := Nat.max 1 (groupsOf x / 2)
  let ebn := (base + blk / per) * 2 ^ groupBits x + 2 * (blk % per) + d.headNum
  blkBase x ebn + p * 64

/-- SLC erase blocks of a region on a module. -/
def slcBlocks (x : Module) : Nat := 2 * Nat.max 1 (groupsOf x / 2)

/-- Module with the fewest queued programs among some, the lowest first. -/
def leastQueued (d : Dev) (l : List Nat) : Option Nat :=
  l.foldl (fun b m =>
    match b with
    | none => some m
    | some x => if (d.module m).queued < (d.module x).queued then some m else some x) none

/-- The pair of modules for solo batches (R307): outside the power-loss holders where two such serve. -/
def soloPair (d : Dev) : Option (Nat × Nat) :=
  let on := (onModules d).filter fun m => (d.module m).known
  let out := on.filter fun m => !(plaModules d).contains m
  let l := if out.length ≥ 2 then out else on
  match leastQueued d l with
  | none => none
  | some a => (leastQueued d (l.filter (· != a))).map fun b => (a, b)

/-- The place a module's solo log has reached: erase-block ordinal × 2^32 + page (R307). -/
def soloPos (d : Dev) (m : Nat) : Nat := ((d.med.soloBlk.find? fun e => e.1 == m).map (·.2)).getD 0

/-- Set a module's place in its solo log. -/
def setSoloPos (m p : Nat) (d : Dev) : Dev :=
  { d with med := { d.med with soloBlk := (m, p) :: d.med.soloBlk.filter fun e => e.1 != m } }

/-- Key of the SLC erase block of an ordinal in the region that begins at a BLOCK (R269). -/
def slcKey (d : Dev) (m base blk : Nat) : Nat := d.blkOf m (slcCrumb d (d.module m) base blk 0)

/-- Erase an SLC erase block: its contents are gone for good (R302, R307). -/
def eraseSlc (k : Nat) (d : Dev) : Dev :=
  let m := blkModule k
  mediaCmd m 5 1 (blkBase (d.module m) (blkEbn k)) (0xFFFF - (d.eblock k).dieMask) [] (.slcErase k)
    { d with med := { d.med with slcUsed := tabDel d.med.slcUsed k } }

/-- An SLC erase block holds records up to a JSN. -/
def noteSlc (k last : Nat) (d : Dev) : Dev := { d with med := { d.med with slcUsed := tabPut d.med.slcUsed k last } }

/-- Close a module's SLC erase block: the log goes on in the next one, round the region, erased before it is used again (R307). -/
def closeSolo (m : Nat) (d : Dev) : Dev :=
  let nxt := (soloPos d m / 2 ^ 32 + 1) % slcBlocks (d.module m)
  let d1 := setSoloPos m (nxt * 2 ^ 32) d
  let k := slcKey d m 0 nxt
  if (tabFind d.med.slcUsed k).isSome then eraseSlc k d1 else d1

/-- Program the flash pages of a batch on a module, in SLC mode. -/
def soloProgram (m : Nat) (seq last : Nat) (body : List Bytes) (d : Dev) : Dev :=
  let x := d.module m
  let pos := soloPos d m
  let fits := pos % 2 ^ 32 + body.length ≤ slcBlkPages x
  let d1 := if fits then d else closeSolo m d
  let p := soloPos d1 m
  let d2 := forEach ((List.range body.length).zip body) (fun e d =>
    (mediaCmd m 3 1 (slcCrumb d x 0 (p / 2 ^ 32) (p % 2 ^ 32 + e.1)) 0 e.2 (.solo seq) d).modModule m fun x => { x with
      queued := x.queued + 1 }) d1
  noteSlc (slcKey d m 0 (p / 2 ^ 32)) last (setSoloPos m (p + body.length) d2)

/-- Header of the first copy of a solo batch (R306). -/
def soloHeader (d : Dev) (head seq first last recs : Nat) (descs : List Bytes) : Bytes :=
  let b := leBytes 4 0x424C4F53 ++ leBytes 1 1 ++ leBytes 1 head ++ zeros 2 ++ leBytes 4 seq ++
    leBytes 4 first ++ leBytes 4 last ++ leBytes 2 recs ++ leBytes 2 descs.length ++ leBytes 8 d.now ++
    slice descs.flatten 0 3072 ++ zeros 988
  b ++ leBytes 4 (crcNat b)

/-- The second copy of a batch's first page: COPY is 1 (R306). -/
def secondCopy (b : Bytes) : Bytes :=
  let h := slice b 0 6 ++ [1#8] ++ slice b 7 4085
  h ++ leBytes 4 (crcNat h) ++ b.drop 4096

/-- Groups of the solo rule that can go into the next batch (R152): committed and sealed, in JSN order, 192 records at most. -/
def soloGroups (l : List Grp) (room : Nat) : List Grp :=
  match l with
  | [] => []
  | g :: r =>
    match g.stage with
    | .durable => soloGroups r room
    | .sent => soloGroups r room
    | .reserved => []
    | .committed => if g.solo && g.sealed && decide (g.recs.length ≤ room) then g :: soloGroups r (room - g.recs.length) else []

/-- Remove repeats. -/
def dedup (l : List Nat) : List Nat := l.foldl (fun a x => if a.contains x then a else a ++ [x]) []

/-- Write the oldest batch to a pair of modules. -/
def writeBatch (b : SoloBatch) (mods : Nat × Nat) (d : Dev) : Dev :=
  let b1 := { b with modules := mods, left := 2 * b.body.length, failed := false }
  let d0 := soloHolders [mods.1, mods.2] ((d.setF R.MED_SOLO_PAIR_MOD_A mods.1).setF R.MED_SOLO_PAIR_MOD_B mods.2)
  let d1 : Dev := { d0 with write := { d0.write with batches := b1 :: d0.write.batches.drop 1 } }
  let second := match b.body with
    | h :: r => secondCopy h :: r
    | [] => []
  soloProgram mods.2 b.seq b.last second (soloProgram mods.1 b.seq b.last b.body d1)

/-- Bytes of a batch: header, journal records, staging-page images (R306). -/
def batchBody (d : Dev) (head seq first last : Nat) (recs : List Bytes) (pages : List (Bytes × Bytes)) : List Bytes :=
  (soloHeader d head seq first last recs.length (pages.map (·.1)) ++ slice recs.flatten 0 12288) :: pages.map (·.2)

/-- Form and write the next solo batch where one can be (R152, R306). -/
def newBatch (d : Dev) : Dev :=
  let gs := soloGroups d.write.groups 192
  if gs.isEmpty then d
  else match soloPair d with
    | none => d
    | some mods =>
      let recs := gs.flatMap fun g => (List.range g.recs.length).zip g.recs |>.map fun e => recBytes d g e.1 e.2
      let pages := (dedup (gs.flatMap (·.pages))).take 96
      let first := (gs.head?.map (·.jsn)).getD 0
      let last := (gs.getLast?.map fun g => g.jsn + g.recs.length - 1).getD 0
      let seq := (d.med.batchSeq + 1) % 2 ^ 32
      let body := batchBody d d.headNum seq first last recs (pages.map fun p => (descBytes p (d.stage p), stageBytes (d.stage p)))
      let d1 := forEach gs (fun g d => d.modGrp g.jsn fun x => { x with stage := .sent }) d
      let d2 : Dev := { d1 with med := { d1.med with batchSeq := seq } }
      writeBatch ⟨d.headNum, seq, first, last, body, mods, 0, false⟩ mods d2

/-- The oldest batch, where it waits to be written to a pair of modules (R307), or the next one that can be formed. -/
def pumpSolo (d : Dev) : Dev :=
  match d.write.batches, soloPair d with
  | [], _ => newBatch d
  | b :: _, some mods => if b.failed && b.left == 0 then writeBatch b mods d else d
  | _, none => d

end Sys2Proof.Machine
end

