-- ==== Sys2Proof/Machine/DurableOps.lean ====
section
/-! DEFINITION. What follows when a journal record is durable (R122, R198, R201, R290, R441, R448). -/

namespace Sys2Proof.Machine

/-- A slot whose drops are confirmed and whose index entry is gone returns to its free list (R198). -/
def finishDrops (d : Dev) : Dev :=
  let ok := d.pan.drops.filter fun x => x.peerOk && x.indexOk
  forEach ok (fun x d => returnHandle x.handle x.pair d)
    { d with pan := { d.pan with drops := d.pan.drops.filter fun x => !(x.peerOk && x.indexOk) } }

/-- Start freeing the slot of a reclaimed record (R198): this head's Pantry entry goes, the peer is asked, the index follows. -/
def startDrop (h : Nat) (pair : Bool) (d : Dev) : Dev :=
  let d1 := removeEntry (bucketOf h) (locOf h) d
  let d2 : Dev := { d1 with pan := { d1.pan with
    drops := d1.pan.drops ++ [⟨h, pair, !d.peerUp, false⟩]
    stuck := d1.pan.stuck.filter (· != h) } }
  if d.peerUp then sendPeer 0x20 0 [h] [] d2 else d2

/-- Change a namespace. -/
def Dev.modNs (d : Dev) (nsg : Nat) (f : Ns → Ns) : Dev :=
  match d.ns nsg with
  | some n => { d with nvm := { d.nvm with namespaces := tabPut d.nvm.namespaces nsg (f n) } }
  | none => d

/-- Chunks of a namespace whose entry is a handle, after a MAP_SET (R400). -/
def countNuse (r : JRec) (d : Dev) : Dev :=
  d.modNs r.nsg fun n => { n with nuse := n.nuse + b2n (isHandle r.a) - b2n (isHandle r.b) }

/-- The crumbs of a copy become dead space in their erase block (R290). -/
def deadCrumbs (w0 flags : Nat) (d : Dev) : Dev :=
  if bitAt flags 4 || recCrumb w0 == lostMark then d
  else d.modBlock (d.blkOf (recModule w0) (recCrumb w0)) fun b => { b with valid := b.valid - recLen w0 }

/-- The command that waits for a snapshot record completes (R441, R448). -/
def snapDurable (r : JRec) (dw0 : Nat) (d : Dev) : Dev :=
  match d.nvm.cmds.find? fun c => c.prog == 5 && c.h.nsg == r.nsg && c.chunk == r.subject with
  | some c => finishN c.h.id stOk dw0 d
  | none => d

/-- What one durable record brings about beyond the map (R201, R290, R400). -/
def durableRec (r : JRec) (d : Dev) : Dev :=
  match r.type with
  | 1 => countNuse r d
  | 2 => if bitAt (recFlags r.b) 2 || !d.owns (handleHead r.subject) then d
    else queueAppend (bucketOf r.subject) r.c (locOf r.subject) d
  | 0x10 => snapDurable r r.subject d
  | 0x12 => snapDurable r 0 { d with nvm := { d.nvm with walks := d.nvm.walks ++ [⟨r.nsg, r.a % 2 ^ 32, false, [], none, [], false⟩] } }
  | 0x14 => { d with nvm := { d.nvm with walks := d.nvm.walks.filter fun w => !(w.nsg == r.nsg && w.snap == r.a % 2 ^ 32) } }.stat
      R.SNP_DELETES 1
  | 0x20 => deadCrumbs r.b 0 d
  | 0x21 => deadCrumbs r.b 0 d
  | 0x22 => startDrop r.subject (bitAt r.b 1) (deadCrumbs r.a r.b (d.stat R.MED_RECLAIMS 1))
  | _ => d

end Sys2Proof.Machine
end

