-- ==== Sys2Proof/Machine/DataOps.lean ====
section
/-! DEFINITION. Writes from their control commit to their acknowledgement, journal pages and releases (R121 to R123, R139, R144 to R155,
R193 to R197). -/

namespace Sys2Proof.Machine

/-- Pages of the map that the control tickets of a chunk hold (R244). -/
def ctrlKeys (c : WCmd) (x : WChunk) : List Nat :=
  mkKey c.h.nsg 0 (x.idx / 512) :: ((placeSets c x).1 ++ (placeSets c x).2).map contentKey

/-- What a chunk's control commit does in the Pantry (R193, R196, R197), in one step (R199). -/
def panCommit (c : WCmd) (x : WChunk) (d : Dev) : Dev :=
  match x.kind with
  | some (.miss h) => insertEntry (bucketOf h) (fpTag x.fp) (locOf h) (dropResv h d)
  | some (.hit h) => releaseHold c.h.id x.idx (refreshEntry (bucketOf h) (locOf h) d)
  | some (.depHit h) => refreshEntry (bucketOf h) (locOf h) d
  | _ => d

/-- Handles that a deallocation releases and that keep references, for C of a sweep (R302). -/
def noteKept (c : WCmd) (rs : List JRec) (d : Dev) : Dev :=
  match c.h.origin with
  | .internal p => forEach (rs.filter fun r => r.type == 3 && r.a != 1) (fun r d => d.modN p fun x => { x with
      kept := (x.kept.filter (· != r.subject)) ++ (if r.b % 2 ^ 24 = 0 then [] else [r.subject]) }) d
  | _ => d

/-- A chunk reaches its control commit (R121, R144) with the records of its group. -/
def commitChunk (rs : List JRec) (c : WCmd) (x : WChunk) (d : Dev) : Dev :=
  let d1 := (commitGroup x.jsn rs d).modChunk c.h.id x.idx fun y => { y with stage := .committed }
  noteKept c rs (forEach rs deadQueue (freeInterlock c.h.id (some x.idx) (panCommit c x d1)))

/-- A chunk whose PLACE issues no records commits with its MAPWALK (R144). -/
def commitPlaceless (c : WCmd) (x : WChunk) (d : Dev) : Dev :=
  commitChunk [⟨1, c.h.nsg, x.idx, newEntry x, x.old, 0⟩] c x d

/-- Set everything going that a control commit, an abandonment or a page may have released. -/
def moveOn (d : Dev) : Dev :=
  let d1 := (List.range (d.write.cmds.length + 2)).foldl (fun d _ => pumpControl commitPlaceless d) d
  syncWrite (startBefore (pumpSolo (mirrorGroups d1)))

/-- A chunk past its end: durable or abandoned. -/
def chunkOver (x : WChunk) : Bool := x.stage == .durable || x.stage == .abandoned

/-- Complete a write all of whose chunks are over (R123, R139). -/
def finishWrite (id : Nat) (d : Dev) : Dev :=
  match d.wCmd id with
  | none => d
  | some c =>
    if !c.gated || !c.chunks.all chunkOver then d
    else
      let ok := c.failed == 0
      let client := match c.h.origin with
        | .internal _ => false
        | .stream _ _ _ => false
        | _ => true
      let d1 := if ok && client && c.h.sqe.opc == 1 then
          (((d.stat R.CMQ_WR_CMDS 1).stat R.CMQ_WR_ACK_NS (d.now - c.h.start)).stat (R.INS_I_WR_CMDS c.h.inst) 1).stat
            (R.INS_I_WR_BYTES c.h.inst) (c.nlb * blockBytes)
        else d
      let d2 := if ok && client && d.getB R.CMQ_WR_MODE_SOLO then d1.stat R.CMQ_WR_SOLO_ACKS 1 else d1
      let d3 : Dev := { d2 with write := { d2.write with cmds := d2.write.cmds.filter fun x => x.h.id != id } }
      syncOutstanding c.h.inst (endWrite c.h c.failed d3)

/-- Charge a write past its gate still carries (R127): staging and journal bytes of the chunks not yet durable. -/
def gatedCharge (c : WCmd) (counts : Nat → Nat) : Nat :=
  sumL ((c.chunks.filter fun x => !chunkOver x).map fun x => chunkCrumbs c x * 256 + 64 * counts x.jsn)

/-- Count a chunk made ZERO whole for a Write Zeroes of a host, or for a Dataset Management whose batch the write is (R396, R397). -/
def countZero (c : WCmd) (x : WChunk) (d : Dev) : Dev :=
  match c.h.origin with
  | .internal p => match d.nCmd p with
    | some q => d.stat R.CMQ_DSM_CHUNKS (b2n (c.zero && q.h.sqe.opc == 9 && !q.h.admin))
    | none => d
  | .stream _ _ _ => d
  | _ => d.stat R.CMQ_WZ_CHUNKS (b2n (c.zero && c.h.sqe.opc == 8 && !isPartial x))

/-- A chunk is durable (R121, R122): counted; its holds and leases end, its charge falls away. -/
def chunkDurable (id idx : Nat) (d : Dev) : Dev :=
  match d.wCmd id, d.wChunk id idx with
  | some c, some x =>
    let d1 := (d.modChunk id idx fun y => { y with stage := .durable }).stat R.CMQ_WR_CHUNKS 1
    let d2 := match x.kind with
      | some .zero => countZero c x (d1.stat R.CMQ_WR_ZERO 1)
      | some (.hit _) => d1.stat R.CMQ_WR_HITS 1
      | some (.depHit _) => d1.stat R.CMQ_WR_HITS 1
      | some (.miss _) => d1.stat R.CMQ_WR_RAW (b2n x.raw)
      | _ => d1
    let d3 := holdLines (ctrlKeys c x) false d2
    let d4 : Dev := { d3 with map := { d3.map with leases := d3.map.leases.filter fun l =>
      l.given || !(l.cmd == id && l.chunk == idx) } }
    d4.modW id fun c => { c with charge := gatedCharge c fun _ => 2 }
  | _, _ => d

/-- The last JSN a group stands for: that of its last record, or the last of the range a VOID closes. -/
def lastJsn (g : Grp) : Nat :=
  match g.recs with
  | [r] => if r.type = 0x0F then r.b else g.jsn
  | l => (g.jsn + l.length - 1) % 2 ^ 32

/-- The oldest group is durable: its mutations become visible, and what waited for it goes on (R122). -/
def groupDurable (g : Grp) (d : Dev) : Dev :=
  let d1 := d.setF R.CMQ_JSN_DURABLE (lastJsn g)
  let d2 := forEach g.recs durableRec (makeVisible false g.jsn g.time g.recs d1)
  if g.cmd = 0 then
    { d2 with map := { d2.map with leases := d2.map.leases.filter fun l => l.given || !(l.cmd == 0 && l.chunk == g.jsn) } }
  else chunkDurable g.cmd g.chunk d2

/-- Take the durable groups from the front of the list, in JSN order (R150). -/
def takeDurable (l : List Grp) (d : Dev) : Dev :=
  match l with
  | [] => d
  | g :: r =>
    if g.stage == .durable then
      takeDurable r (groupDurable g { d with write := { d.write with groups := r } })
    else d

/-- Complete the writes that are over. -/
def finishWrites (d : Dev) : Dev := forEach (d.write.cmds.map (·.h.id)) finishWrite d

/-- Groups became durable: effects in JSN order, then completions. -/
def settleDurable (d : Dev) : Dev := moveOn (finishWrites (takeDurable d.write.groups d))

/-- Everything sent that a FLUSH up to a JSN covers is durable (R150). -/
def durableUpto (jsn : Nat) (d : Dev) : Dev :=
  let gs := mapWhere (fun g => g.stage == .sent && !g.solo && !jsnLt jsn (lastJsn g)) (fun g => { g with stage := .durable })
    d.write.groups
  settleDurable { d with write := { d.write with groups := gs } }

/-- A solo batch is durable: its groups are (R152). -/
def batchDurable (first last : Nat) (d : Dev) : Dev :=
  let gs := mapWhere (fun g => g.stage == .sent && g.solo && !jsnLt g.jsn first && !jsnLt last g.jsn)
    (fun g => { g with stage := .durable }) d.write.groups
  settleDurable { d with write := { d.write with groups := gs } }

/-- Crumbs of a chunk that will not be sealed are zero crumbs of their staging pages (R142). -/
def zeroRanges (x : WChunk) (d : Dev) : Dev :=
  forEach x.copies (fun p d => writeRanges p.ranges (zeros (x.crumbs * 256)) d) d

/-- Abandon one chunk after its gate (R139): its JSNs are closed by a VOID, its command will end with Internal Error. -/
def dropChunk (id idx : Nat) (d : Dev) : Dev :=
  match d.wCmd id, d.wChunk id idx with
  | some c, some x =>
    if chunkOver x || x.stage == .committed then d
    else
      let started := x.stage == .mapwalk || x.stage == .place
      let d1 := if started then holdLines (if x.stage == .place then ctrlKeys c x else (ctrlKeys c x).take 1) false d else d
      let d2 := if (d1.grp x.jsn).any (·.sealed) then d1 else zeroRanges x d1
      let cnt := match d2.grp x.jsn with
        | some g => g.count
        | none => 1
      let solo := match d2.grp x.jsn with
        | some g => g.solo
        | none => false
      let d3 : Dev := { d2 with
        write := { d2.write with groups := d2.write.groups.filter fun g => g.jsn != x.jsn }
        map := { d2.map with leases := d2.map.leases.filter fun l => l.given || !(l.cmd == id && l.chunk == idx) } }
      let d4 := voidRange x.jsn ((x.jsn + cnt - 1) % 2 ^ 32) c.h.inst solo d3
      let d5 := freeInterlock id (some idx) (releaseChunk c x d4)
      ((d5.modChunk id idx fun y => { y with stage := .abandoned }).modW id fun c => { c with failed := stInternal }).err
        R.E_CMQ_WR_CTRL_FAIL
  | _, _ => d

/-- Chunks that depend on a reserved handle. -/
def dependents (h : Nat) (d : Dev) : List (Nat × Nat) :=
  d.write.cmds.flatMap fun c => if c.gated then (c.chunks.filter fun x => x.kind == some (.depHit h)).map fun x => (c.h.id, x.idx)
    else []

/-- Abandon a chunk after its gate, and with an owner every chunk that depends on it (R139, R195). -/
def abandonChunk (id idx : Nat) (d : Dev) : Dev :=
  let deps := match d.wChunk id idx with
    | some x => match x.kind with
      | some (.miss h) => (dependents h d).filter fun e => match d.wChunk e.1 e.2 with
        | some y => !chunkOver y && y.stage != .committed
        | none => false
      | _ => []
    | none => []
  let d1 := forEach deps (fun e d => (dropChunk e.1 e.2 d).err R.E_PAN_OWNER_LOST) (dropChunk id idx d)
  settleDurable d1

/-- The control phase of a chunk failed its compare (R139): run it once more with the same JSNs, or give the chunk up. -/
def retryControl (id idx : Nat) (d : Dev) : Dev :=
  match d.wCmd id, d.wChunk id idx with
  | some c, some x =>
    if x.tries ≥ 1 then abandonChunk id idx d
    else
      let ks := if x.stage == .place then ctrlKeys c x else (ctrlKeys c x).take 1
      let d1 : Dev := { holdLines ks false d with map := { (holdLines ks false d).map with
        leases := d.map.leases.filter fun l => l.given || !(l.cmd == id && l.chunk == idx) } }
      moveOn ((d1.modGrp x.jsn fun g => { g with recs := [] }).modChunk id idx fun y => { y with
        stage := .sealing, tries := y.tries + 1, jcount := Nat.max 1 y.jcount })
  | _, _ => d

/-- JSNs of ring records that no journal page has taken yet and no uncommitted group precedes (R148). -/
def unpaged (d : Dev) : List Nat :=
  let open' := (d.write.groups.filter fun g => g.stage == .reserved).map (·.jsn)
  (jsnOrder id ((d.write.ring.filter fun e => !e.2.paged).map (·.1))).filter fun j => open'.all fun k => jsnLt j k

/-- The first run of consecutive JSNs, 64 at most, with whether something follows it beyond a gap. -/
def firstRun (l : List Nat) (n : Nat) : List Nat × Bool :=
  match l with
  | [] => ([], false)
  | j :: r =>
    match n with
    | 0 => ([], true)
    | k + 1 =>
      match r with
      | [] => ([j], false)
      | i :: _ => if i = (j + 1) % 2 ^ 32 then (j :: (firstRun r k).1, (firstRun r k).2) else ([j], true)

/-- Take a run of records into a journal page and place it on two modules (R145, R148, R279). -/
def placeJournal (run : List Nat) (d : Dev) : Dev :=
  match run.head?, run.getLast? with
  | some a, some z =>
    let b := run.flatMap fun j => match tabFind d.write.ring j with
      | some r => r.bytes
      | none => []
    match placeM (fun _ => .journal a z) (slice b 0 4096) d with
    | none => d
    | some (_, _, d1) =>
      let ring := mapWhere (fun e => run.contains e.1) (fun e => (e.1, { e.2 with paged := true })) d1.write.ring
      { d1 with write := { d1.write with ring := ring } }
  | _, _ => d

/-- Program the journal pages that are full or that a gap ends; `now` programs one that is neither (R148). -/
def pumpJournal (fuel : Nat) (now : Bool) (d : Dev) : Dev :=
  match fuel with
  | 0 => d
  | n + 1 =>
    let r := firstRun (unpaged d) 64
    if r.1.length ≥ 64 || (!r.1.isEmpty && r.2) then pumpJournal n now (placeJournal r.1 d)
    else if now && !r.1.isEmpty then placeJournal r.1 d else d

/-- The lowest JSN of the ring whose record may not leave it yet (R148): not on two modules, or its map pages, the peer's by the
PEER_REDO_JSN of its last ANCHOR (R248), not written back. -/
def releaseBound (d : Dev) : Nat :=
  let redo := d.getF R.MAP_ANCHOR_REDO_JSN
  let peers := match d.per.anchor with
    | some b => fieldAt b 20 4
    | none => 0
  let kept := fun (e : Nat × RingRec) => decide (e.2.programmed < 2) || !jsnLt e.1 redo ||
    (d.peerUp && (recKeys e.2.rec').any (fun k => !ownsPage d k) && (d.per.anchor.isNone || !jsnLt e.1 peers))
  ((d.write.ring.filter kept).map (·.1)).foldl (fun b j => if jsnLt j b then j else b) d.nextJsn

/-- Journal records leave the ring once the peer has released its copies (R148, R151). -/
def releaseJournal (d : Dev) : Dev :=
  let b := releaseBound d
  let due := d.write.ring.filter fun e => jsnLt e.1 b && !e.2.relSent
  if due.isEmpty then d
  else if d.peerUp then
    let ring := mapWhere (fun e => jsnLt e.1 b) (fun e => (e.1, { e.2 with relSent := true })) d.write.ring
    sendPeer 0x10 0 [2 ^ 63, b] [] { d with write := { d.write with ring := ring } }
  else syncWrite { d with write := { d.write with ring := d.write.ring.filter fun e => !jsnLt e.1 b } }

/-- The peer has released journal records below a JSN. -/
def journalReleased (b : Nat) (d : Dev) : Dev :=
  syncWrite { d with write := { d.write with ring := d.write.ring.filter fun e => !(e.2.relSent && jsnLt e.1 b) } }

/-- A staging page returns to the free state with its credits (R125, R151, R162), once its read holds have ended. -/
def freePage (p : Nat) (d : Dev) : Dev :=
  let s := d.stage p
  if s.state ≠ 4 ∨ s.holds ≠ 0 then d
  else
    let n := s.fill
    let d1 : Dev := mirrorDesc p (d.modStage p fun _ => pageFresh)
    syncWrite (returnCredits n { d1 with write := { d1.write with pages := tabDel d1.write.pages p } })

/-- A staging page is programmed (R151): the peer is asked to release its copy; alone, the page is free at once. -/
def pageProgrammed (p : Nat) (d : Dev) : Dev :=
  let d1 := mirrorDesc p (d.modStage p fun s => { s with state := 4, releaseSent := d.peerUp })
  if d.peerUp then sendPeer 0x10 0 [p] [] d1 else freePage p d1

/-- A mirror FLUSH is due (R150): groups have been sent since the last one. -/
def flushIssue (d : Dev) : Dev :=
  let sent := d.write.groups.filter fun g => g.stage == .sent && !g.solo
  match sent.getLast? with
  | none => d
  | some g =>
    let j := lastJsn g
    if d.write.flushJsn = some j ∨ !d.peerUp then d
    else postMsg (peerQp 2) .flush (.mirrorFlush j) [] 0 0 j { d with write := { d.write with flushJsn := some j } }

/-- The peer is lost, or gone (R153): groups sent and not covered pass to the solo rule. -/
def enterSolo (d : Dev) : Dev :=
  let first := (d.write.groups.head?.map (·.jsn)).getD d.nextJsn
  let gs : List Grp := d.write.groups.map fun g =>
    { g with stage := if g.stage == .sent && !g.solo then .committed else g.stage, solo := true }
  let d1 : Dev := { d with write := { d.write with flushJsn := none, groups := gs } }
  moveOn ((d1.setB R.CMQ_WR_MODE_SOLO true).post 0x0C02 [first])

/-- The head returns to paired mode (R154): groups reserved before it stay under the solo rule. -/
def leaveSolo (d : Dev) : Dev :=
  syncWrite (soloHolders [] (d.setB R.CMQ_WR_MODE_SOLO false))

end Sys2Proof.Machine
end

