-- ==== Sys2Proof/Machine/RdOps.lean ====
section
/-! DEFINITION. Reads from lookup to response (R158 to R175, R182 to R184, R203, R474). -/

namespace Sys2Proof.Machine

/-- Free egress slots. -/
def returnSlots (n : Nat) (d : Dev) : Dev := d.setF R.CMQ_RD_POOL_FREE (d.getF R.CMQ_RD_POOL_FREE + n)

/-- Return a chunk's egress slot (R168). -/
def returnSlot (rd k : Nat) (d : Dev) : Dev :=
  match d.rChunk rd k with
  | some c => if c.slot then returnSlots 1 (d.modRChunk rd k fun c => { c with slot := false }) else d
  | none => d

/-- Bring the levels of the egress queue up to date (R168, R175). -/
def syncRead (d : Dev) : Dev :=
  let busy := !d.read.queue.isEmpty
  let d1 := syncOrdered (d.setB R.CMQ_RD_POOL_WAITING busy)
  match d.read.waitSince, busy with
  | none, true => { d1 with read := { d1.read with waitSince := some d1.now } }
  | some t, false => ({ d1 with read := { d1.read with waitSince := none } }).stat R.CMQ_RD_WAIT_NS (d1.now - t)
  | _, _ => d1

/-- Release the holds of a chunk (R161, R162); staging pages whose release waited go free. -/
def releaseHolds (rd k : Nat) (d : Dev) : Dev :=
  match d.rChunk rd k with
  | none => d
  | some c =>
    let d1 : Dev := { d.modRChunk rd k (fun c => { c with blocks := [], stagePages := [] }) with read :=
      { (d.modRChunk rd k (fun c => { c with blocks := [], stagePages := [] })).read with
        blockHolds := c.blocks.foldl (fun t b => tabMod 0 t b (· - 1)) d.read.blockHolds } }
    let own := c.stagePages.filter fun p => p % 2 == 0
    let mir := c.stagePages.filter fun p => p % 2 == 1
    let d2 := forEach own (fun p d =>
      let d3 := d.modStage (p / 2) fun s => { s with holds := s.holds - 1 }
      if (d3.stage (p / 2)).releaseSent then d3 else freePage (p / 2) d3) d1
    { d2 with read := { d2.read with mirrorHolds := mir.foldl (fun t p => tabMod 0 t (p / 2) (· - 1)) d2.read.mirrorHolds } }

/-- Take a read out of the table, with its holds and slots (R167, R168). -/
def dropRead (rd : Nat) (d : Dev) : Dev :=
  match d.rdCmd rd with
  | none => d
  | some c =>
    let d1 := forEach (c.chunks.map (·.idx)) (fun k d => returnSlot rd k (releaseHolds rd k d)) d
    syncRead { d1 with read := { d1.read with
      cmds := d1.read.cmds.filter fun x => x.h.id != rd
      queue := d1.read.queue.filter (· != rd) } }

/-- Complete a client's read with a status (R170, R173). -/
def completeRead (rd st : Nat) (d : Dev) : Dev :=
  match d.rdCmd rd with
  | none => d
  | some c =>
    let lba := c.lostLba.getD c.slba
    let d1 := (((d.stat R.CMQ_RD_CMDS 1).stat R.CMQ_RD_LAT_NS (d.now - c.h.start)).stat (R.INS_I_RD_CMDS c.h.inst) 1)
    let slots := (c.chunks.filter fun x => x.slot && !x.sent).map (·.idx)
    let d2 := forEach (c.chunks.map (·.idx)) (fun k d => releaseHolds rd k d) (forEach slots (returnSlot rd) d1)
    let d3 := sendCompletion c.h st 0 lba d2
    -- the slots of chunks whose packets are not yet covered stay taken until they are
    syncRead (syncOutstanding c.h.inst { d3 with read := { d3.read with
      cmds := (mapWhere (fun x => x.h.id == rd) (fun x => { x with purpose := .internal, h := { x.h with inst := 1024 } })
        d3.read.cmds).filter fun x => x.h.id != rd || x.chunks.any (·.slot)
      queue := d3.read.queue.filter (· != rd) } })

/-- A read whose ticket came back STALE ends silently (R167). -/
def abandonRead (rd : Nat) (d : Dev) : Dev :=
  match d.rdCmd rd with
  | none => d
  | some c =>
    let d1 := dropRead rd d
    match c.purpose with
    | .client => syncOutstanding c.h.inst (discardCpl c.h d1)
    | .before w _ => abandonWrite w none d1
    | _ => d1

/-- A read ends with Internal Error after a repeated ticket CRC failure (R167). -/
def failRead (rd st : Nat) (d : Dev) : Dev :=
  match d.rdCmd rd with
  | none => d
  | some c => match c.purpose with
    | .client => completeRead rd st d
    | .before w _ => abandonWrite w (some st) (dropRead rd d)
    | _ => dropRead rd d

/-- Respond once every chunk of a read is done (R170). -/
def respond (rd : Nat) (d : Dev) : Dev :=
  match d.rdCmd rd with
  | none => d
  | some c =>
    if c.purpose == .client && c.chunks.all (fun x => x.stage == .done) then completeRead rd c.status d else d

/-- Blocks of the command a chunk's blocks fall on: offset in the buffer of block `b` of the chunk (R169). -/
def blockOffset (c : RCmd) (x : RChunk) (b : Nat) : Nat := (x.idx * 4 + b - c.slba) * blockBytes

/-- Requested blocks of a chunk that are not lost, in runs (R169, R173). -/
def sendBlocks (x : RChunk) : List Nat := ((List.range x.nBlks).map (x.firstBlk + ·)).filter fun b => !x.lostBlks.contains b

/-- Loss bits of a chunk's requested blocks. -/
def lostBits (x : RChunk) : Nat := sumL (((List.range x.nBlks).map (x.firstBlk + ·)).filterMap fun b =>
  if x.lostBlks.contains b then some (2 ^ b) else none)

/-- Send the plaintext of a forwarded read's chunk to the forwarding head (R404, R497). -/
def forwardChunk (c : RCmd) (x : RChunk) (arg : Nat) (d : Dev) : Dev :=
  let k := x.idx - c.slba / 4
  let off := fwdOffset c.h.id + k * chunkBytes
  let d1 := postMsg (peerQp 3) .write .none x.data x.data.length (tabGet 0 d.per.windows 3) off d
  sendPeer 0x31 0 [arg, k, off, lostBits x] [] d1

/-- E8: the requested blocks of a chunk go out (R169), or the before-image to its write (R174). -/
def sendChunk (rd k : Nat) (d : Dev) : Dev :=
  match d.rdCmd rd, d.rChunk rd k with
  | some c, some x =>
    match c.purpose with
    | .before w i =>
      let d1 := dropRead rd d
      if x.lostBlks.isEmpty then
        d1.modChunk w i fun y => { y with before := some x.data }
      else abandonWrite w (some stUnrecovered) d1
    | .stream u => streamData u x.idx (if x.lostBlks.isEmpty then some x.data else none) (dropRead rd d)
    | _ =>
      let d1 := (d.modRChunk rd k fun y => { y with stage := .done, sent := true }).stat R.CMQ_RD_CHUNKS
        (b2n (!(sendBlocks x).isEmpty))
      let d2 := match c.h.origin with
        | .peer a => returnSlot rd k (forwardChunk c x a d1)
        | .slice _ _ _ =>
          if !d.dmaOn then returnSlot rd k (d1.modRd rd fun c => { c with status := stPathing })
          else returnSlot rd k (forEach (sendBlocks x) (fun b d =>
            placeData c.h k (blockOffset c x b) (slice x.data (b * blockBytes) blockBytes) d) d1)
        | _ => forEach (sendBlocks x) (fun b d =>
            placeData c.h k (blockOffset c x b) (slice x.data (b * blockBytes) blockBytes) d) d1
      let d3 := d2.stat (R.INS_I_RD_BYTES c.h.inst) ((sendBlocks x).length * blockBytes)
      let noPkts := (sendBlocks x).isEmpty || (d3.qp (headQp d3 c.h)).st != .rts
      respond rd (if noPkts then returnSlot rd k d3 else d3)
  | _, _ => d

/-- The zero generator serves a chunk (R160, R474): its slot goes back at once. -/
def serveZero (rd k : Nat) (d : Dev) : Dev :=
  sendChunk rd k ((returnSlot rd k (d.modRChunk rd k fun c => { c with data := zeros chunkBytes })).stat R.CMQ_RD_ZERO 1)

/-- All requested blocks of a chunk. -/
def wantedBlocks (x : RChunk) : List Nat := (List.range x.nBlks).map (x.firstBlk + ·)

/-- A chunk has lost blocks after the second copy, where there is one (R172, R173). -/
def chunkLost (rd k cause : Nat) (lost : List Nat) (d : Dev) : Dev :=
  match d.rdCmd rd, d.rChunk rd k with
  | some c, some x =>
    let d1 := (d.modRChunk rd k fun y => { y with lostBlks := lost }).err R.E_CMQ_RD_LOST
    let low := x.idx * 4 + lost.foldl Nat.min 3
    let d2 := if c.purpose == .client then
        let page := if cause = 4 ∨ recCrumb x.w0 = lostMark then 2 ^ 64 - 1
          else (recCrumb x.w0 + x.lostCrumbs.foldl Nat.min (x.lostCrumbs.headD 0)) / 64
        let m := if cause = 4 then 0xFF else recModule x.w0
        (addLoss c.h.nsg x.idx (sumL (lost.map fun b => 2 ^ b)) cause m (b2n (bitAt (recFlags x.w1) 1)) page x.handle
          d1).modRd rd fun c => { c with
            status := stUnrecovered, lostLba := some (match c.lostLba with
              | some l => Nat.min l low
              | none => low) }
      else d1
    sendChunk rd k (if lost.length ≥ x.nBlks then returnSlot rd k d2 else d2)
  | _, _ => d

/-- Crumb ranges of a copy by flash page: first crumb within the copy, count, flash page (R163). -/
def copyPages (crumb n : Nat) : List (Nat × Nat × Nat) :=
  let first := Nat.min n (64 - crumb % 64)
  (0, first, crumb / 64) :: (if n > first then [(first, n - first, crumb / 64 + 1)] else [])

/-- The own staging page bound to a flash page of a module (R161). -/
def ownPageOf (d : Dev) (m page : Nat) : Option Nat :=
  (d.write.pages.find? fun e => e.2.state != 0 && e.2.module == m && e.2.flash / 64 == page).map (·.1)

/-- The mirror page bound to a flash page of a module through its mirrored descriptor (R161, R162). -/
def mirrorPageOf (d : Dev) (m page : Nat) : Option Nat :=
  (d.per.mirror.find? fun e => fieldAt e.2.desc 4 1 != 0 && fieldAt e.2.desc 6 1 == m &&
    fieldAt e.2.desc 8 8 / 64 == page).map (·.1)

/-- Crumbs of a staging page. -/
def tabCrumbs (t : Tab Bytes) (first n : Nat) : Bytes := (List.range n).flatMap fun i => tabGet (zeros 256) t (first + i)

/-- Where R161 answers a flash page from: own staging page × 2, mirror page × 2 + 1, or flash. -/
def locatePage (d : Dev) (m page : Nat) : Option Nat :=
  let x := d.module m
  if groupOf x (ebnOf x (page * 64)) % 2 = d.headNum then (ownPageOf d m page).map (2 * ·)
  else (mirrorPageOf d m page).map (2 * · + 1)

/-- Current holds of a staging or mirror page. -/
def pageHolds (d : Dev) (p : Nat) : Nat :=
  if p % 2 = 0 then (d.stage (p / 2)).holds else tabGet 0 d.read.mirrorHolds (p / 2)

/-- Plane of a read's tickets: Read, or Keep for a stream's chunks (R453). -/
def readPlane (c : RCmd) : Nat :=
  match c.purpose with
  | .stream _ => 2
  | _ => 1

/-- Issue the UNSEAL of a chunk once every fetch has ended (R165). -/
def startUnseal (rd k : Nat) (d : Dev) : Dev :=
  match d.rdCmd rd, d.rChunk rd k with
  | some c, some x =>
    if x.stage != .fetching || x.fetched.length < x.parts.length then d
    else
      let inp := (List.range x.parts.length).flatMap fun i => tabGet [] x.fetched i
      let d1 := releaseHolds rd k (d.modRChunk rd k fun y => { y with stage := .unseal })
      let d2 := if x.scope = 3 then d1.err R.E_CMQ_RD_UNAVAIL else d1
      issueTicket iCmd (readPlane c) pUnseal (some (c.h.inst, c.h.gen)) (rd % 2 ^ 18) inp inp.length
        (mkArgs x.handle (keyIndex 1 c.dom (recEpoch x.w0)) 0) (.unseal rd k) d2
  | _, _ => d

/-- Locate a copy and take every hold of it at once (R161), or wait. -/
def locateChunk (rd k : Nat) (d : Dev) : Dev :=
  match d.rdCmd rd, d.rChunk rd k with
  | some c, some x =>
    if x.stage != .locate then d
    else
      let m := recModule x.w0
      let n := recLen x.w0
      let crumb := recCrumb x.w0
      if crumb = lostMark then
        startUnseal rd k (d.modRChunk rd k fun y => { y with
          stage := .fetching, parts := [(0, n, 0)], fetched := [(0, zeros (n * 256))], lostCrumbs := List.range n, scope := 1 })
      else
        let ps := (copyPages crumb n).map fun p => (p, locatePage d m p.2.2)
        let stag := ps.filterMap (·.2)
        let blk := d.blkOf m crumb
        let flash := ps.any fun p => p.2.isNone
        if stag.any (fun p => decide (pageHolds d p ≥ 0xFFFF)) || (flash && decide (tabGet 0 d.read.blockHolds blk ≥ 0xFFFF)) then d
        else
          let d1 := forEach (stag.filter fun p => p % 2 == 0) (fun p d => d.modStage (p / 2) fun s => { s with holds := s.holds + 1 }) d
          let d2 : Dev := { d1 with read := { d1.read with
            mirrorHolds := (stag.filter fun p => p % 2 == 1).foldl (fun t p => tabMod 0 t (p / 2) (· + 1)) d1.read.mirrorHolds
            blockHolds := if flash then tabMod 0 d1.read.blockHolds blk (· + 1) else d1.read.blockHolds } }
          let parts := ps.map fun p => (p.1.1, p.1.2.1, match p.2 with
            | some q => q + 1
            | none => 0)
          let d3 := d2.modRChunk rd k fun y => { y with
            stage := .fetching, parts := parts, fetched := [], lostCrumbs := [], scope := 0, stagePages := stag,
            blocks := if flash then [blk] else [] }
          let d4 := if c.purpose == .internal then d3 else if stag.isEmpty then d3 else d3.stat R.CMQ_RD_STAGED 1
          let d5 := forEach ((List.range ps.length).zip ps) (fun e d =>
            let p := e.2.1
            match e.2.2 with
            | some q =>
              let t := if q % 2 = 0 then (d.stage (q / 2)).crumbs else match tabFind d.per.mirror (q / 2) with
                | some mp => mp.crumbs
                | none => []
              d.modRChunk rd k (recordPart e.1 0 (tabCrumbs t ((crumb + p.1) % 64) p.2.1))
            | none => readCrumbs m (crumb + p.1) p.2.1 (.readChunk rd k e.1) d) d4
          startUnseal rd k d5
  | _, _ => d

/-- A content record was found: the chunk goes on to be located; a record of a retired epoch reads as zeros (R160, R474). -/
def recordFound (rd k h : Nat) (w : Nat × Nat) (d : Dev) : Dev :=
  match d.rdCmd rd with
  | none => d
  | some c =>
    if !recOk c.dom h w.1 w.2 then chunkLost rd k 4 (List.range 4) d
    else if (pickEpoch d c.dom (recEpoch w.1)).isNone then serveZero rd k (d.stat R.SEC_RETIRED_READS 1)
    else (d.modRChunk rd k fun x => { x with
      stage := .locate, handle := h, w0 := w.1, w1 := w.2 }).stat R.CMQ_RD_RAW (b2n (bitAt (recFlags w.2) 0))

/-- Read a content record for a read; an alias is followed once (R203). -/
def lookupContent (rd k mode h : Nat) (follow : Bool) (d : Dev) : Dev :=
  match d.rdCmd rd with
  | none => d
  | some c =>
    match lookupRecord (.read rd k) mode c.dom h d with
    | (.wait, d1) => d1.modRChunk rd k fun x => { x with stage := .pageIn }
    | (.unavailable, d1) => chunkLost rd k 4 (List.range 4) d1
    | (.val w, d1) =>
      let d2 := forgetRemote h d1
      if follow && recOk c.dom h w.1 w.2 && bitAt (recFlags w.2) 4 then
        let t := h / 2 ^ 41 * 2 ^ 41 + w.1 % 2 ^ 41
        match lookupRecord (.read rd k) mode c.dom t d2 with
        | (.wait, d3) => d3.modRChunk rd k fun x => { x with stage := .pageIn }
        | (.unavailable, d3) => chunkLost rd k 4 (List.range 4) d3
        | (.val v, d3) => recordFound rd k t v (forgetRemote t d3)
      else recordFound rd k h w d2

/-- E3: the lookup of a chunk (R159, R160, R174). -/
def lookupChunk (rd k : Nat) (d : Dev) : Dev :=
  match d.rdCmd rd, d.rChunk rd k with
  | some c, some x =>
    let streamed := match c.purpose with
      | .stream _ => true
      | _ => false
    if !c.admitted || (x.stage != .lookup && x.stage != .pageIn) then d
    else if streamed then lookupContent rd k 0 x.entry true d
    else
      let newest := match c.purpose with
        | .before _ _ => true
        | _ => false
      match lookupEntry (.read rd k) newest c.h.nsg x.idx d with
      | (.wait, d1) => d1.modRChunk rd k fun y => { y with stage := .pageIn }
      | (.unavailable, d1) => chunkLost rd k 4 (List.range 4) d1
      | (.val v, d1) =>
        let d2 := d1.modRChunk rd k fun y => { y with entry := v.1 }
        if v.1 = entUnmapped ∨ v.1 = entZero then serveZero rd k d2
        else if isLostEnt v.1 then chunkLost rd k 4 (List.range 4) d2
        else lookupContent rd k (b2n newest) v.1 true d2
  | _, _ => d

/-- Blocks that lost crumbs affect (R171). -/
def lostOf (x : RChunk) : List Nat :=
  if x.lostCrumbs.isEmpty then []
  else if bitAt (recFlags x.w1) 0 && x.scope != 3 then
    (List.range 4).filter fun b => x.lostCrumbs.any fun c => c / 16 == b
  else List.range 4

/-- A copy that a read found unreadable is reported to the Media steward (R172, R173, R299). A module that only does not answer is
no lost copy until it is declared failed. -/
def noteLost (h dom w0 cause : Nat) (d : Dev) : Dev :=
  if (cause != 1 && cause != 2) || recCrumb w0 == lostMark || !d.owns (handleHead h) || d.med.lost.contains (h, dom) then d
  else { d with med := { d.med with lost := d.med.lost ++ [(h, dom)] } }

/-- A copy has been brought to plain text, with what it lost: the chunk goes out, or its second copy is tried (R172, R173, R299). -/
def copyDone (rd k : Nat) (data : Bytes) (lost : List Nat) (cause : Nat) (d : Dev) : Dev :=
  match d.rdCmd rd, d.rChunk rd k with
  | some c, some x =>
    let mine := (wantedBlocks x).filter lost.contains
    let h := x.handle
    let pair := bitAt (recFlags x.w1) 1
    let d := if lost.isEmpty then d else noteLost (if x.altTried then h + 1 else h) c.dom x.w0 cause d
    if mine.isEmpty then
      let d1 := if x.altTried then d.stat R.CMQ_RD_ALT_COPY 1 else d
      sendChunk rd k (d1.modRChunk rd k fun y => { y with data := data })
    else if pair && !x.altTried then
      match lookupRecord (.read rd k) (match c.purpose with
          | .before _ _ => 1
          | _ => 0) c.dom (h + 1) d with
      | (.val w, d1) => locateChunk rd k ((forgetRemote (h + 1) d1).modRChunk rd k fun y => { y with
          stage := .locate, altTried := true, w0 := w.1 })
      | (.wait, d1) => d1.modRChunk rd k fun y => { y with stage := .pageIn }
      | (_, d1) => chunkLost rd k cause mine (d1.modRChunk rd k fun y => { y with data := data })
    else chunkLost rd k cause mine (d.modRChunk rd k fun y => { y with data := data })
  | _, _ => d

/-- The UNSEAL of a chunk has ended (R165, R166). -/
def unsealDone (rd k st : Nat) (out : Bytes) (d : Dev) : Dev :=
  match d.rdCmd rd, d.rChunk rd k with
  | some c, some x =>
    if x.stage != .unseal then d
    else if st = tkStale then abandonRead rd d
    else if st = tkCrcFail then failRead rd stInternal d
    else if st ≠ tkOk then serveZero rd k d
    else
      let lost := lostOf x
      if bitAt (recFlags x.w1) 0 then copyDone rd k out lost (Nat.max 1 x.scope) d
      else if !lost.isEmpty then copyDone rd k (zeros chunkBytes) lost (Nat.max 1 x.scope) d
      else issueTicket iCmd (readPlane c) pUnsqueeze (some (c.h.inst, c.h.gen)) (rd % 2 ^ 18) out chunkBytes (mkArgs 0 (recLen x.w0) 0)
        (.unsqueeze rd k) (d.modRChunk rd k fun y => { y with stage := .unsqueeze })
  | _, _ => d

/-- The UNSQUEEZE of a chunk has ended; a malformed stream is a decode failure (R166). -/
def unsqueezeDone (rd k st : Nat) (out : Bytes) (d : Dev) : Dev :=
  match d.rChunk rd k with
  | some x =>
    if x.stage != .unsqueeze then d
    else if st = tkStale then abandonRead rd d
    else if st = tkCrcFail then failRead rd stInternal d
    else if st = tkOk then copyDone rd k out [] 0 d
    else copyDone rd k (zeros chunkBytes) (List.range 4) 2 (d.err R.E_CMQ_RD_DECODE)
  | none => d

/-- The packets of a chunk's data are covered (R168, R355): its slot goes back, and the record of a completed read with its last one. -/
def slotCovered (rd k : Nat) (d : Dev) : Dev :=
  let d1 := returnSlot rd k d
  { d1 with read := { d1.read with cmds := d1.read.cmds.filter fun x =>
    !(x.h.id == rd && x.purpose == .internal && !x.chunks.any (·.slot)) } }

end Sys2Proof.Machine
end

