-- ==== Sys2Proof/Machine/CmdOps.lean ====
section
/-! DEFINITION. Accepting commands: instance and namespace, checks, forwarding, rate limits, the two admission queues
(R123 to R130, R168, R382 to R405, R413 to R417, R428). -/

namespace Sys2Proof.Machine

/-- An instance exists. -/
def Dev.hasInst (d : Dev) (i : Nat) : Bool := d.getF (R.INS_I_STATE_STATE i) != 0
/-- This head serves an instance (R409, R426). -/
def Dev.serves (d : Dev) (i : Nat) : Bool := d.getF (R.INS_I_STATE_SERVER i) == d.headNum
/-- The instance's path is in Change (R405, R428, R507). -/
def Dev.inChange (d : Dev) (i : Nat) : Bool :=
  d.getF (R.INS_I_STATE_STATE i) == 3 || (!d.serves i && decide (d.getF R.PER_STATE_STATE = 4 ∨ d.getF R.PER_STATE_STATE = 5))
/-- ANA state of an instance on this head's controllers (R405). -/
def anaState (d : Dev) (i : Nat) : Nat :=
  if d.inChange i then 0xF else if d.serves i then 1 else if d.peerUp then 2 else 3

/-- A namespace of an instance by NSID, not one being deleted (R412). -/
def nsOf (d : Dev) (i nsid : Nat) : Option Ns := (instNamespaces d i).find? fun n => n.nsid == nsid && !n.deleting

/-- Instance and slice generation of the queue a command came through, where that queue exists: an I/O queue, or with `admin` the
admin queue of a controller. -/
def originOf (d : Dev) (admin : Bool) (o : Origin) : Option (Nat × Nat) :=
  match o with
  | .fabric c q _ => match d.ctrl c with
    | some x => if (if admin then q == 0 else q != 0 && x.qids.any fun e => e.1 == q) then some (x.inst, 0) else none
    | none => none
  | .slice s q _ => if !admin && (d.slice s).bound && decide (q < (d.slice s).nq) then some ((d.slice s).inst, (d.slice s).gen) else none
  | .peer a => if admin == (bitsAt a 32 16 == 0) then some (a % 1024, 0) else none
  | _ => none

/-- CID a submission came with. -/
def withCid (o : Origin) (cid : Nat) : Origin :=
  match o with
  | .fabric c q _ => .fabric c q cid
  | .slice s q _ => .slice s q cid
  | x => x

/-- Blocks of a Read, Write or Write Zeroes. -/
def nlbOf (e : Sqe) : Nat := e.cdw12 % 65536 + 1
/-- First block. -/
def slbaOf (e : Sqe) : Nat := e.cdw10 % 2 ^ 32 + e.cdw11 % 2 ^ 32 * 2 ^ 32
/-- Protection information is asked for (R389). -/
def prinfo (e : Sqe) : Nat := bitsAt e.cdw12 26 4
/-- Ranges of Dataset Management or Secure Deallocate. -/
def rangeCount (e : Sqe) : Nat := e.cdw10 % 256 + 1

/-- Data bytes a command must declare (R403). -/
def wantBytes (e : Sqe) : Nat :=
  match e.opc with
  | 1 => nlbOf e * blockBytes
  | 2 => nlbOf e * blockBytes
  | 9 => 16 * rangeCount e
  | 0x85 => 16 * rangeCount e
  | _ => 0

/-- A snapshot command (R399); these come on the admin queue (R386). -/
def isSnapOpc (opc : Nat) : Bool := opc == 0xC4 || opc == 0xC8

/-- Field checks of an I/O command or a snapshot command (R388 to R391, R397 to R399, R402): 0, or Invalid Field. -/
def fieldCheck (e : Sqe) : Nat :=
  if e.fuse ≠ 0 ∨ e.cdw2 ≠ 0 ∨ e.cdw3 % 2 ^ 31 ≠ 0 ∨ (isSnapOpc e.opc ∧ e.cdw3 ≠ 0) then stField
  else if [1, 2, 8].contains e.opc && (prinfo e != 0 || decide (nlbOf e > 256)) then stField
  else if e.opc = 0x85 ∧ (e.cdw10 / 256 ≠ 0 ∨ e.cdw11 ≠ 0 ∨ e.cdw12 ≠ 0 ∨ e.cdw13 ≠ 0 ∨ e.cdw14 ≠ 0 ∨ e.cdw15 ≠ 0) then stField
  else if isSnapOpc e.opc ∧ (e.cdw11 ≠ 0 ∨ e.cdw12 ≠ 0 ∨ e.cdw13 ≠ 0 ∨ e.cdw14 ≠ 0 ∨ e.cdw15 ≠ 0) then stField
  else 0

/-- A forwarded read: the forwarding head has checked its data pointer and places its data (R404). -/
def placedElsewhere (h : CHead) : Bool :=
  match h.origin with
  | .peer _ => h.sqe.opc == 2
  | _ => false

/-- Length and range checks against the data pointer and the namespace (R384, R402, R403). -/
def lengthCheck (h : CHead) (n : Option Ns) : Nat :=
  match dataPtr h with
  | .bad st => st
  | p =>
    if ptrLen p ≠ wantBytes h.sqe ∧ !placedElsewhere h then stSglLen
    else if [1, 2, 8].contains h.sqe.opc then
      match n with
      | some x => if slbaOf h.sqe + nlbOf h.sqe > 4 * x.chunks then stLba else 0
      | none => 0
    else 0

/-- The namespace check: Flush also takes FFFFFFFFh (R395, R402). -/
def nsCheck (d : Dev) (i : Nat) (e : Sqe) : Option Ns × Nat :=
  if e.opc = 0 ∧ e.nsid = 0xFFFFFFFF then (none, 0)
  else match nsOf d i e.nsid with
    | some n => (some n, 0)
    | none => (none, stNamespace)

/-- All checks of an I/O command at its accept, in this order: fields, ANA, namespace, data pointer and lengths, range. -/
def acceptStatus (d : Dev) (h : CHead) : Nat :=
  let f := fieldCheck h.sqe
  if f ≠ 0 then f
  else if anaState d h.inst = 3 then stInaccessible
  else
    let n := nsCheck d h.inst h.sqe
    if n.2 ≠ 0 then n.2 else lengthCheck h n.1

/-- Put a command into the table of commands that are neither reads nor writes. -/
def addN (c : NCmd) (d : Dev) : Dev :=
  syncOutstanding c.h.inst { d with nvm := { d.nvm with cmds := d.nvm.cmds ++ ([c] : List NCmd) } }

/-- A command of that table with nothing done. -/
def nCmdNew (h : CHead) : NCmd := ⟨h, [], 0, 0, 0, [], false, false, 0, 0, []⟩

/-- Chunks that a run of blocks touches (R38, R132). -/
def chunksOf (slba nlb : Nat) : List WChunk :=
  if nlb = 0 then [] else
  (List.range ((slba + nlb - 1) / 4 - slba / 4 + 1)).map fun i =>
    let k := slba / 4 + i
    let lo := Nat.max slba (4 * k)
    let hi := Nat.min (slba + nlb) (4 * k + 4)
    { idx := k, off := (lo - 4 * k) * blockBytes, len := (hi - lo) * blockBytes, src := (lo - slba) * blockBytes,
      stage := .landing, before := none, data := [], fp := [], kind := none, comp := [], crumbs := 0, raw := false,
      copies := [], jsn := 0, jcount := 0, old := 0, tries := 0 }

/-- A write command from its head (S1): `zero` for Write Zeroes and deallocations. -/
def wCmdNew (d : Dev) (h : CHead) (n : Ns) (slba nlb : Nat) (zero : Bool) : WCmd :=
  let dom := d.getF (R.INS_I_DOMAIN_DOMAIN n.inst)
  { h := h, dom := dom, epoch := (d.domain dom).epoch, slba := slba, nlb := nlb, zero := zero, mirror2 := n.mirror2,
    queued := false, admitted := false, adm := 0, credits := 0, charge := 0, landed := [], landedOk := false, gated := false,
    failed := 0, chunks := chunksOf slba nlb }

/-- Put a write into its table; with `now` into the admission queue too (R130). -/
def addWrite (c : WCmd) (now : Bool) (d : Dev) : Dev :=
  let d1 : Dev := { d with write := { d.write with
    cmds := d.write.cmds ++ ([{ c with queued := now }] : List WCmd)
    queue := d.write.queue ++ (if now then [c.h.id] else []) } }
  syncWrite (syncOutstanding c.h.inst d1)

/-- A read command from its head (E1). -/
def rCmdNew (d : Dev) (h : CHead) (n : Ns) : RCmd :=
  let s := slbaOf h.sqe
  let cs := (chunksOf s (nlbOf h.sqe)).map fun x => rChunkNew x.idx (x.off / blockBytes) (x.len / blockBytes)
  ⟨h, .client, d.getF (R.INS_I_DOMAIN_DOMAIN n.inst), s, nlbOf h.sqe, false, false, cs, 0, none⟩

/-- Put a read into its table. -/
def addRead (c : RCmd) (d : Dev) : Dev :=
  syncRead (syncOutstanding c.h.inst { d with read := { d.read with cmds := d.read.cmds ++ ([c] : List RCmd) } })

/-- Writes accepted before a Flush for its namespaces (R395). -/
def coveredWrites (d : Dev) (h : CHead) : List Nat :=
  let mine := fun (x : CHead) => x.inst == h.inst && decide (x.id < h.id) && (h.sqe.nsid == 0xFFFFFFFF || x.nsg == h.nsg)
  ((d.write.cmds.map (·.h)).filter mine).map (·.id) ++
    ((d.nvm.cmds.filter fun c => !c.h.admin && (c.h.sqe.opc == 9 || c.h.sqe.opc == 0x85) && mine c.h).map (·.h.id))

/-- Free egress slots. -/
def Dev.slotsFree (d : Dev) : Nat := d.getF R.CMQ_RD_POOL_FREE

/-- A command leaves the rate queue, or needed no wait: it joins the admission queue of its kind, or starts (R130, R168, R415). -/
def joinQueue (id : Nat) (d : Dev) : Dev :=
  if d.write.cmds.any fun c => c.h.id == id then
    syncWrite { d with write := { d.write with
      cmds := mapWhere (fun c => c.h.id == id) (fun c => { c with queued := true }) d.write.cmds
      queue := d.write.queue ++ [id] } }
  else if d.read.cmds.any fun c => c.h.id == id then
    syncRead { d with read := { d.read with
      cmds := mapWhere (fun c => c.h.id == id) (fun c => { c with queued := true }) d.read.cmds
      queue := d.read.queue ++ [id] } }
  else d.modN id fun c => { c with held := true, prog := 1 }

/-- Depth of the command bucket in millionths of a command, of the byte bucket in thousandths of a byte (R415). -/
def bucketDepth (kcmds mbps : Nat) : Nat × Nat := (kcmds * 10 * 1000000, Nat.max (mbps * 10000000) (2 ^ 20 * 1000))

/-- Bring an instance's buckets up to date: RATE_KCMDS millionths of a command and RATE_MBPS thousandths of a byte in each ns. -/
def refill (i : Nat) (d : Dev) : Dev :=
  let k := d.getF (R.INS_I_QOS_RATE_KCMDS i)
  let m := d.getF (R.INS_I_QOS_RATE_MBPS i)
  let t := d.now - (d.inst i).rateTime
  let dep := bucketDepth k m
  d.modInst i fun x => { x with
    bucketCmds := Nat.min dep.1 (x.bucketCmds + t * k)
    bucketBytes := Nat.min dep.2 (x.bucketBytes + t * m)
    rateTime := d.now }

/-- The byte charge of a command (R415). -/
def byteCharge (e : Sqe) : Nat := if e.opc = 1 ∨ e.opc = 2 then nlbOf e * blockBytes else 0

/-- The buckets hold a command's charge; a rate of zero has no limit. -/
def holdsCharge (d : Dev) (i : Nat) (e : Sqe) : Bool :=
  (d.getF (R.INS_I_QOS_RATE_KCMDS i) == 0 || decide ((d.inst i).bucketCmds ≥ 1000000)) &&
    (d.getF (R.INS_I_QOS_RATE_MBPS i) == 0 || decide ((d.inst i).bucketBytes ≥ byteCharge e * 1000))

/-- Take a command's charge. -/
def takeCharge (i : Nat) (e : Sqe) (d : Dev) : Dev :=
  d.modInst i fun x => { x with bucketCmds := x.bucketCmds - 1000000, bucketBytes := x.bucketBytes - byteCharge e * 1000 }

/-- Complete a Flush that waits for nothing. -/
def flushNow (id : Nat) (d : Dev) : Dev :=
  match d.nCmd id with
  | some c => if c.wait.isEmpty then finishN id stOk 0 (d.stat R.CMQ_FLUSHES 1) else d
  | none => d

/-- The head of a command by its number. -/
def headOf (d : Dev) (id : Nat) : Option CHead := (allHeads d).find? fun h => h.id == id

/-- Queue a command at its instance's rate limits: straight through where the buckets hold its charge and nothing waits (R415). -/
def rateLimit (h : CHead) (d : Dev) : Dev :=
  let d1 := refill h.inst d
  if (d1.inst h.inst).rateQueue.isEmpty && holdsCharge d1 h.inst h.sqe then joinQueue h.id (takeCharge h.inst h.sqe d1)
  else d1.modInst h.inst fun x => { x with
    rateQueue := x.rateQueue ++ [h.id], rateSince := some (x.rateSince.getD d.now) }

/-- The oldest command of a rate queue leaves it where the buckets hold its charge (R415). -/
def rateRelease (i : Nat) (d : Dev) : Dev :=
  match (d.inst i).rateQueue with
  | [] => d
  | id :: rest =>
    let d1 := refill i d
    match headOf d1 id with
    | none => d1.modInst i fun x => { x with rateQueue := rest }
    | some h =>
      if !holdsCharge d1 i h.sqe then d1
      else
        let since := (d1.inst i).rateSince.getD d1.now
        let d2 := (takeCharge i h.sqe d1).modInst i fun x => { x with
          rateQueue := rest, rateSince := if rest.isEmpty then none else x.rateSince }
        joinQueue id (if rest.isEmpty then d2.stat (R.INS_I_QOS_WAIT_NS i) (d2.now - since) else d2)

/-- Dataset Management and Secure Deallocate wait for their ranges to land (R396, R398). -/
def needsData (opc : Nat) : Bool := opc == 9 || opc == 0x85

/-- Commands that are neither reads nor writes start once their order lets them (R392): a Flush takes what it covers, the others land
their ranges; a snapshot command is taken up by the Snapshots steward (R441). -/
def startHeld (c : NCmd) (d : Dev) : Dev :=
  if !orderOk d c.h then d
  else
    let d1 := d.modN c.h.id fun x => { x with held := false }
    if needsData c.h.sqe.opc then startLanding c.h (wantBytes c.h.sqe) d1
    else if c.h.sqe.opc = 0 then flushNow c.h.id d1 else d1

/-- Start every command that its order held and lets go now (R392). -/
def pumpHeld (d : Dev) : Dev :=
  syncOrdered (forEach (d.nvm.cmds.filter fun c => c.held && c.prog == 1 && !c.h.admin) startHeld d)

/-- What a serving head does with an accepted I/O command: into its table, then through the rate limits. -/
def serveCmd (h : CHead) (n : Option Ns) (d : Dev) : Dev :=
  let d1 := match n, h.sqe.opc with
    | some x, 1 => addWrite (wCmdNew d h x (slbaOf h.sqe) (nlbOf h.sqe) false) false d
    | some x, 8 => addWrite (wCmdNew d h x (slbaOf h.sqe) (nlbOf h.sqe) true) false d
    | some x, 2 => addRead (rCmdNew d h x) d
    | _, 0 => addN { nCmdNew h with wait := coveredWrites d h, held := true } d
    | _, _ => addN { nCmdNew h with held := true } d
  pumpHeld (rateLimit h d1)

/-- An earlier command of the same queue is still on its way to the peer (R392, R404). -/
def earlierForward (d : Dev) (c : NCmd) : Bool :=
  d.nvm.cmds.any fun x => decide (x.h.id < c.h.id) && x.aux == 1 && x.prog == 2 && sameQueue x.h.origin c.h.origin

/-- Submission entry as its 64 bytes. -/
def sqeBytes (e : Sqe) : Bytes :=
  leBytes 1 e.opc ++ leBytes 1 (e.fuse % 4 + e.psdt % 4 * 64) ++ leBytes 2 e.cid ++ leBytes 4 e.nsid ++ leBytes 4 e.cdw2 ++
    leBytes 4 e.cdw3 ++ leBytes 8 e.mptr ++ leBytes 16 e.dptr ++ leBytes 4 e.cdw10 ++ leBytes 4 e.cdw11 ++ leBytes 4 e.cdw12 ++
    leBytes 4 e.cdw13 ++ leBytes 4 e.cdw14 ++ leBytes 4 e.cdw15

/-- Submission entry from its 64 bytes. -/
def sqeOf (b : Bytes) : Sqe :=
  { opc := fieldAt b 0 1, fuse := fieldAt b 1 1 % 4, psdt := fieldAt b 1 1 / 64, cid := fieldAt b 2 2, nsid := fieldAt b 4 4,
    cdw2 := fieldAt b 8 4, cdw3 := fieldAt b 12 4, mptr := fieldAt b 16 8, dptr := fieldAt b 24 16, cdw10 := fieldAt b 40 4,
    cdw11 := fieldAt b 44 4, cdw12 := fieldAt b 48 4, cdw13 := fieldAt b 52 4, cdw14 := fieldAt b 56 4, cdw15 := fieldAt b 60 4 }

/-- Send a forwarded command whose data has landed, and those behind it (R404, R497): the data by SP_WRITE, then FWD_CMD. -/
def sendForward (c : NCmd) (d : Dev) : Dev :=
  if !(c.landed && c.aux == 1 && c.prog == 2) || earlierForward d c then d
  else
    let off := fwdOffset c.h.id
    let d1 := if c.data.isEmpty then d
      else postMsg (peerQp 3) .write .none c.data c.data.length (tabGet 0 d.per.windows 3) off d
    (sendPeer 0x30 0 [fwdArg c.h, off, c.data.length] (sqeBytes c.h.sqe) (d1.modN c.h.id fun x => { x with prog := 3 })).stat
      R.CMQ_FWD_TX 1

/-- Send every forwarded command that may go. -/
def pumpForward (d : Dev) : Dev :=
  forEach (d.nvm.cmds.map (·.h.id)) (fun id d => match d.nCmd id with
    | some c => sendForward c d
    | none => d) d

/-- Data the forwarding head lands before it forwards (R404). -/
def landsData (opc : Nat) : Bool := opc == 1 || needsData opc

/-- Forward a command of an instance the peer serves (R404): `aux` 1 marks it, `prog` 2 landing, 3 sent. Data that has landed already goes
as it is (R429). -/
def forwardCmd (h : CHead) (data : Option Bytes) (d : Dev) : Dev :=
  let lands := landsData h.sqe.opc && data.isNone
  let d1 := addN { nCmdNew h with aux := 1, prog := 2, landed := !lands, data := data.getD [] } d
  if lands then startLanding h (wantBytes h.sqe) d1 else pumpForward d1

/-- Make the head of a new command. -/
def mkHead (d : Dev) (admin : Bool) (o : Origin) (e : Sqe) (cap : Bytes) (i sgen : Nat) : CHead :=
  let nsg := match nsOf d i e.nsid with
    | some n => n.nsg
    | none => 0
  ⟨d.nvm.nextCmd, o, e, cap, admin, nsg, i, d.instGen i, sgen, d.now⟩

/-- An accepted command of a serving head that is a snapshot command needs no rate limit (R415): the Snapshots steward takes it up. -/
def serveAny (h : CHead) (n : Option Ns) (d : Dev) : Dev :=
  if isSnapOpc h.sqe.opc then addN { nCmdNew h with prog := 1 } d else serveCmd h n d

/-- An I/O command, or with `admin` a snapshot command, arrives (R123, R385, R386, R404, R429): held while its path changes, checked,
forwarded or served. -/
def acceptCmd (admin : Bool) (o : Origin) (e : Sqe) (cap : Bytes) (d : Dev) : Dev :=
  match originOf d admin o with
  | none => d
  | some (i, sgen) =>
    if d.inChange i then { d with nvm := { d.nvm with frozen := d.nvm.frozen ++ ([⟨i, o, e, cap, none⟩] : List Frozen) } }
    else
      let h := mkHead d admin (withCid o e.cid) e cap i sgen
      let d1 := (newId d).2
      let st := acceptStatus d1 h
      if st ≠ 0 then sendCompletion h st 0 (slbaOf e) d1
      else if d1.serves i then serveAny h (nsCheck d1 i e).1 d1
      else forwardCmd h none d1

/-- An I/O command arrives. -/
def acceptIo (o : Origin) (e : Sqe) (cap : Bytes) (d : Dev) : Dev := acceptCmd false o e cap d

/-- An I/O row's command: its opcode is the row's (R385). -/
def ioCommand (opc : Nat) (o : Origin) (e : Sqe) (cap : Bytes) (d : Dev) : Dev :=
  match o with
  | .fabric _ _ _ => acceptIo o { e with opc := opc } cap d
  | .slice _ _ _ => acceptIo o { e with opc := opc } cap d
  | _ => d

/-- A chunk's credits and charge at admission (R125, R127). -/
def chunkCredits (c : WCmd) : Nat := if c.mirror2 then 128 else 64
/-- Its charge in bytes. -/
def chunkCharge (c : WCmd) : Nat := if c.mirror2 then 41216 else 24832

/-- Bytes a write pulls into landing buffers. -/
def pullBytes (c : WCmd) : Nat := if c.zero then 0 else c.nlb * blockBytes

/-- What keeps a queued write from admission (R125 to R134): 0 nothing, 1 credits, 2 the dirty budget, 3 the interlock or the
landing buffers. -/
def admitBar (d : Dev) (c : WCmd) : Nat :=
  let n := c.chunks.length
  let parts := (c.chunks.filter isPartial).length
  if d.credits < n * chunkCredits c then 1
  else if dirtyOwn d + charges d + n * chunkCharge c > limitL d then 2
  else if d.write.interlock.length + parts > 65536 ∨ landingBytes d + pullBytes c > 2 ^ 30 then 3
  else 0

/-- What whole chunks of a write without data become: ZERO, or LOST for a stream's LOST descriptor, which cdw13 marks (R454). -/
def zeroKind (c : WCmd) : ChunkKind :=
  match c.h.origin with
  | .stream _ _ _ => if c.h.sqe.cdw13 = 4 then .lost else .zero
  | _ => .zero

/-- A write whose data has landed before its admission enters at fingerprinting (R454). -/
def fingerprintLanded (id : Nat) (d : Dev) : Dev :=
  match d.wCmd id with
  | none => d
  | some c => forEach c.chunks (fun x d => fingerprintChunk c { x with data := c.landed }
      (d.modChunk id x.idx fun y => { y with data := c.landed })) d

/-- S2: a write takes its credits, charge and interlock entries, and its data begins to land (R125 to R134). A zero write has no data:
its whole chunks are ready at once (R397, R301). -/
def admitWrite (c : WCmd) (d : Dev) : Dev :=
  let n := c.chunks.length
  let parts := c.chunks.filter isPartial
  let d1 := d.setF R.CMQ_CREDITS_FREE (d.credits - n * chunkCredits c)
  let d2 : Dev := { d1 with write := { d1.write with
    queue := d1.write.queue.filter (· != c.h.id)
    interlock := d1.write.interlock ++ parts.map fun x => (c.h.id, c.h.nsg, x.idx) } }
  let d3 := d2.modW c.h.id fun w => { w with
    queued := false, admitted := true, adm := 1 + d.write.cmds.foldl (fun a x => Nat.max a x.adm) 0, credits := n * chunkCredits c, charge := n * chunkCharge c, landedOk := c.zero || c.landedOk,
    chunks := w.chunks.map fun x => if c.zero && !isPartial x then { x with kind := some (zeroKind c), stage := .ready } else x }
  syncWrite (startBefore (if c.zero then d3 else if c.landedOk then fingerprintLanded c.h.id d3
    else startLanding c.h (pullBytes c) d3))

/-- The first write of the admission queue that its order lets go is admitted, or shows why it waits (R130, R392). -/
def tryAdmitWrite (d : Dev) : Dev :=
  match d.write.queue.findSome? fun id => (d.wCmd id).bind fun c => if orderOk d c.h then some c else none with
  | none => syncOrdered d
  | some c =>
    let bar := admitBar d c
    if bar = 0 then admitWrite c d
    else (d.setB R.CMQ_WR_MODE_CAUSE_CREDITS (bar == 1)).setB R.CMQ_WR_MODE_CAUSE_DIRTY (bar == 2)

/-- The first read of the egress admission queue that its order lets go takes a slot for every chunk, or waits (R168, R392). -/
def tryAdmitRead (d : Dev) : Dev :=
  match d.read.queue.findSome? fun id => (d.rdCmd id).bind fun c => if orderOk d c.h then some c else none with
  | none => syncOrdered d
  | some c =>
    let n := c.chunks.length
    if d.slotsFree < n then d
    else
      let d1 := d.setF R.CMQ_RD_POOL_FREE (d.slotsFree - n)
      let d2 := d1.modRd c.h.id fun r => { r with
        queued := false, admitted := true, chunks := r.chunks.map fun x => { x with slot := true } }
      syncRead { d2 with read := { d2.read with queue := d2.read.queue.filter (· != c.h.id) } }

/-- Accept a command again that was held during a change of its path: one whose data had landed goes on with it (R428, R429). -/
def acceptAgain (f : Frozen) (d : Dev) : Dev :=
  if d.inChange f.inst then { d with nvm := { d.nvm with frozen := d.nvm.frozen ++ ([f] : List Frozen) } }
  else match f.data, originOf d false f.origin with
  | some b, some (i, sgen) =>
    let h := mkHead d false (withCid f.origin f.sqe.cid) f.sqe f.cap i sgen
    let d1 := (newId d).2
    if !d1.serves i then forwardCmd h (some b) d1
    else match nsOf d1 i f.sqe.nsid with
      | none => sendCompletion h stNamespace 0 (slbaOf f.sqe) d1
      | some n =>
        if f.sqe.opc = 1 then
          let w := wCmdNew d1 h n (slbaOf f.sqe) (nlbOf f.sqe) false
          addWrite { w with landed := b, landedOk := true } true d1
        else addN { nCmdNew h with prog := 2, landed := true, data := b } d1
  | _, _ => acceptCmd (originQid f.origin == 0) f.origin f.sqe f.cap d

/-- Take the commands of an instance that were held during a change of its path, in their order, and accept them again (R405, R428). -/
def thawInst (i : Nat) (d : Dev) : Dev :=
  let mine := d.nvm.frozen.filter fun f => f.inst == i
  let d1 : Dev := { d with nvm := { d.nvm with frozen := d.nvm.frozen.filter fun f => f.inst != i } }
  forEach mine acceptAgain d1

end Sys2Proof.Machine
end

