-- ==== Sys2Proof/Machine/SplitOps.lean ====
section
/-! DEFINITION. The reference split of a leaf that a snapshot shares (R443, R447). -/

namespace Sys2Proof.Machine

/-- The epoch of a leaf as a gate sees it: its line's, or that of a split already reserved for it (R443). -/
def leafEpoch (d : Dev) (nsg leaf : Nat) : Nat :=
  let v := match d.line (mkKey nsg 0 leaf) with
    | some l => l.epoch
    | none => 0
  (d.nvm.splits.filter fun s => s.nsg == nsg && s.leaf == leaf).foldl (fun b s => Nat.max b s.epoch) v

/-- The snapshot a leaf must be split for before its next change (R443, R447). -/
def splitFor (d : Dev) (n : Ns) (leaf : Nat) : Option Nat :=
  let v := leafEpoch d n.nsg leaf
  if v ≥ n.epoch then none else ownerSnap d n (mkKey n.nsg 0 leaf) v

/-- Change a split. -/
def modSplit (nsg leaf : Nat) (f : Split → Split) (d : Dev) : Dev :=
  { d with nvm := { d.nvm with splits := mapWhere (fun s => s.nsg == nsg && s.leaf == leaf && !s.committed) f d.nvm.splits } }

/-- The split of a leaf that is in flight. -/
def openSplit (d : Dev) (nsg leaf : Nat) : Option Split :=
  d.nvm.splits.find? fun s => s.nsg == nsg && s.leaf == leaf && !s.committed

/-- Reserve the 513 JSNs of a split (R443). -/
def reserveSplit (n : Ns) (leaf snap : Nat) (d : Dev) : Dev :=
  let r := reserveGroup 513 n.inst 0 leaf d
  let d1 := r.2.modGrp r.1 fun g => { g with nsg := n.nsg }
  { d1 with nvm := { d1.nvm with splits := d1.nvm.splits ++
      ([⟨n.nsg, leaf, n.epoch, snap, r.1, false, [], [], false, 0, false⟩] : List Split) } }

/-- Groups of eight from the front of a list. -/
def eights {α : Type} (fuel : Nat) (l : List α) : List (List α) :=
  match fuel with
  | 0 => []
  | n + 1 => if l.isEmpty then [] else l.take 8 :: eights n (l.drop 8)

/-- The newest entries of a leaf, in order (R243, R443). -/
def leafEntries (d : Dev) (nsg leaf : Nat) : List Nat :=
  let base := match d.line (mkKey nsg 0 leaf) with
    | some l => l.data
    | none => []
  (List.range 512).map fun i => (newestRecs d).foldl (fun e r =>
    if r.type = 1 ∧ r.nsg = nsg ∧ r.subject = leaf * 512 + i then r.a else e) (tabGet 0 base i)

/-- REF_ADJ records for handles in turn, each count following on the one before (R146, R187). -/
def adjRecs (nsg : Nat) (plus : Bool) (vals : List (Nat × (Nat × Nat))) (made : List JRec) (hs : List Nat) : List JRec :=
  (hs.foldl (fun (s : List JRec × List JRec) h =>
    let w1 := match (made ++ s.1).reverse.find? fun r => r.type == 3 && r.subject == h with
      | some r => r.b
      | none => (((vals.find? fun e => e.1 == h).map (·.2)).getD (0, 0)).2
    (s.1 ++ [refAdj nsg h plus w1], s.2)) ([], made)).1

/-- Issue the next ticket of a split (R443): the handles of eight entries, or at its end SNAP_SPLIT. -/
def splitTicket (s : Split) (d : Dev) : Dev :=
  let mark := fun (d : Dev) => modSplit s.nsg s.leaf (fun x => { x with asked := true }) d
  match s.todo with
  | [] => issueTicket iMap 0 pMapwalk none (s.jsn % 2 ^ 18) [] 512 (mkArgs s.leaf 0 (s.jsn + 512)) (.split s.nsg s.leaf) (mark d)
  | hs :: _ =>
    let dom := match d.ns s.nsg with
      | some n => d.getF (R.INS_I_DOMAIN_DOMAIN n.inst)
      | none => 0
    if placeBlocked d s.jsn hs then d
    else match lookupAll (.snap s.nsg) dom hs d with
      | (none, d1) => d1
      | (some vals, d1) =>
        let rs := adjRecs s.nsg true vals s.recs hs
        let d2 := takeLeases 0 s.jsn hs (d1.modGrp s.jsn fun g => { g with recs := rs })
        issueTicket iMap 0 pMapwalk none (s.jsn % 2 ^ 18) [] 512 (mkArgs s.leaf 0 (s.jsn + s.recs.length)) (.split s.nsg s.leaf)
          (mark d2)

/-- A split goes on where it can: its handles are read once every lower group on the leaf has ended. -/
def pumpSplit (s : Split) (d : Dev) : Dev :=
  if s.committed || s.asked then d
  else
    let lower := d.write.groups.any fun g => g.nsg == s.nsg && g.chunk / 512 == s.leaf && g.cmd != 0 && g.stage == .reserved &&
      jsnLt g.jsn s.jsn
    if lower then d
    else match ensurePage mapFuel (.snap s.nsg) (mkKey s.nsg 0 s.leaf) d with
      | (.ready, d1) =>
        if s.ready then splitTicket s d1
        else
          let todo := ((eights 64 (leafEntries d1 s.nsg s.leaf)).map fun l => l.filter isHandle).filter fun l => !l.isEmpty
          let s1 := { s with ready := true, todo := todo }
          splitTicket s1 (modSplit s.nsg s.leaf (fun _ => s1) d1)
      | (_, d1) => d1

/-- Every split goes on where it can. -/
def pumpSplits (d : Dev) : Dev :=
  forEach (d.nvm.splits.filter fun s => !s.committed) (fun s d => match openSplit d s.nsg s.leaf with
    | some x => pumpSplit x d
    | none => d) d

/-- Put groups in the place of one. -/
def replaceGrp (j : Nat) (gs : List Grp) (d : Dev) : Dev :=
  { d with write := { d.write with groups := d.write.groups.flatMap fun g => if g.jsn = j then gs else [g] } }

/-- Close a split (R443): its REF_ADJ records in groups of eight from J, a VOID over what is left, SNAP_SPLIT at J + 512. -/
def closeSplit (s : Split) (d : Dev) : Dev :=
  match d.grp s.jsn with
  | none => d
  | some g =>
    let mk := fun (j : Nat) (rs : List JRec) => ({ g with
      jsn := j, count := rs.length, recs := rs, time := d.now, stage := .committed, cmd := 0, nsg := 0 } : Grp)
    let h := s.recs.length
    let parts := eights 64 s.recs
    let adj := ((List.range parts.length).zip parts).map fun e => mk (s.jsn + 8 * e.1) e.2
    let void := if h < 512 then [mk (s.jsn + h) [⟨0x0F, 0, 0, s.jsn + h, s.jsn + 511, 0⟩]] else []
    let last := mk (s.jsn + 512) [⟨0x11, s.nsg, mkKey s.nsg 0 s.leaf, s.snap, s.jsn, h⟩]
    let gs := adj ++ void ++ [last]
    let d1 := forEach gs ringEnter (replaceGrp s.jsn gs d)
    let d2 : Dev := { d1 with map := { d1.map with leases := d1.map.leases.filter fun l =>
      l.given || !(l.cmd == 0 && l.chunk == s.jsn) } }
    (modSplit s.nsg s.leaf (fun x => { x with committed := true, asked := false }) d2).stat R.SNP_SPLITS 1

/-- A split has failed twice (R443): a VOID over all 513 JSNs, and every chunk that waits for it is abandoned. -/
def failSplit (s : Split) (d : Dev) : Dev :=
  let g := d.grp s.jsn
  let d1 : Dev := { d with
    write := { d.write with groups := d.write.groups.filter fun g => g.jsn != s.jsn }
    nvm := { d.nvm with splits := d.nvm.splits.filter fun x => !(x.nsg == s.nsg && x.leaf == s.leaf && !x.committed) }
    map := { d.map with leases := d.map.leases.filter fun l => l.given || !(l.cmd == 0 && l.chunk == s.jsn) } }
  let d2 := (voidRange s.jsn ((s.jsn + 512) % 2 ^ 32) ((g.map (·.inst)).getD 0) ((g.map (·.solo)).getD false) d1).err R.E_SNP_SPLIT_FAIL
  let waiting := d2.write.cmds.flatMap fun c => if c.gated && c.h.nsg == s.nsg then
      (c.chunks.filter fun x => x.stage == .sealing && x.idx / 512 == s.leaf && jsnLt s.jsn x.jsn).map fun x => (c.h.id, x.idx)
    else []
  forEach waiting (fun e => abandonChunk e.1 e.2) d2

/-- A ticket of a split has ended (R443). -/
def splitDone (nsg leaf st : Nat) (d : Dev) : Dev :=
  match openSplit d nsg leaf with
  | none => d
  | some s =>
    if st = tkOk then
      match s.todo with
      | [] => moveOn (closeSplit s d)
      | _ :: rest =>
        let made := match d.grp s.jsn with
          | some g => g.recs
          | none => []
        pumpSplits ((modSplit nsg leaf (fun x => { x with asked := false, todo := rest, recs := x.recs ++ made }) d).modGrp s.jsn
          fun g => { g with recs := [] })
    else if st = tkCompareFail ∧ s.tries = 0 then
      pumpSplits ((modSplit nsg leaf (fun x => { x with asked := false, tries := 1 }) d).modGrp s.jsn fun g => { g with recs := [] })
    else failSplit s d

end Sys2Proof.Machine
end

