-- ==== Sys2Proof/Machine/WritePath.lean ====
section
/-! DEFINITION. The commands of the write path (R119 to R157) and of the read path up to the fetch (R158 to R175). -/

namespace Sys2Proof.Machine

/-- The head runs commands: it serves, and no power loss or fence has stopped it (R156, R547). -/
def Dev.serving (d : Dev) : Bool := d.getF R.HTH_STATE_STATE == stServing

/-- WRITE (R123, R385). -/
def nvmWrite (o : Origin) (e : Sqe) (cap : Bytes) (d : Dev) : Dev := ioCommand 1 o e cap d

/-- READ (R158, R385). -/
def nvmRead (o : Origin) (e : Sqe) (cap : Bytes) (d : Dev) : Dev := ioCommand 2 o e cap d

/-- WRITE_ADMIT (R127 to R130). -/
def writeAdmit (d : Dev) : Dev := if d.serving && !stewardHeld d iCmd then tryAdmitWrite d else d

/-- READ_ADMIT (R168). -/
def readAdmit (d : Dev) : Dev := if d.serving && !stewardHeld d iCmd then tryAdmitRead d else d

/-- The status a landed command fails with (R131, R403), 0 where its length agrees. -/
def landStatus (l : Landing) : Nat :=
  if l.err ≠ 0 then l.err else if l.data.length ≠ l.want then stSglLen else 0

/-- Ranges of Dataset Management and Secure Deallocate: first block and blocks (R396, R398). -/
def parseRanges (b : Bytes) : List (Nat × Nat) :=
  (List.range (b.length / 16)).map fun i => (fieldAt b (16 * i + 8) 8, fieldAt b (16 * i + 4) 4)

/-- Checks of the ranges once they have landed: within the namespace, and for Secure Deallocate whole chunks (R398, R402). -/
def rangeStatus (d : Dev) (h : CHead) (rs : List (Nat × Nat)) : Nat :=
  let chunks := match d.ns h.nsg with
    | some n => n.chunks
    | none => 0
  if h.sqe.opc = 0x85 ∧ rs.any (fun r => r.1 % 4 != 0 || r.2 % 4 != 0) then stField
  else if (h.sqe.opc = 0x85 ∨ bitAt h.sqe.cdw11 2) ∧ rs.any (fun r => decide (r.1 + r.2 > 4 * chunks)) then stLba
  else 0

/-- Blocks of ranges that lie in chunks not wholly covered (R396). -/
def partialBlocks (rs : List (Nat × Nat)) : Nat :=
  sumL (rs.map fun r => r.2 - 4 * ((r.1 + r.2) / 4 - (r.1 + 3) / 4))

/-- The ranges of a deallocation have landed: refused, without effect, or begun (R396, R398). -/
def rangesLanded (c : NCmd) (b : Bytes) (d : Dev) : Dev :=
  let rs := parseRanges b
  let st := rangeStatus d c.h rs
  if st ≠ 0 then finishN c.h.id st 0 d
  else if c.h.sqe.opc = 9 ∧ !bitAt c.h.sqe.cdw11 2 then finishN c.h.id stOk 0 d
  else (d.modN c.h.id fun x => { x with landed := true, data := b, prog := 2 }).stat R.CMQ_DSM_PARTIAL
    (if c.h.sqe.opc = 9 then partialBlocks rs else 0)

/-- DATA_LANDED (R131, R403, R404): a command whose data is there, or will not come. -/
def dataLanded (cmd : Nat) (d : Dev) : Dev :=
  match d.landing cmd with
  | none => d
  | some l =>
    if l.left ≠ 0 then d
    else
      let st := landStatus l
      let short := fun (d : Dev) => if st = stSglLen ∨ st = stTransfer then d.err R.E_CMQ_WR_LEN_ERR else d
      match d.wCmd cmd with
      | some _ =>
        if st ≠ 0 then short (abandonWrite cmd (some st) d)
        else cutChunks cmd (dropLanding cmd (d.modW cmd fun w => { w with landed := l.data, landedOk := true }))
      | none =>
        match d.nCmd cmd with
        | none => dropLanding cmd d
        | some c =>
          let d1 := dropLanding cmd d
          if st ≠ 0 then finishN cmd st 0 (short d1)
          else if c.aux = 1 then pumpForward (d1.modN cmd fun x => { x with landed := true, data := l.data })
          else rangesLanded c l.data d1

/-- BEFORE_IMAGE_DONE (R132, R133): the before-image of a partial chunk is there and its CHUNKER ticket goes out. -/
def beforeImageDone (cmd chunk : Nat) (d : Dev) : Dev :=
  match d.wChunk cmd chunk with
  | some x => if x.before.isSome && x.stage == .landing then cutChunks cmd d else d
  | none => d

/-- Every chunk of a write is ready for the gate (R138): fingerprinted, answered, and a miss with its crumbs. -/
def chunksReady (c : WCmd) : Bool := c.chunks.all fun x => x.stage == .ready

/-- An earlier partial write holds the interlock of one of its chunks (R134). -/
def interlocked (d : Dev) (c : WCmd) : Bool :=
  d.write.interlock.any fun e => (d.wCmd e.1).any (fun o => decide (o.adm < c.adm)) && e.2.1 == c.h.nsg && c.chunks.any fun x => x.idx == e.2.2

/-- Crumbs a write must reserve at its gate (R138). -/
def needCrumbs (c : WCmd) : Nat := sumL (c.chunks.map (chunkCrumbs c))

/-- Page in the leaves of a write; none while one is not there (R443). -/
def gateLeaves (c : WCmd) (ls : List Nat) (d : Dev) : Option Unit × Dev :=
  ls.foldl (fun s k =>
    match s.1 with
    | none => s
    | some _ => match ensurePage mapFuel (.gate c.h.id) (mkKey c.h.nsg 0 k) s.2 with
      | (.ready, d1) => (some (), d1)
      | (.unavailable, d1) => (some (), d1)
      | (.wait, d1) => (none, d1)) (some (), d)

/-- The newest committed entry of a chunk whose leaf is there, for the count of JSNs (R124). -/
def gateOld (d : Dev) (nsg idx : Nat) : Nat :=
  let base := match d.line (mkKey nsg 0 (idx / 512)) with
    | some l => tabGet 0 l.data (idx % 512)
    | none => entUnmapped
  (newestRecs d).foldl (fun e r => if r.type = 1 ∧ r.nsg = nsg ∧ r.subject = idx then r.a else e) base

/-- Reserve the JSNs of a chunk's group and make it wait for its control phase (R124, R138). -/
def gateChunk (c : WCmd) (x : WChunk) (d : Dev) : Dev :=
  let r := reserveGroup (groupCount d c x (gateOld d c.h.nsg x.idx)) c.h.inst c.h.id x.idx d
  let miss := match x.kind with
    | some (.miss _) => true
    | _ => false
  (r.2.modGrp r.1 fun g => { g with nsg := c.h.nsg, sealed := !miss }).modChunk c.h.id x.idx fun y => { y with
    stage := .sealing, jsn := r.1, jcount := 1 }

/-- A write passes its gate (R124, R125, R127, R138, R193, R194, R443). -/
def passGate (c : WCmd) (splits : List (Nat × Nat)) (d : Dev) : Dev :=
  let id := c.h.id
  let need := needCrumbs c
  let d1 := d.modW id fun _ => { c with gated := true, credits := 0, charge := gatedCharge c fun _ => 4 }
  let d2 := returnCredits (c.credits - need) { d1 with med := { d1.med with reserved := d1.med.reserved + need } }
  let d3 := match d2.ns c.h.nsg with
    | some n => forEach splits (fun e => reserveSplit n e.1 e.2) d2
    | none => d2
  let d4 := forEach c.chunks (gateChunk c) d3
  moveOn (pumpSplits (assignAll id (wakeProbes id d4)))

/-- COMMAND_GATE (R138, R181, R304, R305, R443): the write passes, fails with Capacity Exceeded, or still waits. -/
def commandGate (cmd : Nat) (d : Dev) : Dev :=
  match d.wCmd cmd with
  | none => d
  | some c0 =>
    if !d.serving || !c0.admitted || c0.gated || !c0.landedOk || !chunksReady c0 || interlocked d c0 then d
    else
      let c := settle c0
      let need := needCrumbs c
      let leaves := dedup (c.chunks.map fun x => x.idx / 512)
      if c.chunks.any fun x => x.kind == some .missNone then
        (abandonWrite cmd (some stCapacity) d).err R.E_CMQ_WR_CAP_ERR
      else match gateLeaves c leaves d with
      | (none, d1) => d1
      | (some _, d1) =>
        if need ≠ 0 ∧ (need > poolOf d1 ∨ (c.mirror2 ∧ (poolModules d1).length < 2)) then
          (abandonWrite cmd (some stCapacity) d1).err R.E_CMQ_WR_CAP_ERR
        else
          let splits := match d1.ns c.h.nsg with
            | some n => leaves.filterMap fun k => (splitFor d1 n k).map fun e => (k, e)
            | none => []
          let recs := sumL (c.chunks.map fun x => groupCount d1 c x (gateOld d1 c.h.nsg x.idx)) + 513 * splits.length
          if ringRoomFor d1 recs then passGate c splits d1 else d1

/-- MIRROR_FLUSH_ISSUE (R150). -/
def mirrorFlushIssue (d : Dev) : Dev := flushIssue d

/-- JOURNAL_PAGE_TIMER (R148). -/
def journalPageTimer (d : Dev) : Dev := pumpJournal 64 true d

/-- SOLO_BATCH_DURABLE (R152, R307): both programs of the batch have completed. -/
def soloBatchDurable (d : Dev) : Dev :=
  match d.write.batches with
  | [] => d
  | b :: rest =>
    if b.left ≠ 0 ∨ b.failed then d
    else
      let d1 : Dev := { d.stat R.MED_SOLO_BATCHES 1 with write := { d.write with batches := rest } }
      let d2 := if b.head = d.headNum then batchDurable b.first b.last d1 else d1
      pumpSolo d2

/-- STAGING_PROGRAMMED (R125, R151): a page reached the Programmed point and its mirror copy is to be released. -/
def stagingProgrammed (page : Nat) (d : Dev) : Dev :=
  let s := d.stage page
  if s.state = 4 ∧ !s.releaseSent then pageProgrammed page d else d

/-- The heads' values of B agree, or not (R128): the flag, and an event where they do not. -/
def compareBudgets (d : Dev) : Dev :=
  match d.write.peerBudget with
  | none => d
  | some p =>
    let own := d.getF R.CMQ_DIRTY_BUDGET_B_MIB
    let d1 := d.setB R.CMQ_WR_MODE_BUDGET_MISMATCH (own != p)
    if own ≠ p then d1.post 0x0C01 [own, p] else d1

/-- DIRTY_BUDGET_WRITE (R126, R128): B in MiB, or ignored with an event below 64. -/
def dirtyBudgetWrite (v : Nat) (d : Dev) : Dev :=
  let b := v % 2 ^ 24
  if b < 64 then d.post 0x0C01 [d.getF R.CMQ_DIRTY_BUDGET_B_MIB, b]
  else
    let d1 := hostSetAll R.CMQ_DIRTY_BUDGET (d.setF R.CMQ_DIRTY_BUDGET_B_MIB b)
    let d2 := if d1.peerUp then sendPeer 0x0C 0 [b] [] d1 else d1
    syncWrite (compareBudgets d2)

/-- MAP_LOOKUP (R159, R253): E3 of a chunk of a read. -/
def mapLookup (rd chunk : Nat) (d : Dev) : Dev := lookupChunk rd chunk d

/-- READ_LOCATE (R161): E4 of a chunk of a read. -/
def readLocate (rd chunk : Nat) (d : Dev) : Dev := locateChunk rd chunk d

/-- PANTRY_PROBE (R191 to R194): the probe of a chunk; `bad` where its bucket has an uncorrectable error (R190). -/
def pantryProbe (cmd chunk : Nat) (bad : Bool) (d : Dev) : Dev := probeChunk cmd chunk bad d

/-- PROBE_WAIT_END (R194): a probe whose owner has passed its gate, or is gone, is answered. -/
def probeWaitEnd (cmd chunk : Nat) (d : Dev) : Dev :=
  match d.pan.waits.find? fun w => w.cmd == cmd && w.chunk == chunk with
  | none => d
  | some w =>
    if isGated d w.ownerCmd then
      probeChunk cmd chunk false { d with pan := { d.pan with
        waits := d.pan.waits.filter fun x => !(x.cmd == cmd && x.chunk == chunk) } }
    else d

end Sys2Proof.Machine
end

