-- ==== Sys2Proof/Machine/MediaJobs.lean ====
section
/-! DEFINITION. Work of the Media steward: block summaries, sealing and read-back, copies that move, lost copies, garbage
collection and reclamation (R270 to R299). -/

namespace Sys2Proof.Machine

/-- Entries of one summary page (R273). -/
def sumPer : Nat := 254

/-- A summary page (R273). -/
def summaryPage (d : Dev) (k idx : Nat) (es : List SumEnt) : Bytes :=
  let head := leBytes 4 (blkEbn k % 2 ^ 24 + blkModule k * 2 ^ 24) ++ leBytes 1 1 ++ leBytes 1 d.headNum ++ leBytes 2 es.length ++
    leBytes 4 idx ++ zeros 16
  let ents := es.flatMap fun e => leBytes 8 e.handle ++ leBytes 4 e.off ++ leBytes 1 (e.len - 1) ++ zeros 1 ++ leBytes 2 e.dom
  let full := slice (head ++ zeros 4 ++ ents) 0 4096
  overlay full 28 (leBytes 4 (crcNat full))

/-- Entries of a summary page that verifies (R273). -/
def summaryEntries (b : Bytes) : Option (List SumEnt) :=
  if fieldAt b 28 4 ≠ crcNat (overlay b 28 (zeros 4)) then none
  else some ((List.range (Nat.min (fieldAt b 6 2) sumPer)).map fun i =>
    ⟨fieldAt b (32 + 16 * i) 8, fieldAt b (40 + 16 * i) 3, fieldAt b (44 + 16 * i) 1 % 64 + 1, fieldAt b (46 + 16 * i) 2⟩)

/-- Assign the units of a run on one module (R273): their locations, one after the other as far as they follow on. -/
def assignRun (m : Nat) (us : List (MUse × Bytes)) (d : Dev) : Option (List Nat × Dev) :=
  us.foldl (fun s u =>
    match s with
    | none => none
    | some (locs, d) => (assignM m u.1 u.2 d).map fun r => (locs ++ [r.1], r.2)) (some ([], d))

/-- Locations that follow on from the first. -/
def contiguous (l : List Nat) : Bool := (List.range l.length).all fun i => l.getD i 0 == l.headD 0 + i

/-- A run that does not follow on, because a page or a block ended within it, is assigned again from the place it broke at. -/
def placeRun (m : Nat) (us : List (MUse × Bytes)) (tries : Nat) (d : Dev) : Option (Nat × Dev) :=
  match assignRun m us d with
  | none => none
  | some (locs, d1) =>
    match tries with
    | 0 => some (locs.headD 0, d1)
    | n + 1 => if contiguous locs then some (locs.headD 0, d1) else placeRun m us n d1

/-- The units of stream M that an erase block's summary takes. -/
def summaryUnits (d : Dev) (k : Nat) : List (MUse × Bytes) :=
  let s := (d.eblock k).summary
  (List.range ((s.length + sumPer - 1) / sumPer)).map fun i =>
    (.summary k i, summaryPage d k i ((s.drop (i * sumPer)).take sumPer))

/-- Write a sealed block's summary to stream M on two modules (R273) and journal where it is. -/
def writeSummary (k : Nat) (d : Dev) : Dev :=
  let us := summaryUnits d k
  if us.isEmpty || (d.eblock k).sumPages != 0 then d
  else match mModules d with
    | none => d
    | some (x, y) =>
      match placeRun x us 3 d with
      | none => d
      | some (a, d1) =>
        match placeRun y us 3 d1 with
        | none => d1
        | some (b, d2) => journalBlock k (d2.modBlock k fun e => { e with sumA := a, sumB := b, sumPages := us.length })

/-- Read a flash page of a block back (R281). -/
def readBack (k page : Nat) (d : Dev) : Dev :=
  let m := blkModule k
  readCrumbs m (blkBase (d.module m) (blkEbn k) + page * 64) 64 (.verify k page) (d.stat R.MED_VERIFY_PAGES 1)

/-- A page of a sealed block need not be read back: its die is retired, or it has been. -/
def verifyAsked (d : Dev) (k page : Nat) : Bool :=
  d.med.results.any (fun r => r.work == .verify k page) ||
    ((d.link (blkModule k)).tags ++ (d.link (blkModule k)).queue).any (fun c => c.work == .verify k page) ||
    d.per.reqs.any fun r => r.work == .verify k page

/-- Read back what a sealed block has programmed and not been asked for yet (R281). -/
def startReadBack (k : Nat) (d : Dev) : Dev :=
  let b := d.eblock k
  if b.state ≠ 2 then d
  else
    let x := d.module (blkModule k)
    let todo := b.written.filter fun p => !pageRetired x b p && !verifyAsked d k p
    forEach todo (readBack k) d

/-- BLOCK_SEAL (R270, R273, R281): an open block whose last page is assigned seals; the summary of a sealed one is written and its
read-back starts. -/
def blockSeal (m ebn : Nat) (d : Dev) : Dev :=
  let k := blkKey m ebn
  let b := d.eblock k
  let d1 := if b.state = 1 ∧ crumbsLeft (d.module m) b = 0 then sealBlock k d else d
  if (d1.eblock k).state = 2 then startReadBack k (writeSummary k d1) else d1

/-- The summary of a block in DRAM, or reads of it from flash, copy B where copy A fails (R286); none while they are out. -/
def loadSummary (k : Nat) (d : Dev) : Option (List SumEnt) × Dev :=
  let b := d.eblock k
  if b.sumPages = 0 ∨ !b.summary.isEmpty then (some b.summary, d)
  else
    let got := fun (i : Nat) => d.med.results.find? fun r => r.work == .summary k i
    let loc := fun (s : Nat) (i : Nat) => s + i
    let ask := fun (s i : Nat) (d : Dev) => readCrumbs (bitsAt s 36 5) (bitsAt (loc s i) 0 36 * 16) 16 (.summary k i) d
    let pend := fun (i : Nat) => d.links.any fun l => (l.2.tags ++ l.2.queue).any fun c => c.work == .summary k i
    let step := fun (s : Option (List SumEnt) × Dev) (i : Nat) =>
      match got i with
      | none => (none, if pend i || d.per.reqs.any (fun r => r.work == .summary k i) then s.2 else ask b.sumA i s.2)
      | some r =>
        match if psLost r.status then none else summaryEntries r.data with
        | some es => (s.1.map (· ++ es), s.2)
        | none =>
          -- copy A failed: copy B is read in its place, once
          let again := { s.2 with med := { s.2.med with results := s.2.med.results.filter fun q => q.work != .summary k i } }
          (none, ask b.sumB i again)
    let r := (List.range b.sumPages).foldl step (some [], d)
    match r.1 with
    | none => r
    | some es =>
      let clean := { r.2 with med := { r.2.med with results := r.2.med.results.filter fun q => match q.work with
        | .summary j _ => j != k
        | _ => true } }
      (some es, clean.modBlock k fun b => { b with summary := es })

/-- Fetch one copy for the Keep plane, from staging, from the mirror or from flash (R161, R286). -/
def fetchCopy (work : Nat → MedWork) (m crumb n : Nat) (d : Dev) : Dev :=
  let ps := copyPages crumb n
  forEach ((List.range ps.length).zip ps) (fun e d =>
    let first := e.2.1
    let cnt := e.2.2.1
    match locatePage d m e.2.2.2 with
    | some q =>
      let t := if q % 2 = 0 then (d.stage (q / 2)).crumbs else match tabFind d.per.mirror (q / 2) with
        | some mp => mp.crumbs
        | none => []
      recordRead (work e.1) 0 (tabCrumbs t ((crumb + first) % 64) cnt) d
    | none => readCrumbs m (crumb + first) cnt (work e.1) d) d

/-- Stream that survivors of a stream's blocks go to (R275). -/
def nextStream (s : Nat) : Nat := if s ≤ 1 then 2 else if s = 2 then 3 else 4

/-- A slot is under relocation (R286). -/
def moving (d : Dev) (h : Nat) : Bool := d.med.moves.any fun x => x.handle == h
/-- Change the move of a slot. -/
def modMove (h : Nat) (f : Move → Move) (d : Dev) : Dev :=
  { d with med := { d.med with moves := mapWhere (fun x => x.handle == h) f d.med.moves } }

/-- Take a page of a garbage-collection stream's block for `n` crumbs: the page's index with its first free crumb; a new block
where none is open (R278, R286). -/
def gcPage (m stream : Nat) (d : Dev) : Option (Nat × Dev) :=
  let open' := (d.module m).gPages.find? fun e => e.2.state == 0 && (d.eblock (d.blkOf m (e.1 * 64))).stream == stream
  match open' with
  | some e => some (e.1, d)
  | none =>
    let opened : Option (Nat × Dev) := match openBlock d m stream with
      | some k => if crumbsLeft (d.module m) (d.eblock k) ≥ 64 then some (k, d) else openErase m stream true (sealBlock k d)
      | none => openErase m stream true d
    match opened with
    | none => none
    | some (k, d1) =>
      let a := nextFlash d1 k
      some (a / 64, (d1.modBlock k fun b => { b with fill := b.fill + 64 }).modModule m fun x => { x with
        gPages := tabPut x.gPages (a / 64) ⟨0, [], 0⟩ })

/-- Write crumbs into a page being gathered: the crumb index they begin at, how many went in. -/
def gcTake (m page : Nat) (b : Bytes) (d : Dev) : Nat × Dev :=
  match tabFind (d.module m).gPages page with
  | none => (0, d)
  | some g =>
    let n := Nat.min (64 - g.fill) (b.length / 256)
    let g1 : GPage := { g with
      fill := g.fill + n, state := if g.fill + n ≥ 64 then 1 else 0,
      crumbs := (List.range n).foldl (fun t i => tabPut t (g.fill + i) (slice b (256 * i) 256)) g.crumbs }
    (page * 64 + g.fill, d.modModule m fun x => { x with gPages := tabPut x.gPages page g1 })

/-- Bytes of a gathered page. -/
def gPageBytes (g : GPage) : Bytes := (List.range 64).flatMap fun i => tabGet (zeros 256) g.crumbs i

/-- Program a gathered die once all its planes' pages are full (R267); `now` programs what there is. -/
def programGc (m page : Nat) (now : Bool) (d : Dev) : Dev :=
  let x := d.module m
  let base := page / x.planes * x.planes
  let mates := (List.range x.planes).map fun q => (base + q, tabFind x.gPages (base + q))
  let full := mates.filterMap fun e => match e.2 with
    | some g => if g.state == 1 || (now && g.state == 0 && g.fill != 0) then some (e.1, g) else none
    | none => none
  let k := d.blkOf m (page * 64)
  if full.isEmpty || (decide (full.length < x.planes) && !now) || (d.eblock k).closed then d
  else
    let d1 := d.modModule m fun y => { y with
      queued := y.queued + 1, gPages := full.foldl (fun t e => tabPut t e.1 { e.2 with state := 2 }) y.gPages }
    let payload := full.flatMap fun e => gPageBytes e.2
    let mask := (full.map fun e => 2 ^ (e.1 % x.planes)).foldl (· + ·) 0
    if x.planes = 1 then mediaCmd m 3 0 (page * 64) 0 payload (.gc m (full.map (·.1))) d1
    else mediaCmd m 4 0 (base * 64) mask payload (.gc m (full.map (·.1))) d1

/-- Place a gathered copy in its target block (R286, R142): a copy does not straddle two blocks. -/
def placeMove (x : Move) (b : Bytes) (d : Dev) : Dev :=
  let want := x.len
  match gcPage x.dm x.stream d with
  | none => d
  | some (p, d1) =>
    let g := (tabFind (d1.module x.dm).gPages p).getD ⟨0, [], 0⟩
    let k := d1.blkOf x.dm (p * 64)
    let crosses := decide (64 - g.fill < want) && decide (crumbsLeft (d1.module x.dm) (d1.eblock k) < 64)
    let r : Option (Nat × Dev) := if crosses then
        -- the rest of the block's last page stays unassigned
        gcPage x.dm x.stream (sealBlock k (programGc x.dm p true (d1.modModule x.dm fun y => { y with
          gPages := tabPut y.gPages p { g with state := 1 } })))
      else some (p, d1)
    match r with
    | none => d1
    | some (q, d2) =>
      let a := gcTake x.dm q b d2
      let n := 64 - ((tabFind (d2.module x.dm).gPages q).getD ⟨0, [], 0⟩).fill
      let rest := b.drop (n * 256)
      let d3 := programGc x.dm q false a.2
      let d4 := if rest.isEmpty then d3 else match gcPage x.dm x.stream d3 with
        | some (q2, d5) => programGc x.dm q2 false (gcTake x.dm q2 rest d5).2
        | none => d3
      let d6 := addSummary x.dm a.1 want x.handle x.dom d4
      (modMove x.handle (fun y => { y with dst := a.1, stage := 2 }) d6).stat R.MED_GC_MOVED want

/-- Begin to move a copy (R286): its crumbs are read. The relocation table holds 262,144 entries. -/
def startMove (x : Move) (d : Dev) : Dev :=
  if moving d x.handle || decide (d.med.moves.length ≥ 262144) then d
  else fetchCopy (.moveRead x.sm x.src) x.rm x.rsrc x.len { d with med := { d.med with moves := d.med.moves ++ [x] } }

/-- Mark a copy lost (R299): its record takes the lost mark. -/
def markLost (h w0 : Nat) (d : Dev) : Dev :=
  let n := lostMark + w0 / 2 ^ 40 * 2 ^ 40
  (placeGroup iMed [⟨0x20, 0, h, n, w0, 0⟩] 0 d).err R.E_MED_LOST_COPIES

/-- Parts of a move's source that have been answered are taken; with all of them there, the MOVER ticket goes out, or the loss is
handled (R286, R299). -/
def moveRead (x : Move) (d : Dev) : Dev :=
  let ps := copyPages x.rsrc x.len
  let rs := (List.range ps.length).map fun i => d.med.results.find? fun r => r.work == .moveRead x.sm x.src i
  if x.stage ≠ 0 || rs.any (·.isNone) then d
  else
    let d1 := { d with med := { d.med with results := d.med.results.filter fun r => match r.work with
      | .moveRead m s _ => !(m == x.sm && s == x.src)
      | _ => true } }
    let bad := rs.any fun r => match r with
      | some y => psLost y.status
      | none => false
    let drop := fun (d : Dev) => ({ d with med := { d.med with moves := d.med.moves.filter fun y => y.handle != x.handle } } : Dev)
    if bad then
      let d2 := drop d1
      if x.repair then match lookupRecord .media 1 0 x.handle d2 with
        | (.val w, d3) => markLost x.handle w.1 d3
        | (_, d3) => d3
      else noteLost x.handle x.dom (mkWordA x.src x.sm x.len 0) 1 d2
    else
      let b := ((List.range ps.length).zip (ps.zip rs)).flatMap fun e => match e.2.2 with
        | some y => slice y.data 0 (e.2.1.2.1 * 256)
        | none => []
      issueTicket iMed 2 pMover none 0 b b.length 0 (.mover x.sm x.handle) (modMove x.handle (fun y => { y with stage := 1 }) d1)

/-- The MOVER ticket of a copy has ended (R286). -/
def moverDone (handle st : Nat) (out : Bytes) (d : Dev) : Dev :=
  match d.med.moves.find? fun x => x.handle == handle with
  | none => d
  | some x =>
    if x.stage ≠ 1 then d
    else if st = tkOk then placeMove x (slice out 0 (x.len * 256)) d
    else { d with med := { d.med with moves := d.med.moves.filter fun y => y.handle != handle } }

/-- The present words of an own slot, in NEWEST mode; none while the page is not there. -/
def ownRecord (h : Nat) (d : Dev) : Option (Nat × Nat) × Dev :=
  match lookupRecord .media 1 0 h d with
  | (.val w, d1) => (some w, d1)
  | (.unavailable, d1) => (some (0, 0), d1)
  | (.wait, d1) => (none, d1)

/-- A record has references: its own, or of a companion its primary's (R286). -/
def liveRefs (h : Nat) (w : Nat × Nat) (d : Dev) : Option Bool × Dev :=
  if bitAt (recFlags w.2) 2 then
    match ownRecord (h - 1) d with
    | (some p, d1) => (some (decide (recRefs p.2 ≥ 1)), d1)
    | (none, d1) => (none, d1)
  else (some (decide (recRefs w.2 ≥ 1)), d)

/-- Issue the RELOCATEs of copies whose target block has been read back (R287): of those whose record still names the source. -/
def issueRelocates (d : Dev) : Dev :=
  forEach (d.med.moves.filter fun x => x.stage == 2) (fun x d =>
    let k := d.blkOf x.dm x.dst
    let st := (d.eblock k).state
    if st ≠ 3 ∧ !(x.stream ≤ 1) then d
    else match ownRecord x.handle d with
      | (none, d1) => d1
      | (some w, d1) =>
        if recModule w.1 = x.sm ∧ (recCrumb w.1 = x.src ∨ (x.repair ∧ recCrumb w.1 = lostMark)) ∧ recRefs w.2 + b2n (bitAt (recFlags w.2) 2) ≠ 0
        then placeGroup iMed [⟨0x20, 0, x.handle, mkWordA x.dst x.dm x.len (recEpoch w.1), w.1, 0⟩] 0
          (modMove x.handle (fun y => { y with stage := 3, jsn := d1.nextJsn }) d1)
        else
          let d2 := d1.modBlock k fun b => { b with valid := b.valid - x.len }
          { d2 with med := { d2.med with moves := d2.med.moves.filter fun y => y.handle != x.handle } }) d

/-- Staging pages bound to the pages of a failed block go free once no copy has yet to leave it (R283). -/
def freeBound (k : Nat) (d : Dev) : Dev :=
  if !(d.eblock k).closed || d.med.moves.any (fun x => d.blkOf x.sm x.src == k) then d
  else
    let ps := (d.write.pages.filter fun e => e.2.state == 2 && d.blkOf e.2.module e.2.flash == k).map (·.1)
    forEach ps (fun p d => pageProgrammed p (d.modStage p fun s => { s with state := 4 })) d

/-- Moves whose RELOCATE is durable are over (R283, R287): its group has left the list of groups. -/
def relocated (d : Dev) : Dev :=
  forEach (d.med.moves.filter fun x => x.stage == 3 && (d.grp x.jsn).isNone) (fun x d =>
    freeBound (d.blkOf x.sm x.src)
      { d with med := { d.med with moves := d.med.moves.filter fun y => y.handle != x.handle } }) d

/-- Handle copies found lost (R299): the other copy of a pair is read and written anew into G1 on another module; otherwise the record
takes the lost mark. -/
def repairLost (d : Dev) : Dev :=
  forEach d.med.lost (fun e d =>
    let done := fun (d : Dev) => ({ d with med := { d.med with lost := d.med.lost.filter (· != e) } } : Dev)
    match ownRecord e.1 d with
    | (none, d1) => d1
    | (some w, d1) =>
      if recCrumb w.1 = lostMark || w.1 == 0 && w.2 == 0 then done d1
      else if moving d1 e.1 then d1
      else
        let comp := bitAt (recFlags w.2) 2
        let pair := comp || bitAt (recFlags w.2) 1
        let oh := if comp then e.1 - 1 else e.1 + 1
        if !pair then done (markLost e.1 w.1 d1)
        else match ownRecord oh d1 with
          | (none, d2) => d2
          | (some o, d2) =>
            if recCrumb o.1 = lostMark then done (markLost e.1 w.1 d2)
            else match chooseModule d2 (some (recModule o.1)) with
              | none => done (markLost e.1 w.1 d2)
              | some m => done (startMove ⟨e.1, e.2, recModule w.1, recCrumb w.1, recLen w.1, recModule o.1, recCrumb o.1, [], m, 0, 0, 0, 2, true⟩ d2)) d

/-- Write a page of stream M that must leave its place again (R282, R288, R289, R300): a map page becomes dirty, an anchor falls due, a
block-table leaf is written with the next anchor, a summary at once; a journal page leaves with its records. -/
def rewriteUse (u : MUse) (d : Dev) : Dev :=
  match u with
  | .page key _ => match ensurePage mapFuel .media key d with
    | (.ready, d1) => syncMap (dirtyLine key d1.nextJsn d1)
    | (_, d1) => d1
  | .blockTable m p =>
    let l := (if m < 64 then 0 else 2 ^ 48) + m % 64 * 2 ^ 32 + p % 2 ^ 24 * 128 ^ (p / 2 ^ 24)
    if d.med.btDirty.contains l || (decide (m ≥ 64) && !d.per.adopted) then d else { d with med := { d.med with btDirty := d.med.btDirty ++ [l] } }
  | .summary k _ =>
    match loadSummary k d with
    | (some _, d1) => writeSummary k (d1.modBlock k fun b => { b with sumPages := 0 })
    | (none, d1) => d1
  | .keyStore _ _ => { d with sec := { d.sec with rewrite := true } }
  | _ => d

/-- REDO of the last durable anchor. -/
def durableRedo (d : Dev) : Nat := d.getF R.MAP_ANCHOR_REDO_JSN

/-- A unit of stream M is still in use (R273, R289): a journal page until its records lie below the REDO of a durable anchor and the
opening of every open block. -/
def unitLive (d : Dev) (u : MUse) : Bool :=
  match u with
  | .journal _ last => !jsnLt last (durableRedo d) || d.med.blocks.any fun e => e.2.state == 1 && !jsnLt last e.2.openJsn
  | _ => true

/-- Remove a unit of stream M that nothing names any more. -/
def dropUnit (loc : Nat) (d : Dev) : Dev :=
  let m := bitsAt loc 36 5
  let x := d.module m
  let k := d.blkOf m (bitsAt loc 0 36 * 16)
  let off := bitsAt loc 0 36 - blkBase x (blkEbn k) / 16
  if (tabFind (d.eblock k).units off).isNone then d
  else d.modBlock k fun b => { b with units := tabDel b.units off, valid := b.valid - 16 }

/-- A location of stream M is superseded; it leaves its block with the next durable anchor (R245, R289). -/
def supersede (loc : Nat) (d : Dev) : Dev :=
  if loc = 0 ∨ d.med.superseded.contains loc then d
  else { d with med := { d.med with superseded := d.med.superseded ++ [loc] } }

/-- Copies of a block that touch given pages or pages never programmed. -/
def affected (d : Dev) (k : Nat) (bad : List Nat) : List SumEnt :=
  let b := d.eblock k
  b.summary.filter fun e =>
    let ps := (copyPages e.off e.len).map fun p => p.2.2
    ps.any fun p => bad.contains p || !b.written.contains p

/-- Pages of a block's row and plane other than one. -/
def rowMates (x : Module) (page : Nat) : List Nat :=
  ((List.range 16).map fun die => page / (16 * x.planes) * (16 * x.planes) + die * x.planes + page % x.planes).filter (· != page)

/-- Bytes that were read back of a page. -/
def backBytes (d : Dev) (k page : Nat) : Option Bytes :=
  match d.med.results.find? fun r => r.work == .verify k page with
  | some r => if psLost r.status then none else some (slice r.data 0 16384)
  | none => none

/-- Rebuild a page from parity and the other dies' pages (R281); none where two fail together. -/
def rebuildPage (d : Dev) (k page : Nat) : Option Bytes :=
  let x := d.module (blkModule k)
  let b := d.eblock k
  let slot := page / (16 * x.planes) * x.planes + page % x.planes
  if b.bare then none
  else ((rowMates x page).filter b.written.contains).foldl (fun s p =>
    match s, backBytes d k p with
    | some a, some c => some (xorB a c)
    | _, _ => none) (some (tabGet (zeros 16384) b.parity slot))

/-- Bytes of one crumb range of a failed block: read back, rebuilt, from staging or from the gather buffers (R283). -/
def salvage (d : Dev) (k : Nat) (rebuilt : Tab Bytes) (page first n : Nat) : Option Bytes :=
  let m := blkModule k
  let base := blkBase (d.module m) (blkEbn k) / 64
  match tabFind rebuilt page with
  | some b => some (slice b (first * 256) (n * 256))
  | none => match backBytes d k page with
    | some b => some (slice b (first * 256) (n * 256))
    | none => match ownPageOf d m (base + page) with
      | some p => some (tabCrumbs (d.stage p).crumbs first n)
      | none => match tabFind (d.module m).gPages (base + page) with
        | some g => some (tabCrumbs g.crumbs first n)
        | none => none

/-- Bytes of a whole copy of a failed block. -/
def salvageCopy (d : Dev) (k : Nat) (rebuilt : Tab Bytes) (e : SumEnt) : Option Bytes :=
  (copyPages e.off e.len).foldl (fun s p =>
    match s, salvage d k rebuilt p.2.2 ((e.off + p.1) % 64) p.2.1 with
    | some a, some b => some (a ++ b)
    | _, _ => none) (some [])

/-- Bind a rebuilt page to a free staging page in state full, so that reads find it there (R283). -/
def bindRebuilt (k page : Nat) (b : Bytes) (d : Dev) : Dev :=
  let m := blkModule k
  let flash := blkBase (d.module m) (blkEbn k) + page * 64
  if (ownPageOf d m (flash / 64)).isSome then d
  else match freeStage d with
    | none => d
    | some p =>
      let s : StagePage := { pageFresh with
        state := 2, stream := (d.eblock k).stream, module := m, fill := 64, flash := flash, openJsn := d.nextJsn,
        crumbs := (List.range 64).map fun i => (i, slice b (256 * i) 256) }
      let d1 := mirrorDesc p (d.modStage p fun _ => s)
      syncWrite (if d1.mirrors then mirrorWrite 0 (p * 16384) (slice b 0 16384) d1 else d1)

/-- Move one copy out of a failed block (R283, R288). -/
def moveOut (k : Nat) (rebuilt : Tab Bytes) (e : SumEnt) (d : Dev) : Dev :=
  let m := blkModule k
  let b := d.eblock k
  let crumb := blkBase (d.module m) (blkEbn k) + e.off
  match salvageCopy d k rebuilt e with
  | none => noteLost e.handle e.dom (mkWordA crumb m e.len 0) 1 d
  | some bytes =>
    if b.stream ≤ 1 then
      match ownRecord e.handle d with
      | (some w, d1) =>
        if recModule w.1 = m ∧ recCrumb w.1 = crumb then
          match assignCopy b.stream m e.len d1 with
          | none => d1
          | some (rs, d2) =>
            let dest := (rs.head?.map (rangeCrumb d2)).getD 0
            let x : Move := ⟨e.handle, e.dom, m, crumb, e.len, m, crumb, [], m, dest, 2, 0, b.stream, false⟩
            let d3 := writeRanges rs bytes { d2 with med := { d2.med with moves := d2.med.moves ++ [x] } }
            addSummary m dest e.len e.handle e.dom (forEach (rs.map (·.page)) programStage d3)
        else d1
      | (none, d1) => d1
    else match d.med.moves.find? fun x => x.handle == e.handle && x.stage == 2 && x.dm == m && x.dst == crumb with
      | some x => placeMove x bytes d
      | none => d

/-- BLOCK_READBACK_DONE (R281 to R283, R288): every page of a sealed block has been read back. Failed pages are rebuilt and their copies
moved; the block becomes VERIFIED, its parity slot is free and the RELOCATEs of the copies it took are issued. -/
def readbackDone (m ebn : Nat) (d : Dev) : Dev :=
  let k := blkKey m ebn
  let b := d.eblock k
  let x := d.module m
  let asked := b.written.filter fun p => !pageRetired x b p
  let busy := ((d.link m).tags ++ (d.link m).queue).any fun c => match c.work with
    | .staging ps => ps.any fun p => d.blkOf m (d.stage p).flash == k
    | .gc _ ps => ps.any fun p => d.blkOf m (p * 64) == k
    | .mUnits _ a _ => d.blkOf m a == k
    | _ => false
  if b.state ≠ 2 || busy || asked.any (fun p => !d.med.results.any fun r => r.work == .verify k p) then d
  else
    let bad := b.written.filter fun p => (backBytes d k p).isNone
    let rebuilt := if b.stream = sM then [] else bad.filterMap fun p => (rebuildPage d k p).map fun y => (p, y)
    let d1 := forEach rebuilt (fun e d => (if b.stream ≤ 1 then bindRebuilt k e.1 e.2 d else d).err R.E_MED_REBUILDS) d
    let d2 := if b.stream = sM then
        forEach (b.units.filter fun u => bad.contains (u.1 / 4)) (fun u d => rewriteUse u.2 d) d1
      else forEach (affected d1 k bad) (moveOut k rebuilt) d1
    let d3 : Dev := { d2 with med := { d2.med with
      results := d2.med.results.filter fun r => match r.work with
        | .verify j _ => j != k
        | _ => true
      parityUsed := d2.med.parityUsed - b2n (b.stream != sM) } }
    let d4 := (d3.modBlock k fun b => { b with state := 3, parity := [] }).modModule m fun x => { x with
      gPages := x.gPages.filter fun e => !(e.2.state == 3 && d3.blkOf m (e.1 * 64) == k) }
    let d5 := if bad.isEmpty && !b.closed then d4 else d4.modBlock k fun b => { b with closed := true }
    syncMedia m (issueRelocates (journalBlock k d5))

/-- A program succeeded (R270, R280): pages written, parity brought up to date. -/
def pagesWritten (m : Nat) (ps : List (Nat × Bytes)) (d : Dev) : Dev :=
  forEach ps (fun e d =>
    let k := d.blkOf m (e.1 * 64)
    let x := d.module m
    let p := e.1 - blkBase x (blkEbn k) / 64
    let slot := p / (16 * x.planes) * x.planes + p % x.planes
    let d1 := d.modBlock k fun b => { b with
      written := b.written ++ [p]
      parity := if b.stream = sM then b.parity
        else tabPut b.parity slot (xorB (tabGet (zeros 16384) b.parity slot) e.2) }
    let d2 := d1.stat (R.MED_M_PROG m) 1
    if (d2.eblock k).state = 2 then startReadBack k d2 else d2) d

/-- A program failed on a flash page (R282, R288, R296): the block is sealed early and takes no more programs, its die is retired
(`retire`), and the rest is read back. -/
def programFailed (m page : Nat) (retire : Bool) (d : Dev) : Dev :=
  let x := d.module m
  let k := d.blkOf m (page * 64)
  let p := page - blkBase x (blkEbn k) / 64
  let die := p / x.planes % 16
  let d1 := (d.err R.E_MED_PROG_FAIL).postAt 0x1203 (sa 0x12 m 0 0) [m, blkEbn k, die]
  let d2 := sealBlock k (d1.modBlock k fun b => { b with closed := true })
  let d3 := if retire then retireDie k die d2 else d2
  startReadBack k (writeSummary k d3)

end Sys2Proof.Machine
end

