-- ==== Sys2Proof/Machine/GcOps.lean ====
section
/-! DEFINITION. Garbage collection, merging, reclamation, scrub, failed modules and the loss walk (R202, R284 to R300). -/

namespace Sys2Proof.Machine

/-- Score of a victim as a fraction (R285): (1 − u) × A / (1 + u) with u = VALID / crumbs. -/
def score (d : Dev) (k : Nat) : Nat × Nat :=
  let b := d.eblock k
  let c := goodCrumbs (d.module (blkModule k)) b
  ((c - b.valid) * Nat.min 65535 ((d.now - b.sealTime) / 1000000000), c + b.valid)

/-- The victim of a module (R285): what is queued for refresh first, else the highest score, ties to the lowest EBN. -/
def pickVictim (d : Dev) (m : Nat) : Option Nat :=
  let ok := fun (k : Nat) => blkModule k == m && (d.eblock k).state == 3 && ownPool d (d.module m) (blkEbn k)
  match d.med.refresh.find? ok with
  | some k => some k
  | none => ((d.med.blocks.map (·.1)).filter ok).foldl (fun b k =>
    match b with
    | none => some k
    | some y => if (score d k).1 * (score d y).2 > (score d y).1 * (score d k).2 then some k else some y) none

/-- A block becomes VICTIM (R270). -/
def makeVictim (k : Nat) (d : Dev) : Dev := journalBlock k (d.modBlock k fun b => { b with state := 4 })

/-- Every live copy of a victim has been handled, so that it waits for its erase only (R284). -/
def victimSettled (d : Dev) (k : Nat) : Bool :=
  (d.eblock k).state != 4 ||
    (d.med.moves.all (fun x => d.blkOf x.sm x.src != k || decide (x.stage ≥ 2)) &&
      d.med.merges.all fun x => d.blkOf (recModule x.w0) (recCrumb x.w0) != k)

/-- GC_START_TRIGGER (R284, R285, R291, R295, R305): collection of a module starts below GC_START, stops at GC_STOP, and takes its next
victim. -/
def gcStartTrigger (m : Nat) (d : Dev) : Dev :=
  let free := freeCount d m
  let on := d.modOn m && d.med.pla.phase == 0 && !d.fenced
  let col := if free ≥ d.getF R.MED_GC_GC_STOP then false
    else decide (free < d.getF R.MED_GC_GC_START) || (d.module m).collecting
  let queued := d.med.refresh.any fun k => blkModule k == m
  if !on then d
  else
    let d1 := d.modModule m fun x => { x with collecting := col }
    let busy := match (d1.module m).victim with
      | some k => !victimSettled d1 k
      | none => false
    if busy || !(col || queued) then d1
    else match pickVictim d1 m with
      | none =>
        if free = 0 ∧ col then
          ((d1.modModule m fun x => { x with collecting := false }).postAt 0x1206 (sa 0x12 m 0 0) [m])
        else d1
      | some k =>
        let d2 := if d1.med.refresh.contains k then
            ({ d1 with med := { d1.med with refresh := d1.med.refresh.filter (· != k) } } : Dev).stat R.MED_REFRESHES 1
          else d1
        makeVictim k ((d2.stat R.MED_GC_VICTIMS 1).modModule m fun x => { x with victim := some k })

/-- The record of an entry's slot, where it names the entry's place; none while its page is not there. -/
def entryRecord (k : Nat) (e : SumEnt) (d : Dev) : Option (Option (Nat × Nat)) × Dev :=
  let m := blkModule k
  match ownRecord e.handle d with
  | (none, d1) => (none, d1)
  | (some w, d1) =>
    let here := recModule w.1 == m && recCrumb w.1 == blkBase (d.module m) (blkEbn k) + e.off && (w.1 != 0 || w.2 != 0)
    (some (if here then some w else none), d1)

/-- A primary may be offered for merging (R202): PAIR, ALIAS and ANCHOR clear, and no companion. -/
def mayMerge (w : Nat × Nat) : Bool :=
  let f := recFlags w.2
  !(bitAt f 1 || bitAt f 2 || bitAt f 4 || bitAt f 5)

/-- Begin to offer a live primary for merging (R202). -/
def startMerge (h dom : Nat) (w : Nat × Nat) (d : Dev) : Dev :=
  if d.med.merges.any fun x => x.handle == h then d
  else
    let d1 : Dev := { d with med := { d.med with merges := d.med.merges ++ [⟨h, dom, w.1, w.2, [], 0, 0, 0, [], 0⟩] } }
    fetchCopy (.mergeRead h) (recModule w.1) (recCrumb w.1) (recLen w.1) (d1.stat R.PAN_BG_CHECKED 1)

/-- The move of an entry out of a victim (R286). -/
def gcMove (d : Dev) (k : Nat) (e : SumEnt) : Move :=
  let m := blkModule k
  let crumb := blkBase (d.module m) (blkEbn k) + e.off
  ⟨e.handle, e.dom, m, crumb, e.len, m, crumb, [], m, 0, 0, 0, nextStream (d.eblock k).stream, false⟩

/-- A dead record is queued for reclamation (R290). -/
def queueDead (h : Nat) (d : Dev) : Dev :=
  if d.med.dead.contains h then d
  else if d.med.dead.length ≥ 1048576 then d.err R.E_MED_DEAD_DROPS
  else { d with med := { d.med with dead := d.med.dead ++ [h] } }

/-- GC_VICTIM_EXAMINE (R286): live copies are offered for merging or copied, dead ones queued, VALID corrected. -/
def gcVictimExamine (m ebn : Nat) (d : Dev) : Dev :=
  let k := blkKey m ebn
  let b := d.eblock k
  if b.state ≠ 4 then d
  else if b.stream = sM then forEach (b.units.filter fun u => unitLive d u.2) (fun u d => rewriteUse u.2 d) d
  else match loadSummary k d with
    | (none, d1) => d1
    | (some es, d1) =>
      let r := es.foldl (fun (s : Option Nat × Dev) e =>
        match entryRecord k e s.2 with
        | (none, d2) => (none, d2)
        | (some none, d2) => (s.1, d2)
        | (some (some w), d2) =>
          match liveRefs e.handle w d2 with
          | (none, d3) => (none, d3)
          | (some false, d3) => (s.1, queueDead (if bitAt (recFlags w.2) 2 then e.handle - 1 else e.handle) d3)
          | (some true, d3) =>
            let n := s.1.map (· + e.len)
            if moving d3 e.handle || d3.med.merges.any (fun x => x.handle == e.handle) then (n, d3)
            else if mayMerge w then (n, startMerge e.handle e.dom w d3)
            else (n, startMove (gcMove d3 k e) d3)) (some 0, d1)
      match r.1 with
      | some n => r.2.modBlock k fun b => { b with valid := n }
      | none => r.2

/-- Change a merge. -/
def modMerge (h : Nat) (f : Merge → Merge) (d : Dev) : Dev :=
  { d with med := { d.med with merges := mapWhere (fun x => x.handle == h) f d.med.merges } }

/-- A merge comes to nothing: the copy goes ahead (R202 step 5). -/
def mergeFails (x : Merge) (d : Dev) : Dev :=
  let d1 : Dev := { d with med := { d.med with merges := d.med.merges.filter fun y => y.handle != x.handle } }
  let k := d.blkOf (recModule x.w0) (recCrumb x.w0)
  startMove ⟨x.handle, x.dom, recModule x.w0, recCrumb x.w0, recLen x.w0, recModule x.w0, recCrumb x.w0, [], recModule x.w0, 0, 0,
    0, nextStream (d.eblock k).stream, false⟩ d1

/-- Location word of the record a merge works on. -/
def mergeWord (x : Merge) : Nat := if x.side = 0 then x.w0 else x.c0
/-- Handle of that record. -/
def mergeHandle (x : Merge) : Nat := if x.side = 0 then x.handle else x.cand
/-- Flags of that record. -/
def mergeFlags (x : Merge) : Nat := recFlags (if x.side = 0 then x.w1 else x.c1)

/-- The crumbs of a merge's record have been read: its UNSEAL goes out (R202 step 1). -/
def mergeRead (x : Merge) (d : Dev) : Dev :=
  let w := mergeWord x
  let ps := copyPages (recCrumb w) (recLen w)
  let rs := (List.range ps.length).map fun i => d.med.results.find? fun r => r.work == .mergeRead x.handle i
  if rs.any (·.isNone) then d
  else
    let d1 : Dev := { d with med := { d.med with results := d.med.results.filter fun r => match r.work with
      | .mergeRead h _ => h != x.handle
      | _ => true } }
    if rs.any (fun r => match r with
        | some y => psLost y.status
        | none => false) then mergeFails x d1
    else
      let b := ((List.range ps.length).zip (ps.zip rs)).flatMap fun e => match e.2.2 with
        | some y => slice y.data 0 (e.2.1.2.1 * 256)
        | none => []
      issueTicket iPan 2 pUnseal none 0 b b.length (mkArgs (mergeHandle x) (keyIndex 1 x.dom (recEpoch w)) 0) (.merge x.handle 0) d1

/-- A candidate for merging (R202 step 2): V1 to V5, not CAPPED, not under relocation, another record. -/
def candOk (d : Dev) (x : Merge) (h : Nat) (w : Nat × Nat) : Bool :=
  let f := recFlags w.2
  recOk x.dom h w.1 w.2 && !bitAt f 2 && !bitAt f 4 && !bitAt f 3 && recEpoch w.1 == recEpoch x.w0 && decide (recRefs w.2 ≥ 1) &&
    h != x.handle && !moving d h

/-- Locators the Pantry and the index give for a merge's fingerprint; none while an index page is not there. -/
def mergeHints (b tag : Nat) (d : Dev) : Option (List Nat) × Dev :=
  let pan := ((d.bucket b).filter fun e => e.tag == tag).map (·.loc)
  (List.range 64).foldl (fun (s : Option (List Nat) × Dev × Bool) j =>
    if s.2.2 then s
    else match ensurePage mapFuel .media (indexKey s.2.1 b j) s.2.1 with
      | (.ready, d1) =>
        let es := match d1.line (indexKey d1 b j) with
          | some l => indexEntries l.data
          | none => []
        (s.1.map (· ++ (es.filter fun e => e.tag == tag).map (·.loc)), d1, decide (es.length < 340))
      | (.unavailable, d1) => (s.1, d1, true)
      | (.wait, d1) => (none, d1, true)) (some pan, d, false) |> fun r => (r.1, r.2.1)

/-- Look for the candidate of a merge (R202 step 2), the first in order that passes. -/
def findCand (x : Merge) (d : Dev) : Dev :=
  let b := fpBucket x.fp
  match mergeHints b (fpTag x.fp) d with
  | (none, d1) => d1
  | (some locs, d1) =>
    let r := locs.foldl (fun (s : Option (Option (Nat × (Nat × Nat))) × Dev) loc =>
      match s.1 with
      | some none =>
        let h := b * 2 ^ 32 + loc
        if h = x.handle then s
        else match lookupRecord .media 3 x.dom h s.2 with
          | (.val w, d2) => (if candOk d2 x h w then some (some (h, w)) else some none, d2)
          | (.unavailable, d2) => (some none, d2)
          | (.wait, d2) => (none, d2)
      | _ => s) (some none, d1)
    match r.1 with
    | none => r.2
    | some none => mergeFails x r.2
    | some (some (h, w)) =>
      fetchCopy (.mergeRead x.handle) (recModule w.1) (recCrumb w.1) (recLen w.1)
        (modMerge x.handle (fun y => { y with cand := h, c0 := w.1, c1 := w.2, side := 1 }) r.2)

/-- Both fingerprints agree (R202 step 4): the victim becomes an alias of the target, which gains a reference. -/
def mergeCommit (x : Merge) (d : Dev) : Dev :=
  match ownRecord x.handle d with
  | (none, d1) => d1
  | (some w, d1) =>
    match lookupRecord .media 3 x.dom x.cand d1 with
    | (.wait, d2) => d2
    | (.unavailable, d2) => mergeFails x d2
    | (.val t, d2) =>
      if w.1 ≠ x.w0 || recRefs w.2 == 0 || !mayMerge w || !candOk d2 x x.cand t then mergeFails x d2
      else
        if placeBlocked d2 d2.nextJsn [x.cand] then d2 else
        let d3 := takeLeases 0 d2.nextJsn [x.cand] (removeEntry (bucketOf x.handle) (locOf x.handle) (forgetRemote x.cand d2))
        let d4 := placeGroup iMed [⟨0x21, 0, x.handle, x.cand, x.w0, 0⟩, refAdj 0 x.cand true t.2] 0 d3
        { d4.stat R.PAN_BG_MERGED 1 with
          med := { d4.med with merges := d4.med.merges.filter fun y => y.handle != x.handle }
          pan := { d4.pan with unindex := d4.pan.unindex ++ [x.handle] } }

/-- A ticket of a merge has ended (R202): UNSEAL 0, UNSQUEEZE 1, DIGEST 2. -/
def mergeDone (h step st : Nat) (out : Bytes) (d : Dev) : Dev :=
  match d.med.merges.find? fun x => x.handle == h with
  | none => d
  | some x =>
    let digest := fun (b : Bytes) (d : Dev) =>
      issueTicket iPan 2 pDigest none 0 b 32 (mkArgs 0 (dedupCtx x.dom (recEpoch x.w0)) 0) (.merge h 2) d
    if st ≠ tkOk then mergeFails x d
    else if step = 0 ∧ !bitAt (mergeFlags x) 0 then
      issueTicket iPan 2 pUnsqueeze none 0 out chunkBytes (mkArgs 0 (recLen (mergeWord x)) 0) (.merge h 1) d
    else if step ≤ 1 then digest (slice out 0 chunkBytes) d
    else if x.side = 0 then findCand { x with fp := out.take 32 } (modMerge h (fun y => { y with fp := out.take 32 }) d)
    else if out.take 32 = x.fp then mergeCommit x (modMerge h (fun y => { y with side := 2 }) d)
    else mergeFails x d

/-- Merges that waited for a page or a record go on. -/
def pumpMerges (d : Dev) : Dev :=
  forEach d.med.merges (fun x d =>
    if x.side = 2 then mergeCommit x d
    else
      let waiting := d.tray.outst.any fun o => match o.work with
        | .merge h _ => h == x.handle
        | _ => false
      if waiting then d
      else if x.side = 0 ∧ !x.fp.isEmpty then findCand x d
      else mergeRead x d) d

/-- A record is held by nothing that keeps it from reclamation (R290): no probe hold, no lease, no relocation mark. -/
def unheld (d : Dev) (h : Nat) : Bool :=
  holdCount d h == 0 && d.map.leases.all (fun l => l.handle != h) && !moving d h && !moving d (h + 1) &&
    d.med.merges.all fun x => x.handle != h && x.cand != h

/-- RECLAIM (R290): a dead record of the dead queue that nothing holds is given up. -/
def reclaim (h : Nat) (d : Dev) : Dev :=
  if !d.med.dead.contains h || !unheld d h then d
  else match ownRecord h d with
    | (none, d1) => d1
    | (some w, d1) =>
      let d2 : Dev := { d1 with med := { d1.med with dead := d1.med.dead.filter (· != h) } }
      if recRefs w.2 ≠ 0 ∨ (w.1 = 0 ∧ w.2 = 0) ∨ bitAt (recFlags w.2) 2 then d2
      else placeGroup iMed [⟨0x22, 0, h, w.1, recFlags w.2, 0⟩] 0 d2

/-- Nothing names a place of a victim any more (R289, conditions 1 and 4). -/
def victimEmpty (k : Nat) (d : Dev) : Bool × Dev :=
  let b := d.eblock k
  if b.stream = sM then (b.units.all fun u => !unitLive d u.2, d)
  else match loadSummary k d with
    | (none, d1) => (false, d1)
    | (some es, d1) => es.foldl (fun (s : Bool × Dev) e =>
      match entryRecord k e s.2 with
      | (some none, d2) => (s.1, d2)
      | (_, d2) => (false, d2)) (true, d1)

/-- VICTIM_ERASE (R289): a victim whose conditions all hold is erased. -/
def victimErase (m ebn : Nat) (d : Dev) : Dev :=
  let k := blkKey m ebn
  if (d.eblock k).state ≠ 4 || d.med.moves.any (fun x => d.blkOf x.sm x.src == k) || tabGet 0 d.read.blockHolds k != 0 ||
      decide (d.med.pla.phase ≠ 0) then d
  else match victimEmpty k d with
    | (false, d1) => d1
    | (true, d1) =>
      let d2 := journalBlock k (d1.modBlock k fun b => { b with state := 5 })
      mediaCmd m 5 0 (blkBase (d.module m) ebn) (0xFFFF - (d2.eblock k).dieMask) [] (.erase k) d2

/-- An erase succeeded (R270): FREE, one more erase, the read-disturb counter zero; its summary is superseded. -/
def eraseOk (k : Nat) (d : Dev) : Dev :=
  let m := blkModule k
  let b := d.eblock k
  let d1 := forEach (List.range b.sumPages) (fun i d => supersede (b.sumB + i) (supersede (b.sumA + i) d)) d
  let d2 := d1.modBlock k fun b => { blockFresh with erases := Nat.min (b.erases + 1) 0xFFFFFFFF, dieMask := b.dieMask }
  let d3 := ((d2.stat R.MED_ERASES 1).stat (R.MED_M_ERASES m) 1).modModule m fun x => { x with
    victim := if x.victim = some k then none else x.victim }
  let d4 : Dev := { d3 with med := { d3.med with sweepVictims := d3.med.sweepVictims.filter (· != k) } }
  syncMedia m (journalBlock k (if d4.med.sweep.isSome then d4.setF R.MED_SWEEP_LEFT_BLOCKS d4.med.sweepVictims.length else d4))

/-- An erase failed on some dies (R270, R296): they are retired and the erase is tried without them. -/
def eraseFailed (k dies : Nat) (d : Dev) : Dev :=
  let m := blkModule k
  let d1 := forEach ((List.range 16).filter fun i => bitAt dies i) (retireDie k) (d.err R.E_MED_ERASE_FAIL)
  if (d1.eblock k).state = 6 then d1
  else mediaCmd m 5 0 (blkBase (d.module m) (blkEbn k)) (0xFFFF - (d1.eblock k).dieMask) [] (.erase k) d1

/-- The next programmed page of a VERIFIED own block after a place of the scrub (R294): EBN × 2^20 + page. -/
def nextScrub (d : Dev) (m pos : Nat) : Option Nat :=
  let all := d.med.blocks.flatMap fun e =>
    if blkModule e.1 == m && e.2.state == 3 && ownPool d (d.module m) (blkEbn e.1) then e.2.written.map fun p => blkEbn e.1 * 2 ^ 20 + p
    else []
  let least := fun (l : List Nat) => l.foldl (fun b x => match b with
    | none => some x
    | some y => some (Nat.min x y)) (none : Option Nat)
  match least (all.filter fun p => decide (p ≥ pos)) with
  | some p => some p
  | none => least all

/-- SCRUB_TICK (R294): the next programmed page of a module's VERIFIED blocks is read. -/
def scrubTick (m : Nat) (d : Dev) : Dev :=
  if !d.modOn m || decide (d.med.pla.phase ≠ 0) then d
  else match nextScrub d m (d.module m).scrub with
    | none => d
    | some p =>
      let k := blkKey m (p / 2 ^ 20)
      readCrumbs m (blkBase (d.module m) (p / 2 ^ 20) + p % 2 ^ 20 * 64) 64 (.scrub k (p % 2 ^ 20))
        ((d.modModule m fun x => { x with scrub := p + 1 }).stat R.MED_SCRUB_PAGES 1)

/-- SCRUB_ALL (R294): a full pass starts at once, from the first page of each module. -/
def scrubAll (d : Dev) : Dev := forEach (onModules d) (fun m d => d.modModule m fun x => { x with scrub := 0 }) d

/-- Scrub reads that have been answered (R294): near the limit, the block is queued for refresh; uncorrectable, the copies in the page are
lost. -/
def scrubResults (d : Dev) : Dev :=
  forEach d.med.results (fun r d =>
    match r.work with
    | .scrub k p =>
      let done := fun (d : Dev) => ({ d with med := { d.med with results := d.med.results.filter (· != r) } } : Dev)
      let queue := fun (d : Dev) => if d.med.refresh.contains k then d
        else ({ d with med := { d.med with refresh := d.med.refresh ++ [k] } } : Dev)
      if r.status = 2 then done (queue d)
      else if r.status = 3 ∨ r.status = 4 then
        if (d.eblock k).stream = sM then
          done (forEach ((d.eblock k).units.filter fun u => u.1 / 4 == p) (fun u d => rewriteUse u.2 d) d)
        else match loadSummary k d with
          | (none, d1) => d1
          | (some es, d1) =>
            let m := blkModule k
            let base := blkBase (d.module m) (blkEbn k)
            done (forEach (es.filter fun e => (copyPages e.off e.len).any fun q => q.2.2 == p) (fun e d =>
              match entryRecord k e d with
              | (some (some _), d2) => noteLost e.handle e.dom (mkWordA (base + e.off) m e.len 0) 1 d2
              | (_, d2) => d2) d1)
      else done d
    | _ => d) d

/-- A journal record whose page is lost goes into a journal page again (R300). -/
def unpage (r : RingRec) : RingRec := { r with paged := false, programmed := 0 }

/-- Blocks of a failed module (R300): every live copy is handled as lost, every page of stream M gets another second copy. -/
def pumpFailWalk (d : Dev) : Dev :=
  forEach d.med.failWalk (fun k d =>
    let done := fun (d : Dev) => ({ d with med := { d.med with failWalk := d.med.failWalk.filter (· != k) } } : Dev)
    let b := d.eblock k
    if b.stream = sM then done (forEach b.units (fun u d => match u.2 with
      | .journal a z =>
        let again := d.write.ring.map fun e => if !jsnLt e.1 a && !jsnLt z e.1 then (e.1, unpage e.2) else e
        { d with write := { d.write with ring := again } }
      | w => rewriteUse w d) d)
    else match loadSummary k d with
      | (none, d1) => d1
      | (some es, d1) =>
        let m := blkModule k
        let base := blkBase (d.module m) (blkEbn k)
        let r := es.foldl (fun (s : Bool × Dev) e =>
          match entryRecord k e s.2 with
          | (none, d2) => (false, d2)
          | (some none, d2) => (s.1, d2)
          | (some (some _), d2) => (s.1, noteLost e.handle e.dom (mkWordA (base + e.off) m e.len 0) 1 d2)) (true, d1)
        if r.1 then done r.2 else r.2) d

/-- LOSS_WALK (R300): the walk starts at the roots of every namespace this head serves. -/
def startLossWalk (d : Dev) : Dev :=
  let nss := (d.nvm.namespaces.map (·.2)).filter fun n => d.serves n.inst
  let keys := nss.map fun n => mkKey n.nsg (logicalRoot n.chunks) 0
  ({ d with med := { d.med with lossWalk := keys } } : Dev).setB R.MED_LOSS_WALK_ACTIVE (!keys.isEmpty)

/-- Children of a directory page that were ever written. -/
def childKeys (d : Dev) (k : Nat) (p : PageData) : List Nat :=
  ((List.range 128).map fun i => (i, mkKey (keyTree k) (keyLevel k - 1) (keyPage k * 128 + i))).filterMap fun e =>
    if ptrAt p e.1 != ptrNull || (d.line e.2).isSome || (slotOfKey d e.2).isSome then some e.2 else none

/-- One leaf of the loss walk: a loss record for each chunk whose content is lost; whether every record could be looked up. -/
def lossLeaf (k : Nat) (p : PageData) (d : Dev) : Bool × Dev :=
  let nsg := keyTree k
  let dom := match d.ns nsg with
    | some n => d.getF (R.INS_I_DOMAIN_DOMAIN n.inst)
    | none => 0
  (p.filter fun e => isHandle e.2).foldl (fun (s : Bool × Dev) e =>
    match lookupRecord .media 1 dom e.2 s.2 with
    | (.wait, d1) => (false, d1)
    | (.unavailable, d1) => (s.1, addLoss nsg (keyPage k * 512 + e.1) 15 4 0xFF 0 (2 ^ 64 - 1) e.2 d1)
    | (.val w, d1) =>
      let pair := bitAt (recFlags w.2) 1
      let gone := recCrumb w.1 == lostMark
      if gone && !pair then (s.1, addLoss nsg (keyPage k * 512 + e.1) 15 1 (recModule w.1) 0 (2 ^ 64 - 1) e.2 d1)
      else if gone then
        match lookupRecord .media 1 dom (e.2 + 1) d1 with
        | (.val c, d2) => (s.1, if recCrumb c.1 = lostMark then
            addLoss nsg (keyPage k * 512 + e.1) 15 1 (recModule w.1) 1 (2 ^ 64 - 1) e.2 d2 else d2)
        | (.wait, d2) => (false, d2)
        | (_, d2) => (s.1, d2)
      else (s.1, d1)) (true, d)

/-- The loss walk goes on until it has to wait for a page, or is over (R300). -/
def pumpLossWalk (fuel : Nat) (d : Dev) : Dev :=
  match fuel, d.med.lossWalk with
  | 0, _ => d
  | _, [] => d
  | n + 1, k :: rest =>
    if !d.med.failWalk.isEmpty || !d.med.lost.isEmpty then d else
    let set := fun (l : List Nat) (d : Dev) => ({ d with med := { d.med with lossWalk := l } } : Dev)
    let step := fun (l : List Nat) (d : Dev) =>
      let d1 := set l d
      if l.isEmpty then d1.setB R.MED_LOSS_WALK_ACTIVE false else pumpLossWalk n d1
    match ensurePage mapFuel .media k (d.setF R.MED_LOSS_WALK_NSG (keyTree k)) with
    | (.wait, d1) => d1
    | (.unavailable, d1) => step rest d1
    | (.ready, d1) =>
      let p := match d1.line k with
        | some l => l.data
        | none => []
      if keyLevel k = 0 then
        match lossLeaf k p d1 with
        | (true, d2) => step rest d2
        | (false, d2) => d2
      else step (childKeys d1 k p ++ rest) d1

/-- Declare a module failed (R300): causes 1 unavailable, 2 self-reported, 3 host. -/
def failModule (m cause : Nat) (d : Dev) : Dev :=
  if d.getB (R.MED_M_STATE_FAILED m) then d
  else
    let d0 := d.setF ⟨R.MED_LINK_PEER, m, 1⟩ 0
    let d1 := ((d0.setB (R.MED_M_STATE_FAILED m) true).setB (R.MED_M_STATE_IN_SERVICE m) false).postAt 0x1208 (sa 0x12 m 0 0)
      [m, cause]
    let ks := (d1.med.blocks.filter fun e => blkModule e.1 == m && decide (1 ≤ e.2.state ∧ e.2.state ≤ 5) &&
      ownPool d1 (d1.module m) (blkEbn e.1)).map (·.1)
    let d2 : Dev := { d1 with med := { d1.med with failWalk := d1.med.failWalk ++ ks } }
    startLossWalk (forEach ks (fun k d => journalBlock k (d.modBlock k fun b => { b with state := 6 })) d2)

/-- MODULE_FAIL (R300): the host declares it. -/
def moduleFail (m : Nat) (d : Dev) : Dev := failModule m 3 d

/-- MODULE_FAIL_TIMEOUT (R300): unavailable on both ports for MODULE_FAIL_S. -/
def moduleFailTimeout (m : Nat) (d : Dev) : Dev :=
  match (d.module m).unavail with
  | some t => if d.now ≥ t + d.getF R.MED_POLICY_MODULE_FAIL_S * 1000000000 ∧ !d.linkUp m then failModule m 1 d else d
  | none => d

/-- TALLY_TIMER (R293): an entry 1 ms after its first read goes to the owner. -/
def tallyTimer (m ebn : Nat) (d : Dev) : Dev :=
  match d.med.tallies.find? fun e => e.1 == m && e.2.1 == ebn with
  | none => d
  | some e =>
    let d1 : Dev := { d with med := { d.med with tallies := d.med.tallies.filter (· != e) } }
    if d.peerUp then sendPeer 0x26 0 [ebn + m * 2 ^ 24, e.2.2] [] d1 else d1

/-- M_PAGE_TIMER (R279): a page of stream M 1 ms after its first unit. -/
def mPageTimer (m : Nat) (d : Dev) : Dev :=
  match (d.module m).mPage with
  | some p => if p.units.isEmpty then d else programM m d
  | none => d

/-- What the Media steward can do goes on: copies, merges, repairs, RELOCATEs, walks. -/
def pumpMedia (d : Dev) : Dev :=
  let d1 := forEach d.med.moves (fun x d => moveRead x d) (relocated d)
  pumpLossWalk 1000 (pumpFailWalk (scrubResults (issueRelocates (repairLost (pumpMerges d1)))))

end Sys2Proof.Machine
end

