-- ==== Sys2Proof/Machine/SweepOps.lean ====
section
/-! DEFINITION. Deallocation in batches, the Secure Deallocate sweep, and the power-loss area (R156, R301 to R303, R308 to R311,
R396, R398, R412). -/

namespace Sys2Proof.Machine

/-- Ranges a deallocation works through: of a command, those that have landed; of a namespace being deleted, all of it. -/
def jobRanges (d : Dev) (c : NCmd) : List (Nat × Nat) :=
  match c.h.origin with
  | .internal _ => match d.ns c.h.nsg with
    | some n => [(0, 4 * n.chunks)]
    | none => []
  | _ => parseRanges c.data

/-- The next batch of whole chunks of a deallocation (R396): range, first chunk, chunks; 64 at most, within one range. -/
def nextBatch (rs : List (Nat × Nat)) (range chunk : Nat) : Option (Nat × Nat × Nat) :=
  ((List.range rs.length).zip rs).foldl (fun (s : Option (Nat × Nat × Nat)) e =>
    match s with
    | some x => some x
    | none =>
      if e.1 < range then none
      else
        let lo := (e.2.1 + 3) / 4
        let hi := (e.2.1 + e.2.2) / 4
        let from' := if e.1 = range then Nat.max lo chunk else lo
        if from' < hi then some (e.1, from', Nat.min 64 (hi - from')) else none) none

/-- A deallocation issues its next batch as a write of zero chunks (R301, R396). -/
def issueBatch (c : NCmd) (n : Ns) (b : Nat × Nat × Nat) (d : Dev) : Dev :=
  let r := newId d
  let e : Sqe := { c.h.sqe with opc := 8, cdw2 := 0, cdw3 := 0, cdw10 := 4 * b.2.1 % 2 ^ 32, cdw11 := 4 * b.2.1 / 2 ^ 32,
                                cdw12 := 4 * b.2.2 - 1, dptr := 0 }
  let h : CHead := { c.h with id := r.1, origin := .internal c.h.id, sqe := e, cap := [], admin := false, start := d.now }
  let d1 := r.2.modN c.h.id fun x => { x with wait := [r.1], range := b.1, chunk := b.2.1 + b.2.2 }
  addWrite (wCmdNew d1 h n (4 * b.2.1) (4 * b.2.2) true) true d1

/-- The deallocation of a sweep may run (R302, R303): its command is among those of the sweep in phase 1. -/
def sweepTurn (d : Dev) (id : Nat) : Bool :=
  match d.med.sweep with
  | some s => s.phase == 1 && s.cmds.contains id
  | none => false

/-- Show the sweep (R312). -/
def syncSweep (d : Dev) : Dev :=
  match d.med.sweep with
  | none => (((d.setB R.MED_SWEEP_ACTIVE false).setF R.MED_SWEEP_PHASE 0).setF R.MED_SWEEP_DOMAIN 0).setB R.MED_SWEEP_PEER_DONE false
  | some s => (((d.setB R.MED_SWEEP_ACTIVE true).setF R.MED_SWEEP_PHASE (Nat.min s.phase 5)).setF R.MED_SWEEP_DOMAIN s.domain).setB
      R.MED_SWEEP_PEER_DONE s.peerDone

/-- A sweep starts, or joins one that waits for the same domain, or waits its turn (R303). -/
def requestSweep (dom : Nat) (forPeer : Bool) (cmds : List Nat) (d : Dev) : Dev :=
  let s : Sweep := ⟨dom, if forPeer then 2 else 1, forPeer, cmds, d.nvm.nextCmd, [], false⟩
  match d.med.sweep with
  | none => syncSweep { d with med := { d.med with sweep := some s } }
  | some _ =>
    if d.med.sweepQ.any fun q => q.domain == dom && q.forPeer == forPeer then
      let q' := mapWhere (fun q => q.domain == dom && q.forPeer == forPeer) (fun (q : Sweep) => { q with cmds := q.cmds ++ cmds }) d.med.sweepQ
      { d with med := { d.med with sweepQ := q' } }
    else { d with med := { d.med with sweepQ := d.med.sweepQ ++ [s] } }

/-- Every sweep that knows a command. -/
def sweepKnows (d : Dev) (id : Nat) : Bool :=
  (match d.med.sweep with
    | some s => s.cmds.contains id
    | none => false) || d.med.sweepQ.any fun q => q.cmds.contains id

/-- One deallocation goes on: its next batch, or its end (R396, R398, R412). That of a namespace waits for its snapshots (R448). -/
def pumpJob (c : NCmd) (d : Dev) : Dev :=
  if c.prog != 2 || c.aux == 1 || !c.landed || !c.wait.isEmpty then d
  else match d.ns c.h.nsg with
    | none => finishN c.h.id stInternal 0 d
    | some n =>
      let secure := c.h.sqe.opc == 0x85
      if secure && !sweepKnows d c.h.id then
        requestSweep (d.getF (R.INS_I_DOMAIN_DOMAIN c.h.inst)) false [c.h.id] d
      else if secure && !sweepTurn d c.h.id then d
      else if c.h.origin == .internal 0 && (!n.snaps.isEmpty || d.inChange n.inst) then d
      else match nextBatch (jobRanges d c) c.range c.chunk with
        | some b => issueBatch c n b d
        | none =>
          match c.h.origin with
          | .internal _ => d.modN c.h.id fun x => { x with prog := 4 }
          | _ =>
            if secure then d.modN c.h.id fun x => { x with prog := 3 }
            else finishN c.h.id c.status 0 d

/-- Every deallocation goes on. -/
def pumpJobs (d : Dev) : Dev :=
  forEach (d.nvm.cmds.map (·.h.id)) (fun id d => match d.nCmd id with
    | some c => pumpJob c d
    | none => d) d

/-- What the quiesce of a sweep waits for (R302): holds, reservations and leases of the domain taken before P. -/
def sweepBusy (d : Dev) (s : Sweep) : Bool :=
  let old := fun (id : Nat) => d.write.cmds.any fun c => c.h.id == id && c.dom == s.domain && decide (id < s.mark)
  d.pan.holds.any (fun x => old x.cmd) || d.pan.resv.any (fun r => r.dom == s.domain && decide (r.cmd < s.mark)) ||
    d.map.leases.any (fun l => !l.given && old l.cmd) ||
    s.waits.any fun h => d.map.leases.any (fun l => l.given && l.handle == h) || d.pan.holds.any fun x => x.handle == h && x.cmd == 2 ^ 64

/-- Own blocks, and after a take-over those of the failed head (R302, R509), that may hold content of a domain. -/
def domainBlocks (d : Dev) (dom : Nat) : List Nat :=
  (d.med.blocks.filter fun e => decide (1 ≤ e.2.state ∧ e.2.state ≤ 5) && e.2.stream != sM && bitAt e.2.domains (dom % 64) &&
    (d.per.adopted || ownPool d (d.module (blkModule e.1)) (blkEbn e.1))).map (·.1)

/-- Dead records of a domain that summaries name (R302 phase 3); none while a page or a summary is not there. -/
def sweepDead (dom : Nat) (d : Dev) : Option (List Nat) × Dev :=
  (domainBlocks d dom).foldl (fun (s : Option (List Nat) × Dev) k =>
    match loadSummary k s.2 with
    | (none, d1) => (none, d1)
    | (some es, d1) => (es.filter fun e => e.dom == dom).foldl (fun (t : Option (List Nat) × Dev) e =>
      match entryRecord k e t.2 with
      | (none, d2) => (none, d2)
      | (some none, d2) => (t.1, d2)
      | (some (some w), d2) =>
        if bitAt (recFlags w.2) 2 || recRefs w.2 != 0 then (t.1, d2) else (t.1.map (· ++ [e.handle]), d2)) (s.1, d1)) (some [], d)

/-- An entry of a domain in a block is not live (R302 phase 4); none while its page is not there. -/
def hasDead (k dom : Nat) (d : Dev) : Option Bool × Dev :=
  match loadSummary k d with
  | (none, d1) => (none, d1)
  | (some es, d1) => (es.filter fun e => e.dom == dom).foldl (fun (s : Option Bool × Dev) e =>
    match entryRecord k e s.2 with
    | (none, d2) => (none, d2)
    | (some none, d2) => (s.1.map fun _ => true, d2)
    | (some (some _), d2) => (s.1, d2)) (some false, d1)

/-- Close the open staging pages of a block, so that it can seal (R302 phase 4). -/
def closeStaging (k : Nat) (d : Dev) : Dev :=
  let ps := (d.write.pages.filter fun e => e.2.state == 1 && d.blkOf e.2.module e.2.flash == k).map (·.1)
  let d1 := forEach ps (fun p d => programStage p (closeStage p d)) d
  let m := blkModule k
  forEach (((d1.module m).gPages.filter fun e => d1.blkOf m (e.1 * 64) == k).map (·.1)) (fun p d => programGc m p true d) d1

/-- An SLC erase block is released (R307): every record in it is on flash in stream M, and every staging page it images is programmed. -/
def slcReleased (d : Dev) (e : Nat × Nat) : Bool :=
  d.write.ring.all (fun r => jsnLt e.2 r.1 || decide (r.2.programmed ≥ 2)) &&
    d.write.pages.all fun p => p.2.state == 0 || p.2.state == 4 || jsnLt e.2 p.2.openJsn

/-- Phase 4 of a sweep (R302): open blocks seal, blocks with dead entries become victims; whether nothing is left. -/
def sweepCollect (dom : Nat) (d : Dev) : Bool × Dev :=
  (domainBlocks d dom).foldl (fun (s : Bool × Dev) k =>
    match (s.2.eblock k).state with
    | 1 => match hasDead k dom s.2 with
      | (some false, d1) => (s.1, d1)
      | (_, d1) => (false, blockSeal (blkModule k) (blkEbn k) (sealBlock k (closeStaging k d1)))
    | 2 => match hasDead k dom s.2 with
      | (some false, d1) => (s.1, d1)
      | (_, d1) => (false, d1)
    | 3 => match hasDead k dom s.2 with
      | (none, d1) => (false, d1)
      | (some false, d1) => (s.1, d1)
      | (some true, d1) =>
        (false, makeVictim k { d1 with med := { d1.med with sweepVictims := d1.med.sweepVictims ++ [k] } })
    | _ => (false, s.2)) (true, d)

/-- Change the running sweep. -/
def modSweep (f : Sweep → Sweep) (d : Dev) : Dev :=
  syncSweep { d with med := { d.med with sweep := d.med.sweep.map f } }

/-- The next sweep in arrival order starts (R303). -/
def nextSweep (d : Dev) : Dev :=
  match d.med.sweepQ with
  | [] => syncSweep { d with med := { d.med with sweep := none } }
  | s :: r => syncSweep { d with med := { d.med with
      sweep := some { s with mark := d.nvm.nextCmd }, sweepQ := r } }

/-- The sweep's own part is over (R302): the peer is told, or, with the peer's part over too, the commands complete with C. -/
def endSweep (s : Sweep) (d : Dev) : Dev :=
  if s.forPeer then nextSweep (sendPeer 0x28 0 [s.domain] [] (d.stat R.MED_SWEEPS 1))
  else if !s.peerDone && d.peerUp then modSweep (fun x => { x with phase := 6 }) d
  else nextSweep (forEach s.cmds (fun id d => match d.nCmd id with
    | some c => finishN id c.status c.kept.length (d.stat R.CMQ_SDEALLOC 1)
    | none => d) (d.stat R.MED_SWEEPS 1))

/-- SWEEP_PHASE_END (R302, R303): a phase whose work is done ends and the next begins. -/
def sweepPhaseEnd (d : Dev) : Dev :=
  match d.med.sweep with
  | none => d
  | some s =>
    match s.phase with
    | 1 =>
      if s.cmds.any fun id => match d.nCmd id with
        | some c => c.prog != 3
        | none => false
      then d
      else
        let peers := (d.map.leases.filter (·.given)).map (·.handle) ++ (d.pan.holds.filter fun x => x.cmd == 2 ^ 64).map (·.handle)
        let d1 := modSweep (fun x => { x with phase := 2, mark := d.nvm.nextCmd, waits := peers }) d
        if d.peerUp then sendPeer 0x27 0 [s.domain, d.nextJsn] [] d1 else d1
    | 2 => if sweepBusy d s then d else modSweep (fun x => { x with phase := 3 }) d
    | 3 =>
      match sweepDead s.domain d with
      | (none, d1) => d1
      | (some hs, d1) =>
        if hs.isEmpty then
          modSweep (fun x => { x with phase := 4 }) (forEach (d1.med.slcUsed.filter (slcReleased d1)) (fun e d => eraseSlc e.1 d) d1)
        else forEach hs (fun h d => reclaim h (queueDead h d)) d1
    | 4 =>
      match sweepCollect s.domain d with
      | (false, d1) => d1.setF R.MED_SWEEP_LEFT_BLOCKS d1.med.sweepVictims.length
      | (true, d1) => (modSweep (fun x => { x with phase := 5 }) d1).setF R.MED_SWEEP_LEFT_BLOCKS 0
    | 5 =>
      let free := d.per.mirror.filter fun e => fieldAt e.2.desc 4 1 != 0
      endSweep s { d with per := { d.per with mirror := free } }
    | _ => endSweep s d

/-- Show the modules and the capacity of this head's power-loss area (R308, R311): L is capped where B exceeds the capacity, with an event when
that begins. -/
def syncPla (d : Dev) : Dev :=
  let mods := plaModules d
  let bytes := mods.map fun m => slcBlocks (d.module m) * slcBlkPages (d.module m) * 16384
  let cap := (bytes.foldl Nat.min (bytes.headD 0)) / 2 ^ 20
  let d1 := ((d.setIf R.MED_PLA_MOD_A (mods.getD 0 0)).setIf R.MED_PLA_MOD_B (mods.getD 1 0)).setIf R.MED_PLA_CAP_MIB cap
  let d1 := forEach (List.range moduleCount) (fun m d => d.setIf (R.MED_M_STATE_PLA_HOLDER m) (b2n (mods.contains m))) d1
  let b := budgetB d1 / 2 ^ 20
  let tooBig := !mods.isEmpty && decide (b > cap)
  if tooBig == d1.getB R.MED_PLA_CAPPED then d1
  else if tooBig then (d1.setB R.MED_PLA_CAPPED true).post 0x1207 [b, cap]
  else d1.setB R.MED_PLA_CAPPED false

/-- Sections of the power-loss area (R308, R309). -/
structure PlaParts where
  own : List (Nat × StagePage)
  peer : List (Nat × MirrorPage)
  ownRecs : List Bytes
  peerRecs : List Bytes
  maps : List (Nat × Nat × Bytes)

/-- What the power-loss area holds (R308). -/
def plaParts (d : Dev) : PlaParts :=
  let lines := (d.map.lines.filter fun e => e.2.dirty).map fun e => (e.2.key, e.2.firstJsn, pageBytes e.2.data)
  let slots := (d.map.evb.filter fun e => decide (e.2.programmed < 2)).map fun e => (e.2.key, e.2.firstJsn, pageBytes e.2.data)
  { own := d.write.pages.filter fun e => decide (1 ≤ e.2.state ∧ e.2.state ≤ 3)
    peer := d.per.mirror.filter fun e => fieldAt e.2.desc 4 1 != 0
    ownRecs := (jsnOrder (·.1) (d.write.ring.filter fun e => decide (e.2.programmed < 2))).map (·.2.bytes)
    peerRecs := jsnOrder (fun b => fieldAt b 4 4) (d.per.journal.map (·.2))
    maps := ((lines ++ slots.filter fun s => !lines.any fun l => l.1 == s.1).foldl (fun t e => tabPut t e.1 e.2) []) }

/-- Cut bytes into 4 KiB units, the last padded with zeros. -/
def units4k (b : Bytes) : List Bytes := (List.range ((b.length + 4095) / 4096)).map fun i => slice b (4096 * i) 4096

/-- The units of the power-loss area without header and trailer, with the header's fields from OWN_PAGES on and the trailer's unit
(R309). -/
def plaBody (d : Dev) : List Nat × List Bytes :=
  let p := plaParts d
  let desc := units4k ((p.own.flatMap fun e => descBytes e.1 { e.2 with state := if e.2.state = 3 then 2 else e.2.state }) ++
    p.peer.flatMap fun e => e.2.desc)
  let recs := units4k (p.ownRecs.flatten ++ p.peerRecs.flatten)
  let keys := units4k (p.maps.flatMap fun e => leBytes 8 e.1 ++ leBytes 4 e.2.1 ++ leBytes 4 (crcNat e.2.2))
  let maps := p.maps.map fun e => e.2.2
  let descU := 1
  let recU := descU + desc.length
  let keyU := recU + recs.length
  let mapU := keyU + keys.length
  let mapEnd := mapU + maps.length
  let stageU := (mapEnd + 3) / 4 * 4
  let stages := units4k ((p.own.flatMap fun e => stageBytes e.2) ++ p.peer.flatMap fun e => tabCrumbs e.2.crumbs 0 64)
  let trailU := stageU + stages.length
  ([p.own.length, p.peer.length, p.ownRecs.length, p.peerRecs.length, p.maps.length, descU, recU, keyU, mapU, stageU, trailU],
    desc ++ recs ++ keys ++ maps ++ List.replicate (stageU - mapEnd) (zeros 4096) ++ stages)

/-- The area header (R309). -/
def plaHeader (d : Dev) (copy : Nat) (fields : List Nat) : Bytes :=
  let b := leBytes 4 0x52414C50 ++ leBytes 1 1 ++ leBytes 1 d.headNum ++ leBytes 1 copy ++ zeros 1 ++ leBytes 4 d.med.pla.seq ++
    leBytes 4 (fields.getD 10 0 + 1) ++ leBytes 8 d.med.pla.time ++ (fields.flatMap (leBytes 4)) ++
    leBytes 4 (d.getF R.MAP_ANCHOR_SEQ)
  let full := slice b 0 4092
  full ++ leBytes 4 (crcNat full)

/-- The area trailer (R309). -/
def plaTrailer (d : Dev) (copy : Nat) (fields : List Nat) : Bytes :=
  let full := slice (leBytes 4 0x54414C50 ++ leBytes 4 1 ++ leBytes 4 d.med.pla.seq ++ leBytes 4 (fields.getD 10 0 + 1) ++
    leBytes 4 (fieldAt (plaHeader d copy fields) 4092 4)) 0 4092
  full ++ leBytes 4 (crcNat full)

/-- Program one flash page of an area copy, in SLC mode (R308, R309). -/
def plaProgram (m : Nat) (page : Nat) (b : Bytes) (work : MedWork) (d : Dev) : Dev :=
  let x := d.module m
  let per := Nat.max 1 (slcBlkPages x)
  noteSlc (slcKey d m 2 (page / per)) d.durableJsn
    (mediaCmd m 3 1 (slcCrumb d x 2 (page / per) (page % per)) 0 (slice b 0 16384) work d)

/-- PLA_SETTLE_END (R308): Settle ends once the programs already issued have; the sections go to both modules. The trailer's page is kept
with the area until its turn. -/
def plaSettleEnd (d : Dev) : Dev :=
  let busy := d.links.any fun l => l.2.tags.any fun c => c.opcode == 3 || c.opcode == 4
  if d.med.pla.phase ≠ 1 || busy then d
  else
    let p := plaBody d
    let mods := d.med.pla.mods
    let d1 := forEach ((List.range mods.length).zip mods) (fun e d =>
      let us := plaHeader d e.1 p.1 :: p.2
      let pages := (List.range ((us.length + 3) / 4)).map fun i => ((us.drop (4 * i)).take 4).flatten
      forEach ((List.range pages.length).zip pages) (fun q d => plaProgram e.2 q.1 q.2 (.plaSection e.1) d)
        { d with med := { d.med with pla := { d.med.pla with left := tabPut d.med.pla.left e.1 pages.length } } }) d
    let tr := (List.range mods.length).map fun i => plaTrailer d i p.1
    { d1 with med := { d1.med with pla := { d1.med.pla with phase := 2, units := tr, trailPage := p.1.getD 10 0 / 4 } } }

/-- PLA_SECTIONS_WRITTEN (R308): a module's last section is programmed; its trailer follows. -/
def plaSectionsWritten (copy : Nat) (d : Dev) : Dev :=
  let p := d.med.pla
  match p.mods[copy]?, p.units[copy]? with
  | some m, some b =>
    if p.phase ≠ 2 || tabGet 1 p.left copy != 0 || p.trailers.contains copy || b.isEmpty then d
    else
      plaProgram m p.trailPage b (.plaTrailer copy) { d with med := { d.med with pla := { p with units := p.units.set copy [] } } }
  | _, _ => d

/-- PLA_FLUSHED (R308, R547): both trailers are programmed; the head waits for the power to fall. -/
def plaFlushed (d : Dev) : Dev :=
  let p := d.med.pla
  if p.phase ≠ 2 || !((List.range p.mods.length).all p.trailers.contains) then d
  else setHeadState stHalted (((({ d with med := { d.med with pla := { p with phase := 3 } } } : Dev).setB R.MED_PLA_FLUSHED true).stat
    R.MED_PLA_FLUSHES 1))

end Sys2Proof.Machine
end

