-- ==== Sys2Proof/Machine/MapJobs.lean ====
section
/-! DEFINITION. The Map and cache steward's background work (08_map_and_cache): page-ins that end, write-back and re-points, invalidate-all,
damage in the cache, record requests of the peer. -/

namespace Sys2Proof.Machine

/-- The command number of holds that stand for the peer's (R242). -/
def peerCmd : Nat := 2 ^ 64

/-- The 16 bytes of a content record. -/
def recPair (w : Nat × Nat) : Bytes := leBytes 8 w.1 ++ leBytes 8 w.2

/-- Answer a record request of the peer (R242): the record in its mode, a lease, a hold. -/
def answerRec (tag h mode dom : Nat) (d : Dev) : Dev :=
  match lookupRecord (.peer tag h mode dom) (bitAt mode 0).toNat dom h d with
  | (.wait, d1) => d1
  | (.unavailable, d1) => sendPeer 0x19 tag [h, 1] [] d1
  | (.val w, d1) =>
    let busy := d1.map.leases.any (fun l => l.handle == h && l.given) || placeBlocked d1 d1.nextJsn [h]
    if bitAt mode 1 && busy then sendPeer 0x19 tag [h, 2] [] d1
    else
      let d2 : Dev := if bitAt mode 1 then { d1 with map := { d1.map with leases := d1.map.leases ++ [⟨h, true, 0, 0⟩] } } else d1
      let d3 : Dev := if bitAt mode 2 then syncPan { d2 with pan := { d2.pan with holds := d2.pan.holds ++ [⟨h, peerCmd, 0⟩] } }
        else d2
      let comp := if bitAt (recFlags w.2) 1 then
          match (lookupRecord .index (bitAt mode 0).toNat dom (h + 1) d3).1 with
          | .val c => recPair c
          | _ => recPair (0, 0)
        else []
      sendPeer 0x19 tag [h, 0] (recPair w ++ comp) d3

/-- The pointer to a slot's page once both copies are programmed (R236, R245). -/
def slotPtr (s : EvSlot) : PagePtr := ⟨s.locA, s.locB, crcNat (pageBytes s.data), s.epoch, keyLevel s.key, false⟩

/-- Both locations of a pointer are superseded. -/
def supersedePtr (p : PagePtr) (d : Dev) : Dev := supersede p.b (supersede p.a d)

/-- A snapshot holds the version that a pointer names, replaced by one with epoch `v` (R447). -/
def versionHeld (d : Dev) (k : Nat) (p : PagePtr) (v : Nat) : Bool :=
  match d.ns (keyTree k) with
  | none => false
  | some n => isLogical (keyTree k) && decide (keyLevel k < 6) &&
      n.snaps.any fun s => decide (p.epoch ≤ s.epoch ∧ s.epoch < v) && snapHolds d n.nsg k s

/-- The live tree no longer names a version (R245, R447): it is superseded unless a snapshot holds it; one that a frozen version is to
replace goes with the later of the two. -/
def releaseLive (k : Nat) (p : PagePtr) (v : Nat) (d : Dev) : Dev :=
  if p = ptrNull then d
  else if d.map.replaced.contains p.a then
    supersedePtr p { d with map := { d.map with replaced := d.map.replaced.filter (· != p.a) } }
  else if d.map.evb.any fun e => e.2.key == k && e.2.snap.isSome then
    { d with map := { d.map with replaced := d.map.replaced ++ [p.a] } }
  else if versionHeld d k p v then d
  else supersedePtr p d

/-- A frozen version has replaced another one in its snapshot's tree. -/
def releaseFrozen (k : Nat) (p : PagePtr) (v : Nat) (d : Dev) : Dev :=
  if p = ptrNull then d
  else if d.map.replaced.contains p.a then
    let d1 : Dev := { d with map := { d.map with replaced := d.map.replaced.filter (· != p.a) } }
    if versionHeld d1 k p v then d1 else supersedePtr p d1
  else if versionHeld d k p v then d
  else { d with map := { d.map with replaced := d.map.replaced ++ [p.a] } }

/-- Place every slot whose order now lets it, and those that waited for two modules (R245, R445). -/
def pumpSlots (d : Dev) : Dev :=
  forEach ((d.map.evb.filter fun e => !e.2.placed).map (·.1)) placeReady d

/-- A write-back is re-pointed (R245 step 4): the slot is released. -/
def finishSlot (i : Nat) (s : EvSlot) (d : Dev) : Dev :=
  let d1 : Dev := { d with map := { d.map with evb := tabDel d.map.evb i } }
  let clean := match d1.line s.key with
    | some l => !l.dirty
    | none => true
  let d2 : Dev := if clean && s.snap.isNone then { d1 with map := { d1.map with peerFirst := tabDel d1.map.peerFirst s.key } } else d1
  syncMap (pumpSlots (d2.stat R.MAP_WRITEBACKS 1))

/-- Frozen versions that still name a page's previous location follow a shared live version to its new one (R445). -/
def followShared (pk idx : Nat) (old new : PagePtr) (d : Dev) : Dev :=
  if old = ptrNull then d
  else { d with map := { d.map with evb := d.map.evb.map fun e =>
    if e.2.key == pk && e.2.snap.isSome && !e.2.placed && (ptrAt e.2.data idx).a == old.a then
      (e.1, { e.2 with data := setPtr e.2.data idx new }) else e } }

/-- Roots of snapshots that still name the live root's previous location follow it (R445). -/
def followRoots (nsg : Nat) (old new : PagePtr) (d : Dev) : Dev :=
  if old = ptrNull then d
  else d.modNs nsg fun n => { n with snaps := n.snaps.map fun s => if s.root.a == old.a && s.state == 1 then { s with root := new } else s }

/-- A page is the root of a logical map's tree. -/
def isMapRoot (d : Dev) (k : Nat) : Bool := isLogical (keyTree k) && keyLevel k == rootLevel d (keyTree k)

/-- Re-point a frozen version (R445): the snapshot's frozen parent, made by freezing the live one where it does not exist yet, or the
snapshot's ROOT. -/
def repointFrozen (i : Nat) (s : EvSlot) (e : Nat) (d : Dev) : Dev :=
  let new := slotPtr s
  if isMapRoot d s.key then
    let old := match d.ns (keyTree s.key) with
      | some n => ((n.snaps.find? fun x => x.epoch == e).map (·.root)).getD ptrNull
      | none => ptrNull
    let d1 := d.modNs (keyTree s.key) fun n => { n with snaps := mapWhere (fun x => x.epoch == e) (fun x => { x with root := new }) n.snaps }
    releaseFrozen s.key old s.epoch (finishSlot i s d1)
  else match parentOf d s.key with
    | none => finishSlot i s d
    | some (pk, idx) =>
      let set := fun (d : Dev) => match d.map.evb.find? fun x => x.2.key == pk && x.2.snap == some e with
        | some (j, ps) =>
          let old := ptrAt ps.data idx
          some (releaseFrozen s.key old s.epoch (finishSlot i s { d with map := { d.map with
            evb := tabPut d.map.evb j { ps with data := setPtr ps.data idx new } } }))
        | none => none
      match set d with
      | some d1 => d1
      | none => match ensurePage mapFuel (.repoint i) pk d with
        | (.ready, d1) => match freezeLine pk d1.nextJsn d1 with
          | none => stall (.repoint i) d1
          | some d2 => (set d2).getD (finishSlot i s d2)
        | (_, d1) => d1

/-- Re-point a slot whose two copies are programmed (R245 step 3): a MAPWALK over the parent line; the pointer of a root is kept on
die. Re-points that fall due during a walk are queued (R261). -/
def repoint (i : Nat) (d : Dev) : Dev :=
  match tabFind d.map.evb i with
  | none => d
  | some s =>
    if s.programmed < 2 || s.repointing then d
    else if walking d then stall (.repoint i) d
    else match s.snap with
      | some e => repointFrozen i s e d
      | none =>
        match parentOf d s.key with
        | none =>
          let r := s.key / 2 ^ 33
          let old := tabGet ptrNull d.map.roots r
          releaseLive s.key old s.epoch (finishSlot i s { d with map := { d.map with roots := tabPut d.map.roots r (slotPtr s) } })
        | some (pk, _) =>
          match ensurePage mapFuel (.repoint i) pk d with
          | (.ready, d1) =>
            let d2 : Dev := { holdLines [pk] true d1 with map := { (holdLines [pk] true d1).map with
              evb := tabPut d1.map.evb i { s with repointing := true } } }
            issueTicket iMap 0 pMapwalk none (i % 2 ^ 18) [] 0 (mkArgs (keyPage s.key) 0 0) (.repoint i) d2
          | (_, d1) => d1

/-- A root pointer that came with its instance is no longer needed: the namespace-root tree names the root. -/
def dropArrived (k : Nat) (d : Dev) : Dev :=
  match arrivedRoot d k with
  | some _ => { d with map := { d.map with roots := d.map.roots.filter fun e => e.1 != k / 2 ^ 33 } }
  | none => d

/-- The MAPWALK of a re-point has ended (R245): the pointer changes in the parent line, which becomes dirty, and the re-point log takes
it. One that failed its compare is issued again. -/
def repointDone (i st : Nat) (d : Dev) : Dev :=
  match tabFind d.map.evb i with
  | none => d
  | some s =>
    match parentOf d s.key with
    | none => d
    | some (pk, idx) =>
      let d1 : Dev := { holdLines [pk] false d with map := { (holdLines [pk] false d).map with
        evb := tabPut d.map.evb i { s with repointing := false } } }
      if st ≠ tkOk then repoint i d1
      else match ensurePage mapFuel (.repoint i) pk d1 with
        | (.ready, d2) =>
          match d2.line pk with
          | none => stall (.repoint i) d2
          | some l =>
            let old := (arrivedRoot d2 s.key).getD (ptrAt l.data idx)
            let new := slotPtr s
            match changeLine pk d2.nextJsn (fun p => setPtr p idx new) (dropArrived s.key d2) with
            | none => stall (.repoint i) d2
            | some d3 =>
              let d4 := if isMapRoot d3 s.key then followRoots (keyTree s.key) old new d3 else followShared pk idx old new d3
              let log := d4.map.repoints ++ [(s.key, new)]
              let d5 : Dev := { d4 with map := { d4.map with repoints := log.drop (log.length - 1048576) } }
              releaseLive s.key old s.epoch (finishSlot i s d5)
        | (_, d2) => d2

/-- WRITEBACK_START (R245, R246): the oldest dirty line that no write-back holds goes to a slot. -/
def writebackStart (d : Dev) : Dev :=
  let ok := fun (e : Nat × Nat) => (slotOfKey d e.1).isNone && match d.line e.1 with
    | some l => l.dirty
    | none => false
  match d.map.fifo.find? ok with
  | none => d
  | some e => ((copyOut e.1 d).map syncMap).getD d

/-- WRITEBACK_PROGRAMMED (R245): both programs of a slot have reported success. -/
def writebackProgrammed (slot : Nat) (d : Dev) : Dev := repoint slot d

/-- Work that waited for a page or a record starts again. -/
def resume (w : Waiter) (d : Dev) : Dev :=
  match w with
  | .read rd chunk => lookupChunk rd chunk d
  | .probe cmd chunk => probeChunk cmd chunk false d
  | .gate cmd => commandGate cmd d
  | .control _ _ => moveOn d
  | .apply => applyDeferred d
  | .repoint i => repoint i d
  | .peer tag h mode dom => answerRec tag h mode dom d
  | .snap _ => pumpSplits d
  | .media => pumpMedia d
  | .index => d

/-- Stalled work starts again, each piece once. -/
def resumeStalled (d : Dev) : Dev :=
  forEach d.map.stalled resume { d with map := { d.map with stalled := [] } }

/-- A page-in is over: whoever waited for it goes on. -/
def endPageIn (p : PageIn) (d : Dev) : Dev :=
  forEach p.waiters resume (syncMap { d with map := { d.map with pageIns := d.map.pageIns.filter fun x => x.key != p.key } })

/-- A page that passed its check is installed, dirty where copy B gave it (R239); without a way it waits (R252). -/
def installPage (p : PageIn) (b : Bytes) (d : Dev) : Dev :=
  match fillPage p.key (pageOf4k b) p.copyB p.ptr.epoch d.nextJsn p.demand d with
  | none => modPageIn p.key (fun x => { x with full := true }) d
  | some d1 => endPageIn p d1

/-- A lost page takes what R240 gives its kind: a page of LOST entries or pointers, an empty one, or the LOST flag of its parent's
pointer. -/
def replaceLost (p : PageIn) (d : Dev) : Dev :=
  let wait := modPageIn p.key (fun x => { x with full := true, got := none }) d
  match lostPage p.key with
  | some data => match fillPage p.key data true p.ptr.epoch d.nextJsn p.demand d with
    | some d1 => endPageIn p d1
    | none => wait
  | none => match parentOf d p.key with
    | none =>
      let r := p.key / 2 ^ 33
      endPageIn p { d with
        map := { d.map with roots := tabPut d.map.roots r { p.ptr with lost := true } }
        pan := { d.pan with noAlloc := d.pan.noAlloc ++ [p.key] } }
    | some (pk, idx) => match ensurePage mapFuel .index pk d with
      | (.ready, d1) => match changeLine pk d1.nextJsn (fun x => setPtr x idx { p.ptr with lost := true }) d1 with
        | some d2 => endPageIn p { d2 with pan := { d2.pan with noAlloc := d2.pan.noAlloc ++ [p.key] } }
        | none => wait
      | (.unavailable, d1) => endPageIn p { d1 with pan := { d1.pan with noAlloc := d1.pan.noAlloc ++ [p.key] } }
      | (.wait, d1) => modPageIn p.key (fun x => { x with full := true, got := none }) d1

/-- PAGE_IN_DONE (R239, R240): a read of a page has been answered. Copy A that fails its check gives way to copy B; a page of which
neither passes is lost. -/
def pageInDone (key : Nat) (d : Dev) : Dev :=
  match d.map.pageIns.find? fun p => p.key == key with
  | none => d
  | some p =>
    match p.got with
    | none => if p.full then replaceLost p d else d
    | some (ok, b) =>
      if p.full then installPage p b d
      else if ok && b.length == 4096 && crcNat b == p.ptr.crc then
        installPage p b (if p.copyB then d.err R.E_MAP_ALT_COPY else d)
      else if p.copyB then
        let d1 := ((d.setF R.MAP_LAST_LOST_KEY key).err R.E_MAP_LOST).postAt 0x1001 (ownPage 0x10) [key]
        replaceLost p d1
      else readCopy key p.ptr.b (modPageIn key (fun x => { x with copyB := true, got := none }) d)

/-- Page-ins that wait for a way try again. -/
def pumpPageIns (d : Dev) : Dev :=
  forEach ((d.map.pageIns.filter fun p => p.full).map (·.key)) pageInDone d

/-- Count the time lookups were stalled by a walk (R260, R261). -/
def endWalk (d : Dev) : Dev := d.stat R.MAP_STALL_NS (d.now - d.map.walkSince)

/-- MAP_INVALIDATE (R261): the phases of an invalidate-all begin; one already running is left alone. -/
def mapInvalidate (d : Dev) : Dev :=
  if d.getF R.MAP_STATE_INV ≠ 0 then d.setB R.MAP_STATE_CMD_REJECTED true else d.setF R.MAP_STATE_INV 1

/-- INVALIDATE_PHASE_END (R261): write-back ends once at most 256 lines are dirty, slots enough are free and none of them is still being
written back; the final move copies them out; the walk drops every tag; what was queued goes on. -/
def invalidatePhaseEnd (d : Dev) : Dev :=
  match d.getF R.MAP_STATE_INV with
  | 1 =>
    let dirty := (d.map.lines.filter fun l => l.2.dirty).map fun l => l.2.key
    if dirty.length ≤ 256 ∧ dirty.length + d.map.evb.length ≤ 16384 ∧ !dirty.any (fun k => (slotOfKey d k).isSome) then
      syncMap (forEach dirty (fun k d => (copyOut k d).getD d) (d.setF R.MAP_STATE_INV 2))
    else d
  | 2 =>
    let d1 := d.setF R.MAP_STATE_INV 3
    syncMap { d1 with map := { d1.map with lines := [], walkSince := d.now } }
  | 3 => resumeStalled (applyDeferred (((endWalk d).setF R.MAP_STATE_INV 0).stat R.MAP_INVALIDATES 1))
  | _ => d

/-- RESET_WALK_END (R260): every set has been invalidated after the steward's reset. -/
def resetWalkEnd (d : Dev) : Dev :=
  if !d.getB R.MAP_STATE_RESET_WALK then d
  else
    let d1 := (endWalk d).setB R.MAP_STATE_RESET_WALK false
    resumeStalled (applyDeferred (syncMap { d1 with map := { d1.map with lines := [], plru := [] } }))

/-- A page is to be rebuilt (R263). -/
def markRebuild (k : Nat) (d : Dev) : Dev :=
  if d.map.rebuild.contains k then d else { d with map := { d.map with rebuild := d.map.rebuild ++ [k] } }

/-- TAG_PARITY_ERROR (R263): the tags of a set are invalid, and the pages its dirty entries name are rebuilt. -/
def tagParityError (set : Nat) (d : Dev) : Dev :=
  let ks := (d.map.fifo.filter fun e => setIndex e.1 == set).map (·.1)
  let d1 : Dev := { d with map := { d.map with lines := d.map.lines.filter fun l => l.1 / 16 != set } }
  syncMap (forEach ks markRebuild (d1.err R.E_MAP_TAG_PARITY))

/-- A journal record from its 64 bytes (R145, R146), where its CRC and type hold: JSN, record, TIME. -/
def parseRec (b : Bytes) : Option (Nat × JRec × Nat) :=
  let ty := fieldAt b 0 1
  let known := [1, 2, 3, 0x0F, 0x10, 0x11, 0x12, 0x13, 0x14, 0x20, 0x21, 0x22, 0x23].contains ty
  if fieldAt b 60 4 = crcNat (slice b 0 60) ∧ fieldAt b 1 1 = 1 ∧ known then
    some (fieldAt b 4 4, ⟨ty, fieldAt b 12 4, fieldAt b 16 8, fieldAt b 24 8, fieldAt b 32 8, fieldAt b 40 8⟩, fieldAt b 48 8)
  else none

/-- Records of this head's ring and, for pages it owns, of its mirror of the peer's, that name a page (R263). -/
def ringRecords (d : Dev) (k : Nat) : List (Nat × JRec × Nat) :=
  let own := (jsnOrder (·.1) d.write.ring).map fun e => (e.1, e.2.rec', fieldAt e.2.bytes 48 8)
  let peer := jsnOrder (·.1) (d.per.journal.filterMap fun e => parseRec e.2)
  ((own ++ peer).filter fun e => (recKeys e.2.1).contains k)

/-- Words of a page after a record of any kind that changes it. -/
def replayRec (d : Dev) (k : Nat) (e : Nat × JRec × Nat) (p : PageData) : PageData :=
  if 0x10 ≤ e.2.1.type ∧ e.2.1.type ≤ 0x14 then applySnap e.2.1 e.2.2 (recRoot d e.2.1) p else applyToPage k e.2.1 p

/-- Rebuild a page from the version its slot or its parent's pointer gives (R263): journal records in JSN order for a leaf, entries of the
re-point log for a directory. -/
def rebuildData (d : Dev) (k : Nat) (p : PageData) : PageData :=
  let dir := keyTree k == rootTree 0 || keyTree k == rootTree 1 || (keyLevel k != 0 && keyLevel k != 7)
  if dir then d.map.repoints.foldl (fun p e => match parentOf d e.1 with
    | some (pk, idx) => if pk == k then setPtr p idx e.2 else p
    | none => p) p
  else (ringRecords d k).foldl (fun p e => replayRec d k e p) p

/-- PAGE_REBUILD_DONE (R263): the version read is brought up to date and installed dirty with its entry's first JSN. -/
def pageRebuildDone (key : Nat) (d : Dev) : Dev :=
  if !d.map.rebuild.contains key then d
  else
    let d0 : Dev := { d with map := { d.map with rebuild := d.map.rebuild.filter (· != key) } }
    match ensurePage mapFuel .index key d0 with
    | (.ready, d1) =>
      let jsn := ((d.map.fifo.find? fun e => e.1 == key).map (·.2)).getD d.nextJsn
      let d2 := d1.modLine key fun l => { l with data := rebuildData d1 key l.data }
      let d3 : Dev := { d2 with map := { d2.map with fifo := d2.map.fifo.filter fun e => e.1 != key } }
      resumeStalled (dirtyLine key jsn d3)
    | (.wait, d1) => markRebuild key d1
    | (.unavailable, d1) => resumeStalled d1

/-- DRAM_UNCORRECTABLE (R264): a damaged line by set × 16 + way, or a damaged slot. A clean line is dropped, a dirty one rebuilt; a slot's
write-back is cancelled and its page rebuilt. What a damaged frozen version held is open (log entry 40). -/
def dramUncorrectable (slot : Bool) (index : Nat) (d : Dev) : Dev :=
  let dropLine := fun (k : Nat) (d : Dev) => match findWay d k with
    | some w => { d with map := { d.map with lines := tabDel d.map.lines (setIndex k * 16 + w) } }
    | none => d
  if slot then
    match tabFind d.map.evb index with
    | none => d
    | some s =>
      let d1 := d.err R.E_MAP_DATA_UE
      match s.snap with
      | some _ =>
        let (b, d2) := d1.drawBytes 4096
        { d2 with map := { d2.map with evb := tabPut d2.map.evb index { s with data := pageOf4k b } } }
      | none =>
        let d2 := dropLine s.key d1
        syncMap (markRebuild s.key { d2 with map := { d2.map with
          evb := tabDel d2.map.evb index, fifo := d2.map.fifo.filter (fun e => e.1 != s.key) ++ [(s.key, s.firstJsn)] } })
  else
    match tabFind d.map.lines index with
    | none => d
    | some l =>
      let d1 := dropLine l.key (d.err R.E_MAP_DATA_UE)
      syncMap (if l.dirty then markRebuild l.key d1 else d1)

/-- MAP_PIN_WRITE (R44, R258, R259): the host writes a pin entry; a SPAN above 8 is ignored and keeps its value. -/
def mapPinWrite (pin key : Nat) (valid : Bool) (span : Nat) (d : Dev) : Dev :=
  let d1 := (d.wr (R.MAP_PIN_KEY pin) (key % 2 ^ 51)).setB (R.MAP_PIN_CTL_VALID pin) valid
  let d2 := if span ≤ 8 then d1.setF (R.MAP_PIN_CTL_SPAN pin) span else d1
  let set := [(R.MAP_PIN_KEY pin, 0), (R.MAP_PIN_KEY pin, 33), (R.MAP_PIN_KEY pin, 36), (R.MAP_PIN_CTL pin, 0), (R.MAP_PIN_CTL pin, 4)]
  { d2 with img := { d2.img with hostSet := d2.img.hostSet.filter (fun x => !set.contains x) ++ set } }

/-- REC_REQ (R242): the peer asks for a record this head owns. -/
def recReq (tag handle mode dom : Nat) (d : Dev) : Dev := answerRec tag handle mode dom d

/-- REC_RESP (R242): the owner's answer; a record leased by another writer is asked for again. -/
def recResp (tag status : Nat) (body : Bytes) (d : Dev) : Dev :=
  match takeRequest tag 0x18 d with
  | (none, _) => d
  | (some q, d1) =>
    if status = 2 then resumeStalled d1
    else
      let r : RemoteRec := ⟨status, fieldAt body 0 8, fieldAt body 8 8, fieldAt body 16 8, fieldAt body 24 8⟩
      resumeStalled { d1 with map := { d1.map with remote := tabPut d1.map.remote q.a r } }

/-- REC_END (R242): the peer ends a lease, a hold, or both. -/
def recEnd (handle what : Nat) (d : Dev) : Dev :=
  let d1 : Dev := if bitAt what 0 then { d with map := { d.map with
      leases := d.map.leases.filter fun l => !(l.handle == handle && l.given) } } else d
  let d2 : Dev := if bitAt what 1 then
      let mine := fun (h : Hold) => h.handle == handle && h.cmd == peerCmd
      let rest := (d1.pan.holds.filter mine).drop 1
      syncPan { d1 with pan := { d1.pan with holds := d1.pan.holds.filter (fun h => !mine h) ++ rest } }
    else d1
  moveOn d2

end Sys2Proof.Machine
end

