-- ==== Sys2Proof/Machine/AnchorOps.lean ====
section
/-! DEFINITION. Anchors and the block table (R247, R248, R271, R272, R329), the flash index and the Pantry's start (R200, R201, R205). -/

namespace Sys2Proof.Machine

/-- A namespace-root tree. -/
def isRootTree (t : Nat) : Bool := t == rootTree 0 || t == rootTree 1

/-- Dirty directory pages of one step of an anchor (R248): levels 1 to 6, then the namespace-root trees, whose pages all hold pointers
(R237), from their leaves up. -/
def anchorKeys (d : Dev) (step : Nat) : List Nat :=
  ((d.map.lines.filter fun l => l.2.dirty && (if step ≤ 6 then keyLevel l.2.key == step && !isRootTree (keyTree l.2.key)
    else isRootTree (keyTree l.2.key) && keyLevel l.2.key + 7 == step)).map fun l => l.2.key)

/-- PEER_REDO (R247): the lowest peer JSN whose changes to this head's pages may not yet be on flash. -/
def peerRedo (d : Dev) : Nat :=
  let js := (d.map.deferred.filter fun m => m.peer).map (·.jsn) ++ d.map.peerFirst.map (·.2)
  js.foldl (fun b j => if jsnLt j b then j else b) ((d.getF R.PER_JSN_COVERED + 1) % 2 ^ 32)

/-- Key of a block-table page by module, level and page. -/
def btKey (m level page : Nat) : Nat := m * 2 ^ 40 + level * 2 ^ 32 + page

/-- Leaves of a module's block-table tree (R272): 64 own ordinals each. -/
def btLeaves (x : Module) : Nat := (x.blocks * (groupsOf x / 2) + 63) / 64

/-- Level of its root: the smallest at which one page covers all leaves. -/
def btRoot (x : Module) : Nat := ((List.range 6).find? fun l => decide (128 ^ l ≥ btLeaves x)).getD 6

/-- A block-table entry (R271). -/
def entryBytes (b : EBlock) : Bytes :=
  let body := leBytes 8 (blockWord b) ++ leBytes 4 b.fill ++ leBytes 4 b.valid ++ leBytes 8 b.sealTime ++ leBytes 8 b.sumA ++
    leBytes 8 b.sumB ++ leBytes 2 b.sumPages ++ zeros 2 ++ leBytes 4 b.openJsn ++ leBytes 8 b.domains ++ zeros 4
  body ++ leBytes 4 (crcNat body)

/-- The erase block of an ordinal of a head (R272). -/
def ordBlock (d : Dev) (h m o : Nat) : Nat :=
  let x := d.module m
  let half := groupsOf x / 2
  blkKey m (o / half * 2 ^ groupBits x + 2 * (o % half) + h)

/-- A leaf of the block table: 64 entries (R272). -/
def btLeafBytes (d : Dev) (h m leaf : Nat) : Bytes := (List.range 64).flatMap fun k => entryBytes (d.eblock (ordBlock d h m (64 * leaf + k)))

/-- A directory of the block table: pointers to 128 pages of the level below (R237, R272). -/
def btDirBytes (d : Dev) (h m level page : Nat) : Bytes :=
  (List.range 128).flatMap fun k =>
    let p := tabGet ptrNull d.med.btPtrs (btFor d h + btKey m (level - 1) (128 * page + k))
    if p = ptrNull then zeros 32 else ptrBytes p

/-- Write one page of a head's block table out of place; its old copies are superseded. The page's use names the other head's module as 64 and up. -/
def writeBtPage (h m level page : Nat) (d : Dev) : Option Dev :=
  let b := if level = 0 then btLeafBytes d h m page else btDirBytes d h m level page
  match placeM (fun _ => .blockTable (if h = d.headNum then m else m + 64) (level * 2 ^ 24 + page)) b d with
  | none => none
  | some (la, lb, d1) =>
    let k := btFor d h + btKey m level page
    let d2 := supersedePtr (tabGet ptrNull d1.med.btPtrs k) d1
    some { d2 with med := { d2.med with btPtrs := tabPut d2.med.btPtrs k ⟨la, lb, crcNat b, 0, level, false⟩ } }

/-- Write the changed pages of one module's block table, level by level from the leaves up (R272); the count of pages written. -/
def writeBtTree (fuel h m level : Nat) (pages : List Nat) (n : Nat) (d : Dev) : Option (Nat × Dev) :=
  match fuel with
  | 0 => some (n, d)
  | f + 1 =>
    match pages.foldl (fun (s : Option Dev) p => s.bind (writeBtPage h m level p)) (some d) with
    | none => none
    | some d1 =>
      if level ≥ btRoot (d1.module m) then some (n + pages.length, d1)
      else writeBtTree f h m (level + 1) (dedup (pages.map (· / 128))) (n + pages.length) d1

/-- Pages of a head's block tables are still to be read in. -/
def tablesLeft (d : Dev) (h : Nat) : Bool := d.per.tables.any fun t => t.1 == h

/-- Write every changed leaf and directory of the block tables (R272), of the other head's too while this head keeps them (R509); those of tables
not yet read in stay for a later anchor. -/
def writeBlockTable (d : Dev) : Option (Nat × Dev) :=
  let headOf := fun (l : Nat) => if l < 2 ^ 48 then d.headNum else 1 - d.headNum
  let due := d.med.btDirty.filter fun l => !tablesLeft d (headOf l)
  let trees := dedup (due.map (· / 2 ^ 32))
  (trees.foldl (fun (s : Option (Nat × Dev)) t => s.bind fun (n, d) =>
    writeBtTree 7 (headOf (t * 2 ^ 32)) (t % 2 ^ 16) 0 ((due.filter fun l => l / 2 ^ 32 == t).map (· % 2 ^ 32)) n d) (some (0, d))).map fun r =>
      (r.1, { r.2 with med := { r.2.med with btDirty := r.2.med.btDirty.filter fun l => !due.contains l } })

/-- A map anchor (R247) of a head from its root pointers. -/
def mapAnchorBytes (d : Dev) (head seq redo next pRedo : Nat) : Bytes :=
  let root := fun (t : Nat) =>
    let p := tabGet ptrNull d.map.roots (t * 8 + rootLevel d t)
    if p = ptrNull then zeros 32 else ptrBytes p
  let body := leBytes 4 0x4150414D ++ [1#8] ++ leBytes 1 head ++ zeros 2 ++ leBytes 4 seq ++ leBytes 4 redo ++ leBytes 4 next ++
    leBytes 4 pRedo ++ leBytes 8 d.now ++ root (contentTree head) ++ root (indexTree head) ++ root (rootTree head) ++ zeros 3964
  body ++ leBytes 4 (crcNat body)

/-- A module belongs to the array. -/
def fittedMask (d : Dev) : Nat := (List.range moduleCount).foldl (fun s m => s + 2 ^ m * b2n (d.module m).known) 0

/-- A media anchor (R272) of a head. -/
def mediaAnchorBytes (d : Dev) (head seq redo : Nat) : Bytes :=
  let root := fun (m : Nat) =>
    let p := tabGet ptrNull d.med.btPtrs (btFor d head + btKey m (btRoot (d.module m)) 0)
    if !(d.module m).known || p == ptrNull then zeros 32 else ptrBytes p
  let body := leBytes 4 0x4144454D ++ [1#8] ++ leBytes 1 head ++ zeros 2 ++ leBytes 4 seq ++ leBytes 4 redo ++ leBytes 8 d.now ++
    leBytes 4 (fittedMask d) ++ zeros 4 ++ (List.range moduleCount).flatMap root ++ zeros 3036
  body ++ leBytes 4 (crcNat body)

/-- REDO of the failed head (R509): its lowest JSN still in the overlay, or one past COVERED. -/
def proxyRedo (d : Dev) : Nat := peerRedo d

/-- Cut the proxy anchors beside this head's own (R509): placed on stream M; their witnesses follow once they are programmed. While the failed
head's block tables are still being read in, its last anchors stand. -/
def placeProxies (redo : Nat) (d : Dev) : Dev :=
  if !d.per.adopted || tablesLeft d (1 - d.headNum) then d
  else
    let h := 1 - d.headNum
    let seq := (d.per.proxySeq + 1) % 2 ^ 32
    let mb := mapAnchorBytes d h seq (proxyRedo d) ((d.getF R.PER_JSN_COVERED + 1) % 2 ^ 32) redo
    let d1 : Dev := { d with per := { d.per with proxySeq := seq, anchor := some (mb ++ mediaAnchorBytes d h seq (proxyRedo d)) } }
    match placeM (fun k => .proxy 0 k) mb d1 with
    | none => d
    | some (_, _, d2) => match placeM (fun k => .proxy 1 k) (mediaAnchorBytes d1 h seq (proxyRedo d)) d2 with
      | none => d
      | some (_, _, d3) => d3

/-- Begin an anchor (R248): REDO and PEER_REDO are fixed, and the first directory level is written back. -/
def cutAnchor (d : Dev) : Dev :=
  let c : AnchorCut := ⟨(d.map.anchorSeq + 1) % 2 ^ 32, redoJsn d, d.nextJsn, peerRedo d, 0, 1, (anchorKeys d 1).map fun k => (k, false),
    0, 0, 0, [], [], []⟩
  { d with map := { d.map with cut := some c } }.setB R.MAP_STATE_ANCHOR_BUSY true

/-- The directories of an anchor are written back level by level, 1 to the root (R248 step 2). -/
def pumpDirs (fuel : Nat) (c : AnchorCut) (d : Dev) : AnchorCut × Dev :=
  match fuel with
  | 0 => (c, d)
  | f + 1 =>
    let step := fun (s : List (Nat × Bool) × Dev) (e : Nat × Bool) =>
      if e.2 then (s.1 ++ [e], s.2)
      else match s.2.line e.1 with
        | some l => if l.dirty then match copyOut e.1 s.2 with
            | some d1 => (s.1 ++ [(e.1, true)], d1)
            | none => (s.1 ++ [e], s.2)
          else (s.1 ++ [(e.1, true)], s.2)
        | none => (s.1 ++ [(e.1, true)], s.2)
    let r := c.keys.foldl step (([] : List (Nat × Bool)), d)
    let left := r.1.filter fun e => !e.2 || (slotOfKey r.2 e.1).isSome
    if !left.isEmpty then ({ c with keys := left }, r.2)
    else if c.level ≥ 9 then ({ c with keys := [], stage := 1 }, r.2)
    else pumpDirs f { c with keys := (anchorKeys r.2 (c.level + 1)).map (fun k => (k, false)), level := c.level + 1 } r.2

/-- Place the two anchors on stream M (R248 step 3, R272). -/
def placeAnchors (c : AnchorCut) (d : Dev) : Option (AnchorCut × Dev) :=
  let mb := mapAnchorBytes d d.headNum c.seq c.redo c.next c.peerRedo
  let eb := mediaAnchorBytes d d.headNum c.seq c.redo
  match placeM (fun k => .anchor c.seq k) mb d with
  | none => none
  | some (a, b, d1) => match placeM (fun k => .mediaAnchor c.seq k) eb d1 with
    | none => none
    | some (x, y, d2) => some ({ c with stage := 2, mapLocs := [a, b], medLocs := [x, y], bytes := mb ++ eb }, placeProxies c.redo d2)

/-- The anchor in flight goes on (R248): directories, then the block table, then the two anchors. -/
def pumpAnchor (d : Dev) : Dev :=
  match d.map.cut with
  | none => d
  | some c =>
    if c.stage = 0 then
      if walking d then d
      else
        let r := pumpDirs 10 c d
        if r.1.stage = 0 then syncMap { r.2 with map := { r.2.map with cut := some r.1 } }
        else match writeBlockTable r.2 with
          | none => { r.2 with map := { r.2.map with cut := some { r.1 with stage := 0, keys := [] } } }
          | some (n, d1) => syncMap { d1 with map := { d1.map with cut := some { r.1 with btLeft := 2 * n } } }
    else if c.stage = 1 ∧ c.btLeft = 0 then
      match placeAnchors c d with
      | none => d
      | some (c1, d1) => { d1 with map := { d1.map with cut := some c1 } }
    else d

/-- ANCHOR_TIMER (R248): the interval has passed since the last anchor, or the journal ring is fuller than its limit. -/
def anchorTimer (d : Dev) : Dev := if d.map.cut.isSome then d else pumpAnchor (cutAnchor d)

/-- MAP_ANCHOR_CMD (R248, R265): the host cuts an anchor; one already in flight rejects it. -/
def mapAnchorCmd (d : Dev) : Dev :=
  if d.map.cut.isSome then d.setB R.MAP_STATE_CMD_REJECTED true else pumpAnchor (cutAnchor d)

/-- A superblock page that verifies (R329). -/
def sbOk (b : Bytes) : Bool := fieldAt b 0 4 == 0x4253444D && fieldAt b 4 1 == 1 && fieldAt b 4092 4 == crcNat (slice b 0 4092)

/-- This head's superblock page on a module as last known; one with a bad CRC counts as holding no anchor (R329). -/
def headPage (d : Dev) (m : Nat) : Bytes :=
  let b := tabGet [] (d.link m).sb (2 + d.headNum)
  if sbOk b then b else zeros 4096

/-- Finish a superblock page: magic, version, page number and CRC (R329). -/
def sbPage (n : Nat) (body : Bytes) : Bytes :=
  let b := slice (overlay (slice body 0 4092) 0 (leBytes 4 0x4253444D ++ [1#8] ++ leBytes 1 n)) 0 4092
  b ++ leBytes 4 (crcNat b)

/-- Write this head's superblock page on a module that holds a copy of an anchor (R329): what was new becomes old, and what was old is
superseded. -/
def writeHeadPage (m : Nat) (mapLoc medLoc : Option Nat) (d : Dev) : Dev :=
  let b := headPage d m
  let put := fun (o : Nat) (l : Option Nat) (b : Bytes) =>
    match l with
    | none => b
    | some x => overlay b o (leBytes 8 x ++ leBytes 8 (fieldAt b o 8))
  let b1 := put 40 medLoc (put 24 mapLoc (overlay b 8 (leBytes 1 d.headNum ++ zeros 3 ++ leBytes 4 (fieldAt b 12 4 + 1) ++
    leBytes 8 d.sec.fuses.deviceId)))
  let page := sbPage (2 + d.headNum) b1
  let olds := (if mapLoc.isSome then [fieldAt b 32 8] else []) ++ (if medLoc.isSome then [fieldAt b 48 8] else [])
  let d1 := forEach olds supersede d
  mediaCmd m 8 0 (2 + d.headNum) 0 page (.superblock (2 + d.headNum))
    (d1.modLink m fun l => { l with sb := tabPut l.sb (2 + d.headNum) page })

/-- The location of a copy among some that lies on a module. -/
def locOn (ls : List Nat) (m : Nat) : Option Nat := ls.find? fun l => bitsAt l 36 5 == m

/-- ANCHOR_DURABLE (R248, R272, R289, R329): both copies of both anchors are programmed. The superblocks name them, what they
no longer reach leaves its blocks, journal records below REDO count as written back, and the peer is told. -/
def anchorDurable (d : Dev) : Dev :=
  match d.map.cut with
  | none => d
  | some c =>
    if c.stage ≠ 2 ∨ c.programmed < 2 ∨ c.mediaProgrammed < 2 then d
    else
      let old := d.med.superseded
      let d1 : Dev := forEach old dropUnit { d with
        map := { d.map with cut := none, anchorSeq := c.seq }
        med := { d.med with superseded := [] } }
      let ms := dedup ((c.mapLocs ++ c.medLocs).map fun l => bitsAt l 36 5)
      let d2 := forEach ms (fun m d => writeHeadPage m (locOn c.mapLocs m) (locOn c.medLocs m) d) d1
      let d3 := (((d2.setB R.MAP_STATE_ANCHOR_BUSY false).setF R.MAP_ANCHOR_SEQ c.seq).setF R.MAP_ANCHOR_REDO_JSN c.redo).stat R.MAP_ANCHORS 1
      let d4 := if d3.peerUp then sendPeer 0x0B 0 [] c.bytes d3 else d3
      releaseJournal d4

/-- Put an index page's entries back (R200). -/
def writeIndex (b j : Nat) (l : List PanEnt) (d : Dev) : Option Dev := changeLine (indexKey d b j) d.nextJsn (fun _ => indexPage b j l) d

/-- Entries of an index page, where it is there. -/
def readIndex (b j : Nat) (d : Dev) : Option (List PanEnt) × Dev :=
  match ensurePage mapFuel .index (indexKey d b j) d with
  | (.ready, d1) => (((d1.line (indexKey d b j)).map fun l => indexEntries l.data), d1)
  | (.unavailable, d1) => (some [], d1)
  | (.wait, d1) => (none, d1)

/-- What an index operation comes to: done, waiting for a page, or the bucket's index is full. -/
inductive IdxRes where
  | done | wait | full
  deriving DecidableEq, Repr

/-- Write an append into the lowest page of its bucket whose COUNT is below 340 (R201). -/
def appendIndex (fuel j : Nat) (a : IdxAppend) (d : Dev) : IdxRes × Dev :=
  match fuel with
  | 0 => (.full, d)
  | f + 1 => match readIndex a.bucket j d with
    | (none, d1) => (.wait, d1)
    | (some l, d1) =>
      if l.length < 340 then match writeIndex a.bucket j (l ++ [⟨a.tag, a.loc⟩]) d1 with
        | some d2 => (.done, d2)
        | none => (.wait, d1)
      else appendIndex f (j + 1) a d1

/-- The pages of a bucket from `j` on up to the first empty one, with their entries; none while one is not there. -/
def indexPages (fuel j b : Nat) (d : Dev) : Option (List (Nat × List PanEnt)) × Dev :=
  match fuel with
  | 0 => (some [], d)
  | f + 1 => match readIndex b j d with
    | (none, d1) => (none, d1)
    | (some l, d1) => if l.isEmpty then (some [], d1)
      else match indexPages f (j + 1) b d1 with
        | (none, d2) => (none, d2)
        | (some r, d2) => (some ((j, l) :: r), d2)

/-- Remove a slot's entry from the index, the bucket's last entry taking its place (R201). -/
def removeIndex (b loc : Nat) (d : Dev) : IdxRes × Dev :=
  match indexPages 64 0 b d with
  | (none, d1) => (.wait, d1)
  | (some ps, d1) =>
    match ps.find? fun p => p.2.any fun e => e.loc == loc, ps.getLast? with
    | some p, some q =>
      let lastEnt := q.2.getLast?.getD ⟨0, 0⟩
      let fill := fun (l : List PanEnt) => l.map fun e => if e.loc == loc then lastEnt else e
      if p.1 = q.1 then match writeIndex b p.1 ((fill p.2).dropLast) d1 with
        | some d2 => (.done, d2)
        | none => (.wait, d1)
      else match (writeIndex b p.1 (fill p.2) d1).bind (writeIndex b q.1 q.2.dropLast) with
        | some d2 => (.done, d2)
        | none => (.wait, d1)
    | _, _ => (.done, d1)

/-- Apply one queued append, or keep it while its page is not there. -/
def flushAppend (a : IdxAppend) (d : Dev) : Dev :=
  match appendIndex 64 0 a d with
  | (.done, d1) => d1.stat R.PAN_IDX_APPENDS 1
  | (.full, d1) => d1.stat R.PAN_IDX_DROPS 1
  | (.wait, d1) => { d1 with pan := { d1.pan with appends := d1.pan.appends ++ [a] } }

/-- Remove the index entry of a slot on its way to its free list, and any append still queued for it (R198, R201). -/
def flushDrop (x : Drop) (d : Dev) : Dev :=
  let b := bucketOf x.handle
  let loc := locOf x.handle
  let d0 : Dev := { d with pan := { d.pan with appends := d.pan.appends.filter fun a => !(a.bucket == b && a.loc == loc) } }
  match removeIndex b loc d0 with
  | (.wait, d1) => d1
  | (_, d1) => { d1 with pan := { d1.pan with drops := mapWhere (fun y => y.handle == x.handle) (fun y => { y with indexOk := true }) d1.pan.drops } }

/-- Remove the index entry of a record that became an alias (R201, R202). -/
def flushUnindex (h : Nat) (d : Dev) : Dev :=
  match removeIndex (bucketOf h) (locOf h) d with
  | (.wait, d1) => d1
  | (_, d1) => { d1 with pan := { d1.pan with unindex := d1.pan.unindex.filter (· != h) } }

/-- INDEX_APPEND_FLUSH (R201): the Keep plane applies the queued appends and removals. -/
def indexAppendFlush (d : Dev) : Dev :=
  let d1 := forEach d.pan.appends flushAppend { d with pan := { d.pan with appends := [] } }
  finishDrops (forEach d.pan.unindex flushUnindex (forEach (d.pan.drops.filter fun x => !x.indexOk) flushDrop d1))

/-- Learn an entry as the oldest of its bucket where its record passes V1 to V4 (R205), bound to the domain that verifies. -/
def learnHint (b tag loc : Nat) (d : Dev) : Dev :=
  let h := b * 2 ^ 32 + loc
  match lookupRecord .index 1 0 h d with
  | (.val w, d1) =>
    let doms := ((d1.sec.store.map (·.domains)).getD []).map (·.1) |>.filter fun n => recOk n h w.1 w.2
    match doms.head? with
    | none => d1
    | some n =>
      let f := recFlags w.2
      if bitAt f 2 || bitAt f 4 || !(liveEpochs d1 n).any (fun e => e % 4096 == recEpoch w.1) || recRefs w.2 == 0 then d1
      else
        let d2 := learnEntry b tag loc d1
        if (d2.bucket b).length > (d1.bucket b).length then d2.stat R.PAN_RELEARNED 1 else d2
  | (_, d1) => d1

/-- The learning walk (R205): this head's newest journal records, newest first; the first CONTENT_NEW of each primary slot counts. -/
def learnJournal (recs : List (Nat × JRec)) (d : Dev) : Dev :=
  let news := (recs.reverse.take 1048576).filter fun e => e.2.type == 2 && !bitAt (recFlags e.2.b) 2
  forEach news (fun e d =>
    if d.pan.learned.contains e.2.subject then d
    else learnHint (bucketOf e.2.subject) e.2.c (locOf e.2.subject)
      { d with pan := { d.pan with learned := d.pan.learned ++ [e.2.subject] } }) d

/-- LEARNING_END (R205): the walk over the journal ring has ended and the index is read next. -/
def learningEnd (d : Dev) : Dev :=
  if d.getF R.PAN_STATE_STATE ≠ 1 then d
  else
    let d1 := learnJournal ((jsnOrder (·.1) d.write.ring).map fun e => (e.1, e.2.rec')) d
    ({ d1 with pan := { d1.pan with learned := [], warmAt := 0 } }).setF R.PAN_STATE_STATE 2

/-- Insert the newest entries of a bucket's highest used index page as its oldest (R205); none while a page is not there. -/
def warmBucket (b : Nat) (d : Dev) : Option Unit × Dev :=
  match indexPages 64 0 b d with
  | (some ps, d1) => match ps.getLast? with
    | some q => (some (), forEach q.2.reverse (fun e d => learnHint b e.tag e.loc d) d1)
    | none => (some (), d1)
  | (none, d1) => (none, d1)

/-- The lowest index page at or after one that was ever written, from a page of the index tree down; the outer option is none
while a page is not there. -/
def nextIndexPage (fuel k from' : Nat) (d : Dev) : Option (Option Nat) × Dev :=
  match fuel with
  | 0 => (some none, d)
  | f + 1 =>
    if keyLevel k = 0 then (some (if keyPage k ≥ from' then some (keyPage k) else none), d)
    else match ensurePage mapFuel .index k d with
      | (.wait, d1) => (none, d1)
      | (.unavailable, d1) => (some none, d1)
      | (.ready, d1) =>
        let data := match d1.line k with
          | some l => l.data
          | none => []
        let kids := (childKeys d1 k data).filter fun c => decide ((keyPage c + 1) * 128 ^ keyLevel c > from')
        kids.foldl (fun (s : Option (Option Nat) × Dev) c =>
          match s.1 with
          | some none => nextIndexPage f c from' s.2
          | _ => s) (some none, d1)

/-- The walk of the index goes on bucket by bucket until a page is missing; whether it is over. -/
def warmWalk (fuel : Nat) (d : Dev) : Bool × Dev :=
  match fuel with
  | 0 => (false, d)
  | f + 1 =>
    let t := indexTree d.headNum
    match nextIndexPage 8 (mkKey t (rootLevel d t) 0) d.pan.warmAt d with
    | (none, d1) => (false, d1)
    | (some none, d1) => (true, d1)
    | (some (some p), d1) =>
      match warmBucket (p / 64) d1 with
      | (none, d2) => (false, d2)
      | (some _, d2) => warmWalk f { d2 with pan := { d2.pan with warmAt := (p / 64 + 1) * 64 } }

/-- Buckets of the index. -/
def bucketCount : Nat := 2 ^ 27

/-- WARMING_END (R205): the index has been read bucket by bucket, and the Pantry is ready; before that the walk goes as far as the pages
present let it. -/
def warmingEnd (d : Dev) : Dev :=
  if d.getF R.PAN_STATE_STATE ≠ 2 then d
  else match warmWalk bucketCount d with
    | (false, d1) => d1
    | (true, d1) => (d1.setF R.PAN_STATE_STATE 3).postAt 0x1104 (ownPage 0x11) []

end Sys2Proof.Machine
end

