-- ==== Sys2Proof/Machine/SnapOps.lean ====
section
/-! DEFINITION. Snapshots: create, seal, delete and the deletion walk (14_snapshots_replication, R438 to R448). -/

namespace Sys2Proof.Machine

/-- Snapshot slots not FREE on this head. -/
def headSnaps (d : Dev) : Nat := sumL (d.nvm.namespaces.map fun e => e.2.snaps.length)

/-- Bring `SNP_SNAPS` and `SNP_STREAMS` up to date. -/
def syncSnaps (d : Dev) : Dev :=
  (d.setIf R.SNP_SNAPS_COUNT (headSnaps d)).setIf R.SNP_STREAMS_ACTIVE
    ((List.range 64).filter fun u => d.getF (R.SNP_S_STATE_STATE u) != 0).length

/-- Reserve a group for one record of the Snapshots steward and issue its MAPWALK (R440). -/
def walkGroup (r : JRec) (inst : Nat) (d : Dev) : Dev :=
  let g := reserveGroup 1 inst 0 0 d
  let d1 := g.2.modGrp g.1 fun x => { x with recs := [r], nsg := r.nsg }
  let b := match d1.grp g.1 with
    | some x => groupBytes d1 x
    | none => []
  issueTicket iMap 0 pMapwalk none (g.1 % 2 ^ 18) b 512 (mkArgs r.subject 0 g.1) (.group g.1) d1

/-- A group that emits a record of a type for a snapshot is under way. -/
def snapGroup (d : Dev) (nsg id type : Nat) : Bool :=
  d.write.groups.any fun g => g.recs.any fun r => r.type == type && r.nsg == nsg && r.subject == id

/-- A snapshot of a namespace by its SNAP_ID. -/
def snapOf (n : Ns) (id : Nat) : Option Snap := n.snaps.find? fun s => s.id == id

/-- A snapshot is the base or target of a stream that is not IDLE (R448). -/
def snapStreamed (d : Dev) (nsg id : Nat) : Bool :=
  (List.range 64).any fun u => d.getF (R.SNP_S_STATE_STATE u) != 0 && d.getF (R.SNP_S_CFG_NSG u) == nsg &&
    (d.getF (R.SNP_S_SNAPS_BASE u) == id || d.getF (R.SNP_S_SNAPS_TARGET u) == id)

/-- Dirty lines of a namespace that a new snapshot shares go to the front of write-back (R446). -/
def frontLines (nsg es : Nat) (d : Dev) : Dev :=
  let mine := fun (e : Nat × Nat) => keyTree e.1 == nsg && match d.line e.1 with
    | some l => decide (l.epoch ≤ es)
    | none => false
  { d with map := { d.map with fifo := d.map.fifo.filter mine ++ d.map.fifo.filter fun e => !mine e } }

/-- Create a snapshot (R438, R439, R441): the lowest FREE slot, the boundary JSN, the epoch's rise, SNAP_CREATE. The SNAP_ID. -/
def createSnap (n : Ns) (label : Nat) (d : Dev) : Nat × Dev :=
  let slot := (lowestBelow 4096 fun k => !n.snaps.any fun s => s.slot == k).getD 0
  let id := slot + n.epoch % 2 ^ 20 * 4096
  let b := d.nextJsn
  let s : Snap := ⟨id, slot, label, n.epoch, 1, b, d.now, ptrNull⟩
  let d1 := d.modNs n.nsg fun x => { x with snaps := x.snaps ++ [s], epoch := x.epoch + 1 }
  let d2 := walkGroup ⟨0x10, n.nsg, id, n.epoch + label * 2 ^ 32, b, 0⟩ n.inst d1
  (id, syncSnaps (frontLines n.nsg n.epoch (d2.stat R.SNP_CREATES 1)))

/-- Whether the limits (R56, R402, R411) let a namespace take one more snapshot. -/
def snapRoom (d : Dev) (n : Ns) : Bool := decide (n.snaps.length < d.limit 6 ∧ headSnaps d < d.limit 7)

/-- Emit SNAP_DELETE for a snapshot (R448). -/
def deleteSnap (n : Ns) (s : Snap) (d : Dev) : Dev := walkGroup ⟨0x12, n.nsg, s.id, s.epoch, 0, 0⟩ n.inst d

/-- A snapshot command that the order lets go is run (R399, R402, R441, R448). -/
def runSnapCmd (c : NCmd) (d : Dev) : Dev :=
  match d.ns c.h.nsg with
  | none => finishN c.h.id stNamespace 0 d
  | some n =>
    if c.h.sqe.opc = 0xC4 then
      if !snapRoom d n then finishN c.h.id stSnapLimit 0 d
      else
        let r := createSnap n c.h.sqe.cdw10 d
        r.2.modN c.h.id fun x => { x with prog := 5, chunk := r.1 }
    else match snapOf n c.h.sqe.cdw10 with
      | none => finishN c.h.id stSnapNotFound 0 d
      | some s =>
        if s.state = 3 ∨ snapGroup d n.nsg s.id 0x12 then finishN c.h.id stSnapNotFound 0 d
        else if snapStreamed d n.nsg s.id then finishN c.h.id stSnapInUse 0 d
        else (deleteSnap n s d).modN c.h.id fun x => { x with prog := 5, chunk := s.id }

/-- Snapshot commands that wait for nothing any more are run. -/
def pumpSnapCmds (d : Dev) : Dev :=
  forEach (d.nvm.cmds.filter fun c => !c.held && c.prog == 1 && c.aux == 0 && c.h.admin && isSnapOpc c.h.sqe.opc)
    runSnapCmd d

/-- A snapshot command on an admin queue (R386, R399). -/
def snapCommand (opc : Nat) (o : Origin) (e : Sqe) (cap : Bytes) (d : Dev) : Dev :=
  match o with
  | .fabric _ _ _ => pumpSnapCmds (acceptCmd true o { e with opc := opc } cap d)
  | _ => d

/-- SNAPSHOT_CREATE (R399, R441). -/
def snapshotCreate (o : Origin) (e : Sqe) (cap : Bytes) (d : Dev) : Dev := snapCommand 0xC4 o e cap d

/-- SNAPSHOT_DELETE (R399, R448). -/
def snapshotDelete (o : Origin) (e : Sqe) (cap : Bytes) (d : Dev) : Dev := snapCommand 0xC8 o e cap d

/-- Every snapshot of a namespace being deleted is deleted, newest first (R448). -/
def deleteSnaps (nsg : Nat) (d : Dev) : Dev :=
  match d.ns nsg with
  | none => d
  | some n => forEach (n.snaps.reverse.filter fun s => s.state != 3 && !snapGroup d nsg s.id 0x12) (deleteSnap n) d

/-- No version that a snapshot shares is still on its way to flash (R446). -/
def snapSettled (d : Dev) (nsg es : Nat) : Bool :=
  !d.map.evb.any (fun e => keyTree e.2.key == nsg && keyLevel e.2.key < 6 &&
      (e.2.snap == some es || (e.2.snap.isNone && decide (e.2.epoch ≤ es)))) &&
    !d.map.lines.any fun l => keyTree l.2.key == nsg && keyLevel l.2.key < 6 && l.2.dirty && decide (l.2.epoch ≤ es)

/-- SNAPSHOT_SEAL (R446): once everything a snapshot shares is on flash, SNAP_ROOT is emitted. -/
def snapshotSeal (nsg id : Nat) (d : Dev) : Dev :=
  match d.ns nsg with
  | none => d
  | some n => match snapOf n id with
    | none => d
    | some s =>
      if s.state ≠ 1 ∨ !snapSettled d nsg s.epoch ∨ snapGroup d nsg id 0x10 ∨ snapGroup d nsg id 0x13 ∨
          d.map.deferred.any (fun m => keyTree m.key == nsg && !jsnLt s.boundary m.jsn) then d
      else
        let c := if s.root = ptrNull then 0 else s.root.crc + s.root.level * 2 ^ 32
        walkGroup ⟨0x13, nsg, id, s.root.a, s.root.b, c⟩ n.inst d

/-- Read a page that a snapshot's tree names (R446): from flash through its pointer, checked under R239 and not cached; the outer option is
none while it is on its way, the inner one where neither copy passes. -/
def fetchPtr (p : PagePtr) (d : Dev) : Option (Option PageData) × Dev :=
  let ask := fun (loc : Nat) (d : Dev) =>
    if d.nvm.snapAsked.contains loc then d
    else readCrumbs (bitsAt loc 36 5) (bitsAt loc 0 36 * 16) 16 (.snapRead loc)
      { d with nvm := { d.nvm with snapAsked := d.nvm.snapAsked ++ [loc] } }
  let got := fun (loc : Nat) (d : Dev) => d.med.results.find? fun r => r.work == .snapRead loc
  let good := fun (r : ReadResult) => !psLost r.status && r.data.length == 4096 && crcNat r.data == p.crc
  if p = ptrNull then (some (some []), d)
  else if p.lost then (some none, d)
  else
    let d1 := ask p.a d
    match got p.a d1 with
    | none => (none, d1)
    | some r =>
      if good r then (some (some (pageOf4k r.data)), d1)
      else
        let d2 := ask p.b d1
        match got p.b d2 with
        | none => (none, d2)
        | some q => if good q then (some (some (pageOf4k q.data)), d2.err R.E_MAP_ALT_COPY) else (some none, d2.err R.E_MAP_LOST)

/-- Forget the pages of snapshots that have been read. -/
def dropFetched (d : Dev) : Dev :=
  let isSnap := fun (r : ReadResult) => match r.work with
    | .snapRead _ => true
    | _ => false
  { d with
    nvm := { d.nvm with snapAsked := [] }
    med := { d.med with results := d.med.results.filter fun r => !isSnap r } }

/-- A snapshot's pointer to a position, down from its root; the outer option is none while a page is on its way. -/
def snapPtr (fuel k : Nat) (at' : Nat) (p : PagePtr) (d : Dev) : Option PagePtr × Dev :=
  match fuel with
  | 0 => (some ptrNull, d)
  | f + 1 =>
    if at' ≤ keyLevel k ∨ p = ptrNull then (some p, d)
    else match fetchPtr p d with
      | (none, d1) => (none, d1)
      | (some none, d1) => (some ptrNull, d1)
      | (some (some data), d1) =>
        snapPtr f k (at' - 1) (ptrAt data (keyPage k / 128 ^ (at' - 1 - keyLevel k) % 128)) d1

/-- The epoch of the live tree's version at a position (R448): the line's, or that of the pointer to it. -/
def liveVersion (k : Nat) (d : Dev) : Option Nat × Dev :=
  match d.line k, slotOfKey d k with
  | some l, _ => (some l.epoch, d)
  | none, some (_, s) => (some s.epoch, d)
  | none, none => match parentOf d k with
    | none => (some 0, d)
    | some (pk, i) => match ensurePage mapFuel (.snap (keyTree k)) pk d with
      | (.ready, d1) => ((d1.line pk).map fun l => (ptrAt l.data i).epoch, d1)
      | (.unavailable, d1) => (some 0, d1)
      | (.wait, d1) => (none, d1)

/-- The epoch of the newer neighbour's version at a position (R448). -/
def newerVersion (n : Ns) (es k : Nat) (d : Dev) : Option Nat × Dev :=
  let newer := (n.snaps.filter fun s => decide (s.epoch > es)).foldl (fun b s =>
    match b with
    | none => some s
    | some (x : Snap) => if s.epoch < x.epoch then some s else some x) none
  match newer with
  | none => liveVersion k d
  | some t =>
    let live := match d.line k, slotOfKey d k with
      | some l, _ => some l.epoch
      | none, some (_, s) => some s.epoch
      | _, _ => none
    if live.any fun v => v ≤ t.epoch then (live, d)
    else match d.map.evb.find? fun e => e.2.key == k && e.2.snap == some t.epoch with
      | some e => (some e.2.epoch, d)
      | none =>
        let r := snapPtr 8 k (rootLevel d (keyTree k)) t.root d
        (r.1.map (·.epoch), r.2)

/-- Change the deletion walk of a namespace that runs now. -/
def modWalk (nsg snap : Nat) (f : DelWalk → DelWalk) (d : Dev) : Dev :=
  { d with nvm := { d.nvm with walks := mapWhere (fun w => w.nsg == nsg && w.snap == snap) f d.nvm.walks } }

/-- A version of the deleted snapshot is released (R448). -/
def freeVersion (p : PagePtr) (d : Dev) : Dev := (supersedePtr p d).stat R.SNP_FREED_PAGES 1

/-- Take up to eight handles of an exclusive leaf: REF_ADJ −1 for each (R448), and for the target of an alias that dies (R203). Whether
they could be issued. -/
def unrefEight (n : Ns) (hs : List Nat) (d : Dev) : Bool × Dev :=
  let dom := d.getF (R.INS_I_DOMAIN_DOMAIN n.inst)
  if placeBlocked d d.nextJsn hs then (false, d)
  else match lookupAll (.snap n.nsg) dom hs d with
    | (none, d1) => (false, d1)
    | (some vals, d1) =>
      let recs := adjRecs n.nsg false vals [] hs
      let dead := recs.filter fun r => r.b == 0 && vals.any fun e => e.1 == r.subject && bitAt (recFlags e.2.2) 4
      let ts := aliasTargets (vals.filter fun e => dead.any fun r => r.subject == e.1)
      if !ts.isEmpty && placeBlocked d1 d1.nextJsn ts then (false, d1)
      else match lookupAll (.snap n.nsg) dom ts d1 with
        | (none, d2) => (false, d2)
        | (some tv, d2) =>
          let all := recs ++ adjRecs n.nsg false tv [] ts
          (true, forEach (eights 4 all) (fun g d => placeGroup iMap g n.inst d) (forEach (hs ++ ts) forgetRemote d2))

/-- One move of a deletion walk (R448); none where it has to wait or is over. -/
def walkMove (n : Ns) (es : Nat) (w : DelWalk) (d : Dev) : Option (DelWalk × Dev) × Dev :=
  let older := (n.snaps.filter fun s => decide (s.epoch < es)).foldl (fun b s => Nat.max b s.epoch) 0
  match w.leaf with
  | some (_, p) =>
    match w.handles with
    | [] => (some ({ w with leaf := none }, freeVersion p d), d)
    | hs :: rest =>
      let r := unrefEight n hs d
      if r.1 then (some ({ w with handles := rest }, r.2), d) else (none, r.2)
  | none =>
    match w.todo with
    | [] => (none, d)
    | (k, p) :: rest =>
      if keyLevel k = 0 ∧ ((openSplit d n.nsg (keyPage k)).isSome ∨ d.map.evb.any fun e => e.2.key == k && e.2.snap.isSome) then (none, d)
      else if p = ptrNull ∨ p.epoch ≤ older then (some ({ w with todo := rest }, d), d)
      else match newerVersion n es k d with
        | (none, d1) => (none, d1)
        | (some v, d1) =>
          if v ≤ es then (some ({ w with todo := rest }, d1), d)
          else match fetchPtr p d1 with
            | (none, d2) => (none, d2)
            | (some none, d2) => (some ({ w with todo := rest }, freeVersion p d2), d)
            | (some (some data), d2) =>
              if keyLevel k = 0 then
                let hs := (eights 64 ((List.range 512).map fun i => tabGet 0 data i)).map fun l => l.filter isHandle
                (some ({ w with todo := rest, leaf := some (k, p), handles := hs.filter fun l => !l.isEmpty }, d2), d)
              else
                let kids := ((List.range 128).map fun i =>
                  (mkKey (keyTree k) (keyLevel k - 1) (keyPage k * 128 + i), ptrAt data i)).filter fun e => e.2 != ptrNull
                (some ({ w with todo := kids ++ rest }, freeVersion p d2), d)

/-- A deletion walk goes on until it has to wait. -/
def walkOn (fuel : Nat) (nsg es : Nat) (d : Dev) : Dev :=
  match fuel with
  | 0 => d
  | f + 1 =>
    match d.ns nsg, d.nvm.walks.find? fun w => w.nsg == nsg with
    | some n, some w =>
      if w.snap ≠ es ∨ w.freed then d
      else if !w.started then
        if d.map.evb.any fun e => keyTree e.2.key == nsg && e.2.snap == some es then d
        else
          let root := ((n.snaps.find? fun s => s.epoch == es).map (·.root)).getD ptrNull
          walkOn f nsg es (modWalk nsg es (fun w => { w with started := true, todo := [(mkKey nsg (rootLevel d nsg) 0, root)] }) d)
      else match walkMove n es w d with
        | (some (w2, d2), _) => walkOn f nsg es (modWalk nsg es (fun _ => w2) d2)
        | (none, d2) => d2
    | _, _ => d

/-- The deletion walks of every namespace go on, one at a time each, in Delete order (R448). -/
def pumpWalks (d : Dev) : Dev :=
  forEach (dedup (d.nvm.walks.map (·.nsg))) (fun nsg d => match d.nvm.walks.find? fun w => w.nsg == nsg with
    | some w => walkOn 1000000 nsg w.snap d
    | none => d) d

/-- DELETION_WALK_END (R448): the walk has visited everything; SNAP_FREED is emitted. -/
def deletionWalkEnd (nsg : Nat) (d : Dev) : Dev :=
  match d.ns nsg, d.nvm.walks.find? fun w => w.nsg == nsg with
  | some n, some w =>
    match n.snaps.find? fun s => s.epoch == w.snap with
    | some s =>
      if w.started && w.todo.isEmpty && w.leaf.isNone && !w.freed then
        walkGroup ⟨0x14, nsg, s.id, s.epoch, 0, 0⟩ n.inst (dropFetched (modWalk nsg w.snap (fun w => { w with freed := true }) d))
      else d
    | none => d
  | _, _ => d

end Sys2Proof.Machine
end

