-- ==== Sys2Proof/Machine/LinkResp.lean ====
section
/-! DEFINITION. What comes over the media links: control blocks, responses to reads, programs, erases, status and superblock commands,
training and bring-up (10_media_link). -/

namespace Sys2Proof.Machine

/-- Change the anchor being cut. -/
def modCut (f : AnchorCut → AnchorCut) (d : Dev) : Dev := { d with map := { d.map with cut := d.map.cut.map f } }

/-- Change eviction slots. -/
def modSlots (f : EvSlot → EvSlot) (d : Dev) : Dev :=
  { d with map := { d.map with evb := d.map.evb.map fun e => (e.1, f e.2) } }

/-- One copy of the ring records of a journal page has been programmed. -/
def journalProgrammed (first last : Nat) (d : Dev) : Dev :=
  let n := (last + 2 ^ 32 - first) % 2 ^ 32 + 1
  let up := fun (t : Tab RingRec) (i : Nat) =>
    match tabFind t ((first + i) % 2 ^ 32) with
    | some r => tabPut t ((first + i) % 2 ^ 32) { r with programmed := r.programmed + 1 }
    | none => t
  { d with write := { d.write with ring := (List.range n).foldl up d.write.ring } }

/-- Set a witness register to a value, from whatever it holds (R330, R500, R503, R509). -/
def casWitness (m i v : Nat) (d : Dev) : Dev :=
  mediaCmd m 0x0A 0 i (tabGet 0 (d.link m).witness i) (leBytes 8 v ++ zeros 24) (.witness i)
    { d with per := { d.per with wanted := d.per.wanted.filter (fun w => !(w.1 == m && w.2.1 == i)) ++ [(m, i, v)] } }

/-- A copy of stream M has been programmed (R245, R248, R272): a journal page's records, an eviction slot's copy, an anchor's copy, a page of
the block table. -/
def unitProgrammed (loc : Nat) (u : MUse) (d : Dev) : Dev :=
  match u with
  | .journal first last => journalProgrammed first last d
  | .page key _ => modSlots (fun s =>
      if s.key == key && s.placed && (s.locA == loc || s.locB == loc) then { s with programmed := s.programmed + 1 } else s) d
  | .anchor seq _ => modCut (fun c => if c.seq = seq then { c with programmed := c.programmed + 1 } else c) d
  | .mediaAnchor seq _ => modCut (fun c => if c.seq = seq then { c with mediaProgrammed := c.mediaProgrammed + 1 } else c) d
  | .blockTable _ _ => modCut (fun c => { c with btLeft := c.btLeft - 1 }) d
  | .summary _ _ => d
  | .proxy kind _ => casWitness (bitsAt loc 36 5) (2 * (kind + 1) + (1 - d.headNum)) loc d
  | .keyStore q _ => match d.sec.writing with
    | some w => if w.kseq = q then { d with sec := { d.sec with writing := some { w with left := w.left - 1 } } } else d
    | none => d

/-- Location of unit `i` of a stream M page (R236). -/
def unitLoc (m addr i : Nat) : Nat := addr / 16 + i + m * 2 ^ 36

/-- Replace a location wherever a pointer in the head's state names it. -/
def replaceLoc (u : MUse) (old new : Nat) (d : Dev) : Dev :=
  let r := fun (x : Nat) => if x = old then new else x
  match u with
  | .page key _ => modSlots (fun s => if s.key == key && s.placed then { s with locA := r s.locA, locB := r s.locB } else s) d
  | .anchor seq _ => modCut (fun c => if c.seq = seq then { c with mapLocs := c.mapLocs.map r } else c) d
  | .mediaAnchor seq _ => modCut (fun c => if c.seq = seq then { c with medLocs := c.medLocs.map r } else c) d
  | .blockTable _ _ => { d with med := { d.med with btPtrs := d.med.btPtrs.map fun e => (e.1, { e.2 with a := r e.2.a, b := r e.2.b }) } }
  | _ => d

/-- A unit of stream M whose page failed goes to another page of the same module (R257, R282); a summary run is written anew. -/
def moveUnit (m old : Nat) (u : MUse) (b : Bytes) (d : Dev) : Dev :=
  let d0 := dropUnit old d
  match u with
  | .summary _ _ => rewriteUse u d0
  | .keyStore _ _ => rewriteUse u d0
  | _ => match assignM m u b d0 with
    | some (loc, d1) => replaceLoc u old loc d1
    | none => rewriteUse u d0

/-- Flash pages a program command names with their bytes: index of the page, its plane, its 16 KiB (R321). -/
def progPages (c : LinkCmd) : List (Nat × Nat × Bytes) :=
  if c.opcode = 3 then [(c.arg0 / 64, 0, slice c.payload 0 16384)]
  else
    let qs := (List.range 4).filter fun q => bitAt c.arg1 q
    ((List.range qs.length).zip qs).map fun e => (c.arg0 / 64 + e.2, e.2, slice c.payload (16384 * e.1) 16384)

/-- One program fewer is queued on a module for the streams. -/
def unqueue (m : Nat) (d : Dev) : Dev := d.modModule m fun x => { x with queued := x.queued - 1 }

/-- A solo batch's program has ended (R307): with the last one of a failed attempt, the SLC erase blocks of its pair close and the batch is
written again to a new pair. -/
def soloProgrammed (seq : Nat) (ok : Bool) (d : Dev) : Dev :=
  match d.write.batches with
  | [] => d
  | b :: rest =>
    if b.seq ≠ seq then d
    else
      let b1 := { b with left := b.left - 1, failed := b.failed || !ok }
      let d1 : Dev := { d with write := { d.write with batches := b1 :: rest } }
      if b1.failed && b1.left == 0 then
        let d2 := closeSolo b.modules.2 (closeSolo b.modules.1 d1)
        match soloPair d2 with
        | some mods => writeBatch b1 mods d2
        | none => d2
      else d1

/-- Mark gathered pages of a garbage-collection stream. -/
def markGather (m : Nat) (ps : List Nat) (st : Nat) (d : Dev) : Dev :=
  d.modModule m fun x => { x with gPages := x.gPages.map fun e => if ps.contains e.1 then (e.1, { e.2 with state := st }) else e }

/-- Own staging pages bound to flash pages of a module. -/
def stagesOn (d : Dev) (m : Nat) (ps : List Nat) (pages : List Nat) : List Nat :=
  pages.filter fun p => (d.stage p).module == m && ps.contains ((d.stage p).flash / 64)

/-- A program has ended, well on some of its pages and badly on others (R282): what it was for goes on. `retire` is false where the outcome
is unknown (R336, R603). -/
def programEnded (m : Nat) (c : LinkCmd) (good bad : List (Nat × Nat × Bytes)) (retire : Bool) (d : Dev) : Dev :=
  let gs := good.map (·.1)
  let bs := bad.map (·.1)
  match c.work with
  | .staging pages =>
    let d1 := forEach (stagesOn d m gs pages) (fun p d => mirrorDesc p (d.modStage p fun s => { s with state := 4 })) (unqueue m d)
    let d2 := pagesWritten m (good.map fun e => (e.1, e.2.2)) d1
    forEach bs (fun p d => programFailed m p retire d)
      (forEach (stagesOn d m bs pages) (fun p d => mirrorDesc p (d.modStage p fun s => { s with state := 2 })) d2)
  | .gc _ pages =>
    let d1 := markGather m (pages.filter gs.contains) 3 (markGather m (pages.filter bs.contains) 1 (unqueue m d))
    forEach bs (fun p d => programFailed m p retire d) (pagesWritten m (good.map fun e => (e.1, e.2.2)) d1)
  | .mUnits _ addr uses =>
    let us := (List.range uses.length).zip uses
    let d1 := unqueue m d
    if bad.isEmpty then
      forEach us (fun e d => unitProgrammed (unitLoc m addr e.1) e.2 d) (pagesWritten m (good.map fun e => (e.1, e.2.2)) d1)
    else
      let k := d.blkOf m addr
      let filling := match (d1.module m).mPage with
        | some p => if d1.blkOf m p.addr = k then (List.range p.units.length).zip p.units |>.map fun e => (unitLoc m p.addr e.1, e.2.1, e.2.2)
            else []
        | none => []
      let d2 := forEach bs (fun p d => programFailed m p retire d)
        (if filling.isEmpty then d1 else d1.modModule m fun x => { x with mPage := none })
      forEach (us.map (fun e => (unitLoc m addr e.1, e.2, slice c.payload (4096 * e.1) 4096)) ++ filling)
        (fun e d => moveUnit m e.1 e.2.1 e.2.2 d) d2
  | .solo seq =>
    let k := d.blkOf m c.arg0
    let die := c.arg0 / 64 / (d.module m).planes % 16
    let d1 := unqueue m d
    soloProgrammed seq bad.isEmpty (if bad.isEmpty || !retire then d1 else retireDie k die (d1.err R.E_MED_PROG_FAIL))
  | .adopted p => if bad.isEmpty then { d with per := { d.per with releasing := d.per.releasing ++ [(p, none)] } } else d
  | .plaSection copy => { d with med := { d.med with pla := { d.med.pla with
      left := tabPut d.med.pla.left copy (tabGet 0 d.med.pla.left copy - 1) } } }
  | .plaTrailer copy => { d with med := { d.med with pla := { d.med.pla with trailers := d.med.pla.trailers ++ [copy] } } }
  | _ => d

/-- Reads of a module that this head knows and that has not failed go through the peer while its link is down (R164). -/
def syncPeerReads (m : Nat) (d : Dev) : Dev :=
  let away := !d.linkUp m && d.linkPhase m != lpRetrain && d.peerUp
  d.setF ⟨R.MED_LINK_PEER, m, 1⟩ (b2n (away && (d.module m).known && !d.getB (R.MED_M_STATE_FAILED m)))

/-- A link goes down with a cause, and what was outstanding on it ends (R336): reads go through the peer, programs count as failed with no
die retired. -/
def linkGone (m cause : Nat) (d : Dev) : Dev :=
  let wasUp := d.linkPhase m = lpUp ∨ d.linkPhase m = lpRetrain
  let r := linkDown m cause d
  let d1 := if wasUp then (r.2.setB (R.MED_M_STATE_IN_SERVICE m) false).modModule m fun x => { x with unavail := some d.now } else r.2
  let d2 := forEach r.1 (fun c d =>
    if c.opcode = 1 ∨ c.opcode = 2 then readElsewhere m (c.arg0 % 2 ^ 40) (bitsAt c.arg0 40 7) c.work d
    else programEnded m c [] (progPages c) false d) d1
  syncMedia m (syncPeerReads m d2)

/-- A matching or length fault, or a response that says the Graold's frames are at fault (R328, R603). -/
def linkFault (m : Nat) (d : Dev) : Dev := linkGone m 3 (d.err (R.E_MED_L_LEN_ERR m))

/-- What the flags of every response bring about (R296, R300, R318): a worn physical block is retired, a failed module declared failed. -/
def respFlags (m : Nat) (c : LinkCmd) (r : MedResp) (d : Dev) : Dev :=
  let x := d.module m
  let dies := if c.opcode = 5 then (List.range 16).filter fun i => bitAt c.arg1 i else [c.arg0 % 2 ^ 40 / 64 / Nat.max 1 x.planes % 16]
  let d1 := if bitAt r.flags 0 && c.opcode ≤ 5 then forEach dies (retireDie (d.blkOf m (c.arg0 % 2 ^ 40))) d else d
  if (bitAt r.flags 2 || r.status == 8) && !d1.getB (R.MED_M_STATE_FAILED m) then failModule m 2 d1 else d1

/-- A command answered FENCED waits for the fence word (R501): witness 0 is read. -/
def holdFenced (m : Nat) (c : LinkCmd) (d : Dev) : Dev :=
  mediaCmd m 9 0 0 0 [] (.witness 0) (d.modLink m fun l => { l with fenced := l.fenced ++ [{ c with tag := 0 }] })

/-- Take a response and act on it unless it is a fault or was refused FENCED. -/
def onResponse (m : Nat) (ops : List Nat) (r : MedResp) (f : LinkCmd → Dev → Dev) (d : Dev) : Dev :=
  match fitResponse m ops r d with
  | .idle => d
  | .fault => linkFault m d
  | .taken c =>
    let d1 := takeResponse m c r d
    if r.status = 3 ∧ !exemptOp c.opcode then holdFenced m c d1 else f c (respFlags m c r d1)

/-- Work that a read was made for goes on. -/
def readGoesOn (w : MedWork) (d : Dev) : Dev :=
  match w with
  | .readChunk rd k _ => startUnseal rd k d
  | _ => d

/-- MEDIA_READ_RESPONSE (R163, R322, R323): bytes of a page with status 3 or 4 are lost; a failed module's are unavailable. -/
def mediaReadResponse (m : Nat) (r : MedResp) (d : Dev) : Dev :=
  onResponse m [1, 2] r (fun c d =>
    let st := if r.status = 8 then psUnavailable else r.pages.getD 0 0
    let d1 := (d.stat (R.MED_M_READS m) 1)
    let d2 := if st = 3 then d1.err (R.E_MED_M_UNCORR m) else d1
    readGoesOn c.work (recordRead c.work st (if psLost st then [] else r.payload) d2)) d

/-- PROGRAM_RESPONSE (R282, R322). -/
def programResponse (m : Nat) (r : MedResp) (d : Dev) : Dev :=
  onResponse m [3, 4] r (fun c d =>
    let ps := progPages c
    if r.status = 8 then programEnded m c [] ps false d
    else
      let bad := ps.filter fun e => r.pages.getD e.2.1 0 == 5
      programEnded m c (ps.filter fun e => r.pages.getD e.2.1 0 != 5) bad true d) d

/-- ERASE_RESPONSE (R270, R296, R322). -/
def eraseResponse (m : Nat) (r : MedResp) (d : Dev) : Dev :=
  onResponse m [5] r (fun c d => match c.work with
    | .erase k => if r.status = 0 then eraseOk k d else if r.status = 2 then eraseFailed k r.arg1 d else d
    | .slcErase k => if r.status = 2 then
        forEach ((List.range 16).filter fun i => bitAt r.arg1 i) (retireDie k) (d.err R.E_MED_ERASE_FAIL) else d
    | _ => d) d

/-- STATUS_POLL (R324): once every 1 ms on each link. -/
def statusPoll (m : Nat) (d : Dev) : Dev := if d.linkUp m then mediaCmd m 6 0 0 0 [] .none d else d

/-- STATUS_RESPONSE (R324): STATE 2 declares the module failed; a record with a bad CRC says nothing. -/
def statusResponse (m : Nat) (r : MedResp) (d : Dev) : Dev :=
  onResponse m [6] r (fun _ d =>
    let ok := fieldAt r.payload 60 4 == crcNat (slice r.payload 0 60)
    if ok && fieldAt r.payload 0 1 == 2 && !d.getB (R.MED_M_STATE_FAILED m) then failModule m 2 d else d) d

/-- SB_READ_RESPONSE (R329, R337): the page is kept. -/
def sbReadResponse (m : Nat) (r : MedResp) (d : Dev) : Dev :=
  onResponse m [7] r (fun c d => d.modLink m fun l => { l with sb := tabPut l.sb (c.arg0 % 4) r.payload }) d

/-- SB_WRITE_RESPONSE (R329): the page now stands in the superblock. -/
def sbWriteResponse (m : Nat) (r : MedResp) (d : Dev) : Dev :=
  onResponse m [8] r (fun c d => if r.status = 0 then d.modLink m fun l => { l with sb := tabPut l.sb (c.arg0 % 4) c.payload } else d) d

/-- PLW_RESPONSE (R333). -/
def plwResponse (m : Nat) (r : MedResp) (d : Dev) : Dev := onResponse m [0x0C] r (fun _ d => d) d

/-- ECHO_RESPONSE (R321). -/
def echoResponse (m : Nat) (r : MedResp) (d : Dev) : Dev := onResponse m [0x0D] r (fun _ d => d) d

/-- RESPONSE_TIMEOUT (R326): a response is more than twice its bound late. -/
def responseTimeout (m tag : Nat) (d : Dev) : Dev :=
  if (d.link m).tags.any fun c => c.tag == tag then linkGone m 2 (d.err (R.E_MED_L_TIMEOUTS m)) else d

/-- A retrain starts (R335): commands outstanding survive it. -/
def startRetrain (m : Nat) (d : Dev) : Dev :=
  if d.linkPhase m ≠ lpUp then d
  else (setPhase m lpRetrain (d.modLink m fun l => { l with idleRun := 0 })).err (R.E_MED_L_RETRAINS m)

/-- IDLE_BLOCK (R319, R335): a valid one counts towards lock; one in error is answered NAK. -/
def idleBlock (m : Nat) (ok : Bool) (d : Dev) : Dev :=
  let ph := d.linkPhase m
  if ph = lpLock ∨ ph = lpRetrain then d.modLink m fun l => { l with idleRun := if ok then l.idleRun + 1 else 0 }
  else if ok || ph != lpUp then d
  else ((d.err (R.E_MED_L_CRC_ERR m)).modLink m fun l => { l with discard := true }).emit (.mediaCtl m 3 (d.link m).lseqRx)

/-- MEDIA_FRAME_ERROR (R319): a frame or control block received in error is answered NAK, and blocks are discarded until the next SOF. -/
def mediaFrameError (m : Nat) (d : Dev) : Dev :=
  if d.linkPhase m ≠ lpUp then d
  else ((d.err (R.E_MED_L_CRC_ERR m)).modLink m fun l => { l with discard := true }).emit (.mediaCtl m 3 (d.link m).lseqRx)

/-- ACK (R319): frames up to an LSEQ are out of the replay buffer. -/
def mediaAck (m lseq : Nat) (d : Dev) : Dev :=
  d.modLink m fun l => { l with
    replay := l.replay.filter fun e => newerW 32 e.1 lseq
    replays := if l.replay.any (fun e => !newerW 32 e.1 lseq) then 0 else l.replays }

/-- NAK (R319): frames from an LSEQ on are sent again; at REPLAY_LIMIT replays of one frame a retrain is requested. -/
def mediaNak (m lseq : Nat) (d : Dev) : Dev :=
  if d.linkPhase m ≠ lpUp then d
  else
    let d1 := d.modLink m fun l => { l with
      replay := l.replay.filter fun e => e.1 == lseq || newerW 32 e.1 lseq
      replays := if l.replay.any (fun e => newerW 32 lseq e.1) then 0 else l.replays }
    let fs := (d1.link m).replay
    if fs.isEmpty then d1
    else
      let n := (d1.link m).replays + 1
      let d2 := forEach fs (fun e d => ((d.emit (.mediaCtl m 1 e.1)).emit
        (.media m e.2.tag e.2.opcode e.2.flags (d.fenceGen m) e.2.arg0 e.2.arg1 e.2.payload)).stat (R.MED_L_REPLAYS m) 1)
        (d1.modLink m fun l => { l with replays := n })
      if n ≥ d2.getF R.MED_LINK_CFG_REPLAY_LIMIT then startRetrain m (d2.modLink m fun l => { l with replays := 0 }) else d2

/-- Start the bring-up reads of a link that is Up (R337): superblock pages 0 to 3, then witness 0,
and with it the voter record (R503). -/
def bringUpReads (m : Nat) (d : Dev) : Dev :=
  forEach [0, 1] (fun i d => mediaCmd m 9 0 i 0 [] (.witness i) d) (forEach (List.range 4) (fun p d => mediaCmd m 7 0 p 0 [] (.superblock p) d) d)

/-- CREDIT (R320, R335): credits granted; in phase Credit they bring the link up. -/
def mediaCredit (m cmds units : Nat) (d : Dev) : Dev :=
  let ph := d.linkPhase m
  if ph ≠ lpCredit ∧ ph ≠ lpUp ∧ ph ≠ lpRetrain then d
  else
    let d1 := d.modLink m fun l => { l with cmdCred := l.cmdCred + cmds, dataCred := l.dataCred + units }
    if ph = lpCredit then
      let d2 := setPhase m lpUp (d1.modLink m fun l => { l with lseqTx := 0, lseqRx := 0, trainFails := 0 })
      syncLink m (pumpLink m (syncPeerReads m (bringUpReads m d2)))
    else syncLink m (pumpLink m d1)

/-- LINK_DETECTED (R335). -/
def linkDetected (m : Nat) (d : Dev) : Dev := if d.linkPhase m = lpDetect then setPhase m lpEqualise d else d

/-- EQUALISE_DONE (R335). -/
def equaliseDone (m : Nat) (d : Dev) : Dev :=
  if d.linkPhase m = lpEqualise then setPhase m lpLock (d.modLink m fun l => { l with idleRun := 0 }) else d

/-- BLOCK_LOCK (R335): lock is declared after 64 valid IDLE blocks in a row; a retrain ends with it. -/
def blockLock (m : Nat) (d : Dev) : Dev :=
  if (d.link m).idleRun < 64 then d
  else if d.linkPhase m = lpLock then
    (setPhase m lpIdent d).emit (.mediaCtl m 5 (0 + 1 * 256 + (d.per.head.getD 255) * 65536 + d.sec.fuses.deviceId * 2 ^ 24))
  else if d.linkPhase m = lpRetrain then pumpLink m (setPhase m lpUp d)
  else d

/-- A training of a link has failed (R336): three in a row, or RETRAIN_LIMIT failed retrains within 1 s, take the link down with cause TRAIN;
otherwise it starts again. -/
def trainFailed (m : Nat) (d : Dev) : Dev :=
  let ph := d.linkPhase m
  if ph = lpRetrain then
    let ts := (d.link m).retrainTimes.filter (fun t => d.now - t < 1000000000) ++ [d.now]
    let d1 := d.modLink m fun l => { l with retrainTimes := ts, idleRun := 0 }
    if ts.length ≥ d.getF R.MED_LINK_CFG_RETRAIN_LIMIT then linkGone m 1 d1 else d1.err (R.E_MED_L_RETRAINS m)
  else if ph = lpDown ∨ ph = lpUp then d
  else
    let n := (d.link m).trainFails + 1
    if n ≥ 3 then linkGone m 1 (d.modLink m fun l => { l with trainFails := 0 })
    else setPhase m lpDetect (d.modLink m fun l => { l with trainFails := n, idleRun := 0 })

/-- TRAIN (R334, R335): another link version, or two ends of one role, fail the link. -/
def mediaTrain (m role ver port id : Nat) (d : Dev) : Dev :=
  if d.linkPhase m ≠ lpIdent then d
  else if role ≠ 1 ∨ ver ≠ 1 then trainFailed m d
  else setPhase m lpCredit ((d.setF (R.MED_L_STATE_PORT m) port).modModule m fun x => { x with id := id })

/-- TRAINING_FAILED (R336). -/
def trainingFailed (m : Nat) (d : Dev) : Dev := trainFailed m d

/-- MEDIA_SIGNAL_LOSS (R336): the lane loses signal or block lock while the link is Up. -/
def mediaSignalLoss (m : Nat) (d : Dev) : Dev := if d.linkPhase m = lpUp then linkGone m 5 d else d

/-- LINK_RESTART_TIMER (R336): 10 ms after a link-down for any cause but HOST. -/
def linkRestartTimer (m : Nat) (d : Dev) : Dev :=
  if d.linkPhase m = lpDown ∧ !(d.link m).hostDown ∧ d.getF (R.MED_L_STATE_DOWN_CAUSE m) ≠ 0 then setPhase m lpDetect d else d

/-- LINK_RETRAIN (R335): the host retrains a link. -/
def linkRetrain (m : Nat) (d : Dev) : Dev := startRetrain m d

/-- MEDIA_LINK_DOWN (R336): the host takes a link down. -/
def mediaLinkDown (m : Nat) (d : Dev) : Dev :=
  if d.linkPhase m = lpDown then d.modLink m fun l => { l with hostDown := true } else linkGone m 4 d

/-- MEDIA_LINK_UP (R336, R338): bring-up starts after a HOST link-down. -/
def mediaLinkUp (m : Nat) (d : Dev) : Dev :=
  if d.linkPhase m = lpDown ∧ (d.link m).hostDown then setPhase m lpDetect (d.modLink m fun l => { l with hostDown := false }) else d

/-- MEDIA_BRINGUP_TIMEOUT (R337): a module whose link is not up 100 ms after step 7 began stays out of service. -/
def mediaBringupTimeout (m : Nat) (d : Dev) : Dev :=
  if d.linkUp m then d
  else (d.setB (R.MED_M_STATE_IN_SERVICE m) false).modModule m fun x => { x with unavail := some (x.unavail.getD d.now) }

/-- The geometry a superblock page 0 gives (R266, R329), laid over a module. -/
def sbGeometry (b : Bytes) (x : Module) : Module :=
  { x with
    id := fieldAt b 8 8, planes := fieldAt b 20 1, pages := fieldAt b 22 2, dies := fieldAt b 24 2, blocks := fieldAt b 28 4,
    slcPages := fieldAt b 32 2, spare := fieldAt b 36 4, eraseLimit := fieldAt b 40 4, readLimit := fieldAt b 44 4 }

/-- Show a module's geometry (R312). -/
def showGeometry (m : Nat) (d : Dev) : Dev :=
  let x := d.module m
  (((((d.setF (R.MED_M_GEOM_DIES m) x.dies).setF (R.MED_M_GEOM_PLANES_LOG2 m) (clog2 x.planes)).setF (R.MED_M_GEOM_PAGES_LOG2 m)
    (clog2 x.pages)).setF (R.MED_M_GEOM_W m) (addrBits x)).setF (R.MED_M_GEOM_BLOCKS m) x.blocks).setF (R.MED_M_GEOM_SLC_PAGES m) x.slcPages

/-- MEDIA_LINK_UP_DONE (R25, R266, R337): the superblock pages and witness 0 of a link that came up have been read. The module is taken
into service, rejected for its geometry, or left alone on the wrong lane. -/
def mediaLinkUpDone (m : Nat) (d : Dev) : Dev :=
  let l := d.link m
  if !d.linkUp m || l.barred || d.getB (R.MED_M_STATE_GEOM_REJECT m) || d.getB (R.MED_M_STATE_FAILED m) ||
      !(List.range 4).all (fun p => (tabFind l.sb p).isSome) || (tabFind l.witness 0).isNone then d
  else
    let p0 := tabGet [] l.sb 0
    let p1 := tabGet [] l.sb 1
    let x := sbGeometry p0 (d.module m)
    if !sbOk p0 || fieldAt p0 5 1 != 0 || !geomOk x (fieldAt p0 18 2) then
      (d.setB (R.MED_M_STATE_GEOM_REJECT m) true).postAt 0x1202 (sa 0x12 m 0 0) [m]
    else if sbOk p1 && fieldAt p1 16 1 != m then
      (d.modLink m fun l => { l with barred := true }).postAt 0x1201 (sa 0x12 m 0 0) [m, fieldAt p1 16 1]
    else
      let fresh := !(d.module m).known
      let d1 := d.modModule m fun y => { sbGeometry p0 y with known := true, unavail := none }
      let d2 := if fresh then d1.setF (R.MED_M_SPARE_LEVEL m) (x.spare / 2) else d1
      syncMedia m (syncPeerReads m (showGeometry m (d2.setB (R.MED_M_STATE_IN_SERVICE m) true)))

end Sys2Proof.Machine
end

