-- ==== Sys2Proof/Machine/FrontOps.lean ====
section
/-! DEFINITION. Front ports: frames, flow control, time stamping; rate control; the connection manager (R339 to R354). -/

namespace Sys2Proof.Machine

/-- A port is one of the configured ones and its link is up. -/
def Dev.portUp (d : Dev) (p : Nat) : Bool := decide (p < d.portCount) && d.getB (R.FRT_P_STATE_LINK_UP p)

/-- Send a frame that is no RoCEv2 packet, and count it. -/
def sendEth (p kind : Nat) (b : Bytes) (d : Dev) : Dev :=
  ((d.emit (.frame p kind b)).stat (R.FRT_P_TX_FRAMES p) 1).stat (R.FRT_P_TX_BYTES p) b.length

/-- MAC address of a port (R342), as the octets on the wire. -/
def portMac (d : Dev) (p : Nat) : Bytes := beBytes 6 (d.getF R.FRT_MAC_BASE_MAC + p)

/-- An IPv4 address of a port's own (R342). -/
def ownIp4 (d : Dev) (p ip : Nat) : Bool :=
  (List.range 4).any fun n => d.getB (R.FRT_P_IP4_VALID p n) && d.getF (R.FRT_P_IP4_ADDR p n) == ip
/-- An IPv6 address of a port's own (R342). -/
def ownIp6 (d : Dev) (p ip : Nat) : Bool :=
  (List.range 2).any fun n => d.getB (R.FRT_P_IP6_CTL_VALID p n) &&
    d.rd (R.FRT_P_IP6_HI p n) * 2 ^ 64 + d.rd (R.FRT_P_IP6_LO p n) == ip

/-- PFC on ROCE_PRIO by the port's lossless occupancy (R345): XOFF above the pool less 256 KiB per lane, XON below the pool less
512 KiB per lane. The occupancy comes with the frame, since how fast the buffer drains is timing (log entry 10). -/
def flowControl (p fill : Nat) (d : Dev) : Dev :=
  let lanes := (portLanes d p).length
  if fill > lanes * (2097152 - 262144) ∧ !d.getB (R.FRT_P_STATE_XOFF_SENT p) then
    (sendEth p 3 [1#8] (d.setB (R.FRT_P_STATE_XOFF_SENT p) true)).stat (R.FRT_P_XOFF_TX p) 1
  else if fill < lanes * (2097152 - 524288) ∧ d.getB (R.FRT_P_STATE_XOFF_SENT p) then
    sendEth p 3 [0#8] (d.setB (R.FRT_P_STATE_XOFF_SENT p) false)
  else d

/-- A RoCEv2 packet marked CE draws a CNP, at most one per queue pair in CNP_GAP_US (R347). -/
def answerCe (n : Nat) (d : Dev) : Dev :=
  let q := d.qp n
  let due := match q.lastCnp with
    | some t => decide (d.now - t ≥ d.getF R.TRN_CC_STEP_CNP_GAP_US * 1000)
    | none => true
  if q.st = .reset ∨ !due then d
  else ((d.emit (.packet n 0x81 0 q.dest 0 (zeros 16))).modQp n fun q => { q with lastCnp := some d.now }).stat R.TRN_CNP_TX 1

/-- What a good frame of each kind brings about (R341, R351). Frame kinds in the log: 0 ARP, 1 Neighbor Advertisement, 2 echo, 3 PFC,
4 PTP. -/
def takeFrame (p : Nat) (k : FrameKind) (d : Dev) : Dev :=
  let drop := d.stat (R.FRT_P_DROP_OTHER p) 1
  match k with
  | .arp ip => if ownIp4 d p ip then sendEth p 0 (portMac d p ++ beBytes 4 ip) d else drop
  | .neighbor ip => if ownIp6 d p ip then sendEth p 1 (portMac d p ++ beBytes 16 ip) d else drop
  | .echo4 ip b => if ownIp4 d p ip then sendEth p 2 b d else drop
  | .echo6 ip b => if ownIp6 d p ip then sendEth p 2 b d else drop
  | .ptp => d
  | .roce icrcOk supported ce n =>
    if !icrcOk then d.err R.E_TRN_ICRC_ERR
    else
      let d1 := d.stat R.TRN_RX_PKTS 1
      if !supported then d1.stat R.TRN_DROP_OTHER 1 else if ce then answerCe n d1 else d1
  | .other => drop

/-- FRAME_RECEIVE (R341, R345, R347, R351): `full` says that the share of the frame's lossy priority is full, `ipBad` that it is a
fragment or carries options or extension headers. -/
def frameReceive (p len tags prio fill : Nat) (fcsOk full ipBad : Bool) (k : FrameKind) (d : Dev) : Dev :=
  if !d.portUp p then d
  else if !fcsOk then d.err (R.E_FRT_P_FCS_ERR p)
  else
    let d1 := (d.stat (R.FRT_P_RX_FRAMES p) 1).stat (R.FRT_P_RX_BYTES p) len
    if len > 9216 ∨ tags ≥ 2 then d1.stat (R.FRT_P_DROP_OTHER p) 1
    else if prio ≠ d.getF R.FRT_CLASS_ROCE_PRIO ∧ full then d1.stat (R.FRT_P_DROP_LOSSY p) 1
    else if ipBad then d1.stat (R.FRT_P_DROP_OTHER p) 1
    else flowControl p fill (takeFrame p k d1)

/-- Transmission on ROCE_PRIO is paused or not. -/
def syncPause (p : Nat) (d : Dev) : Dev :=
  d.setB (R.FRT_P_STATE_PAUSED p) ((d.port p).pause.contains (d.getF R.FRT_CLASS_ROCE_PRIO))

/-- PFC_FRAME (R345): pauses a priority, or resumes it. -/
def pfcFrame (p prio : Nat) (pause : Bool) (d : Dev) : Dev :=
  if !d.portUp p then d
  else
    let d1 := d.modPort p fun x => { x with
      pause := if pause then (if x.pause.contains prio then x.pause else x.pause ++ [prio]) else x.pause.filter (· != prio) }
    syncPause p (if pause && prio == d.getF R.FRT_CLASS_ROCE_PRIO then d1.stat (R.FRT_P_XOFF_RX p) 1 else d1)

/-- PFC_PAUSE_EXPIRY (R345): the pause of a priority runs out. -/
def pfcPauseExpiry (p prio : Nat) (d : Dev) : Dev :=
  syncPause p (d.modPort p fun x => { x with pause := x.pause.filter (· != prio) })

/-- PFC_STORM (R346): ROCE_PRIO has been paused for STORM_MS. -/
def pfcStorm (p : Nat) (d : Dev) : Dev :=
  if d.portUp p && d.getB (R.FRT_P_STATE_PAUSED p) then
    portLinkDown p 2 ((d.postAt 0x0A01 (sa 0x0A p 0 0) [p]).err (R.E_FRT_P_STORMS p))
  else d

/-- PORT_LINK_DOWN (R343): the signal is lost, cause 1. -/
def portSignalLost (p : Nat) (d : Dev) : Dev := if d.portUp p then portLinkDown p 1 d else d

/-- PORT_LINK_UP (R343): training has ended on a port in bring-up. -/
def portLinkUp (p : Nat) (d : Dev) : Dev :=
  if decide (p < d.portCount) && (d.port p).bringUp && !d.getB (R.FRT_P_STATE_LINK_UP p) then
    forEach (portLanes d p) (fun j d => (d.setB (R.FRT_L_STATE_SIGNAL p j) true).setB (R.FRT_L_STATE_ALIGNED p j) true)
      ((d.setB (R.FRT_P_STATE_LINK_UP p) true).modPort p fun x => { x with bringUp := false })
  else d

/-- Front outputs are live (R550, R551, R555, R560): from the end of start step 7 on, in no other state than STARTING and SERVING; not while the port is
calibrated, or after two calibrations of it have failed. -/
def portLive (d : Dev) (p : Nat) : Bool :=
  let st := d.getF R.HTH_STATE_STATE
  (st == stServing || (st == stStarting && decide (d.getF R.HTH_STATE_STEP ≥ 8))) && !d.hth.calDown.contains (64 + p) &&
    !(d.hth.cal.kind == 1 && d.hth.cal.index == p && d.hth.cal.phase == 2)

/-- Bring-up of a port starts. -/
def startBringUp (p : Nat) (d : Dev) : Dev :=
  if decide (p < d.portCount) && !d.getB (R.FRT_P_STATE_LINK_UP p) && !(d.port p).hostDown && portLive d p then
    d.modPort p fun x => { x with bringUp := true }
  else d

/-- PORT_RESTART_TIMER (R343, R346): bring-up restarts after a link-down the host did not command. -/
def portRestartTimer (p : Nat) (d : Dev) : Dev := startBringUp p d

/-- PORT_DOWN (R380): the host takes the link down, cause 3. -/
def portDown (p : Nat) (d : Dev) : Dev :=
  if p ≥ d.portCount then d
  else (portLinkDown p 3 d).modPort p fun x => { x with hostDown := true, bringUp := false }

/-- PORT_UP (R380): bring-up starts after a HOST link-down. -/
def portUpCmd (p : Nat) (d : Dev) : Dev :=
  if (d.port p).hostDown then startBringUp p (d.modPort p fun x => { x with hostDown := false }) else d

/-- Show a measured offset and hand it to the Hearth, which follows a selected master (R350, R543). -/
def measuredOffset (ns : Int) (d : Dev) : Dev := steer (-ns) (d.setF R.FRT_PTP_OFFSET_NS (ns % 2 ^ 64).toNat)

/-- A 16-bit two's-complement correction in ns. -/
def asymNs (d : Dev) (p : Nat) : Int :=
  let v := d.getF (R.FRT_P_PTP_ASYM_NS p)
  if v ≥ 32768 then (v : Int) - 65536 else v

/-- Once the Sync's origin is known, a Delay_Req goes out, time-stamped (R349). -/
def sendDelayReq (p seq : Nat) (d : Dev) : Dev :=
  (sendEth p 4 (beBytes 2 seq) (d.modPort p fun x => { x with t3 := d.now })).stat (R.FRT_P_PTP_STAMPS p) 1

/-- PTP_EVENT_MESSAGE (R349, R350): kind 0 one-step Sync with its origin time, 1 two-step Sync, 2 Follow_Up with the origin time, 3
Delay_Resp with the time the Delay_Req arrived. Only the selected master's port feeds the offset; a change of master takes effect here.
The offset is IEEE 1588's: half of (t2 − t1) − (t4 − t3), less the asymmetry (PRESUMED, log entry 15). -/
def ptpEventMessage (p kind seq t : Nat) (d : Dev) : Dev :=
  if !d.portUp p || !d.getB (R.FRT_P_PTP_EN p) then d
  else if kind ≤ 1 then
    let d1 := if d.net.ptpPort == some p then (d.setF R.FRT_PTP_PORT p).setB R.FRT_PTP_LOCKED true else d
    let d2 := (d1.modPort p fun x => { x with
      syncSeq := some seq, t1 := if kind = 0 then some t else none, t2 := d.now }).stat (R.FRT_P_PTP_STAMPS p) 1
    if kind = 0 then sendDelayReq p seq d2 else d2
  else if (d.port p).syncSeq ≠ some seq then d
  else if kind = 2 then sendDelayReq p seq (d.modPort p fun x => { x with t1 := some t })
  else match (d.port p).t1 with
    | none => d
    | some t1 =>
      if !d.getB R.FRT_PTP_LOCKED || d.getF R.FRT_PTP_PORT != p then d
      else
        let x := d.port p
        let off : Int := (((x.t2 : Int) - t1) - ((t : Int) - x.t3)) / 2 - asymNs d p
        measuredOffset off (d.modPort p fun x => { x with syncSeq := none })

/-- The port with the best master among those enabled. -/
def bestMaster (d : Dev) : Option Nat :=
  ((List.range d.portCount).filter fun p => d.portUp p && d.getB (R.FRT_P_PTP_EN p)).foldl (fun b p =>
    match (d.port p).master, b with
    | none, _ => b
    | some _, none => some p
    | some r, some q => match (d.port q).master with
      | some s => if r < s then some p else b
      | none => some p) none

/-- PTP_ANNOUNCE (R350): `rank` is the dataset of the master in the order of the best-master comparison, lower being better. -/
def ptpAnnounce (p rank : Nat) (d : Dev) : Dev :=
  if !d.portUp p || !d.getB (R.FRT_P_PTP_EN p) then d
  else
    let d1 := d.modPort p fun x => { x with master := some rank }
    { d1 with net := { d1.net with ptpPort := bestMaster d1 } }

/-- CNP_RECEIVE (R347, R348). -/
def cnpReceive (n : Nat) (d : Dev) : Dev :=
  if (d.qp n).st = .reset ∨ isPeerQp n then d
  else (d.modQp n fun q => { q with cnps := q.cnps + 1 }).stat R.TRN_CNP_RX 1

/-- Rate of a port in bit/s (R339). -/
def portRate (d : Dev) (p : Nat) : Nat := (portLanes d p).length * 200000000000

/-- Rate and quiet intervals at the end of a control interval (R348), in bit/s, rounded down (log entry 14). -/
def nextRate (d : Dev) (q : Qp) : Nat × Nat :=
  let top := portRate d q.port
  if q.cnps > 0 then
    let cut := Nat.min q.cnps (d.getF R.TRN_CC_CUT_CAP) * d.getF R.TRN_CC_CUT
    (Nat.max (d.getF R.TRN_CC_RATE_MIN_100M * 100000000) (q.rate * (16 - cut) / 16), 0)
  else
    let calm := Nat.min (q.calm + 1) 255
    let hold := d.getF R.TRN_CC_HOLD
    if calm > hold then
      (Nat.min top (q.rate + Nat.min ((calm - hold) * (d.getF R.TRN_CC_STEP_STEP_100M * 100000000))
        (d.getF R.TRN_CC_STEP_STEP_MAX_100M * 100000000)), calm)
    else (q.rate, calm)

/-- CC_INTERVAL (R348). -/
def ccInterval (n : Nat) (d : Dev) : Dev :=
  let q := d.qp n
  if q.st = .reset ∨ isPeerQp n then d
  else d.modQp n fun x => { x with rate := (nextRate d q).1, calm := (nextRate d q).2, cnps := 0 }

/-- CM message kinds in the log of outputs: REQ 0, REP 1, RTU 2, REJ 3, MRA 4, DREQ 5, DREP 6. -/
def sendCm (kind localId remoteId arg : Nat) (d : Dev) : Dev := d.emit (.cm kind localId remoteId arg)

/-- The lowest free queue-pair context above the two that IBTA reserves; at most 1,024 are in Spread mode, at most RDMA_QP in use (R353,
R411). -/
def freeQp (d : Dev) (spread : Bool) : Option Nat :=
  if spread && decide ((d.net.qps.filter fun e => !isPeerQp e.1 && e.2.st != .reset && e.2.spread).length ≥ 1024) then none
  else if (d.net.qps.filter fun e => !isPeerQp e.1 && e.2.st != .reset).length ≥ d.limit 1 then none
  else (lowestBelow 16382 fun i => (d.qp (i + 2)).st == .reset).map (· + 2)

/-- Set a context up for a connection: the mode, the peer's queue pair, its initial PSN and ours from the TRNG (R353), the rate (R348). -/
def setupQp (n : Nat) (st : QpState) (spread : Bool) (p dest psn pmtu : Nat) (flush : Bool) (use : QpUse) (d : Dev) : Dev :=
  let r := d.drawNat (2 ^ 24)
  syncNet (r.2.modQp n fun q => { qpFresh with
    st := st, spread := spread, gen := q.gen, dest := dest, port := p, pmtu := pmtu, use := use, peerFlush := flush,
    sendPsn := r.1, ackPsn := r.1, recvPsn := psn % 2 ^ 24, rate := portRate d p })

/-- Add a connection. -/
def addConn (c : CmConn) (d : Dev) : Dev :=
  { d with net := { d.net with conns := d.net.conns ++ [c], nextCm := (d.net.nextCm + 1) % 2 ^ 32 } }

/-- Change a connection. -/
def modConn (id : Nat) (f : CmConn → CmConn) (d : Dev) : Dev :=
  { d with net := { d.net with conns := mapWhere (fun c => c.localId == id) f d.net.conns } }

/-- A connection by our identifier. -/
def Dev.conn (d : Dev) (id : Nat) : Option CmConn := d.net.conns.find? fun c => c.localId == id

/-- Drop a connection. -/
def dropConn (id : Nat) (d : Dev) : Dev := { d with net := { d.net with conns := d.net.conns.filter fun c => c.localId != id } }

/-- NVME_QP queues in use on this head (R411, R416): fabric I/O queues and slice queues. -/
def nvmeQueues (d : Dev) : Nat :=
  sumL (d.nvm.ctrls.map fun e => e.2.qids.length) + sumL ((d.nvm.slices.filter fun e => e.2.bound).map fun e => e.2.nq)

/-- The communication manager takes connections: from start step 11 on (R551), and not while the PORTS region is rebaked (R78). -/
def accepting (d : Dev) : Bool :=
  let st := d.getF R.HTH_STATE_STATE
  !rebaking d 4 0 && (st == stServing || (st == stStarting && decide (d.getF R.HTH_STATE_STEP ≥ 11)))

/-- A connection request for NVMe or for a listening stream (R352): REJ 8, invalid service ID, where the PORTS record does not list
the TCP port (PRESUMED, log entry 15); REJ 1 where no context is free, and for an I/O queue, which
the request's private data names, beyond NVME_QP (R414). A request seen before is answered again. -/
def cmAccept (remote p dest psn tcp pmtu qid : Nat) (spread flush : Bool) (use : QpUse) (d : Dev) : Dev :=
  match d.net.conns.find? fun c => c.passive && c.remoteId == remote && (d.qp c.qpn).dest == dest with
  | some c => sendCm 1 c.localId remote c.qpn d
  | none =>
    if !accepting d then sendCm 3 0 remote 1 d
    else if !(Config.listens (d.region 4 0) tcp || (match use with
      | .stream _ => true
      | _ => false)) then sendCm 3 0 remote 8 d
    else if qid ≠ 0 ∧ use = .none ∧ nvmeQueues d ≥ d.limit 2 then sendCm 3 0 remote 1 d
    else match freeQp d spread with
      | none => sendCm 3 0 remote 1 (d.err R.E_TRN_CM_REJ)
      | some n =>
        let id := d.net.nextCm
        sendCm 1 id remote n (addConn ⟨id, remote, n, true, false⟩ (setupQp n .rtr spread p dest psn pmtu flush use d))

/-- RTU (R352): the accepted connection is complete. -/
def cmRtu (id : Nat) (d : Dev) : Dev :=
  match d.conn id with
  | some c => if c.passive && (d.qp c.qpn).st == .rtr then pumpQp c.qpn (d.modQp c.qpn fun q => { q with st := .rts }) else d
  | none => d

/-- Open a connection (R352): the queue pair waits in INIT for the REP. -/
def cmOpen (p : Nat) (use : QpUse) (tcp : Nat) (d : Dev) : Option (Nat × Dev) :=
  (freeQp d true).map fun n =>
    let id := d.net.nextCm
    (n, sendCm 0 id 0 tcp (addConn ⟨id, 0, n, false, false⟩ (setupQp n .init true p 0 0 2 false use d)))

/-- REP (R352): the peer has accepted; the queue pair goes to RTS and an RTU is sent. -/
def cmRep (id remote dest psn : Nat) (spread : Bool) (d : Dev) : Dev :=
  match d.conn id with
  | some c =>
    if c.passive || (d.qp c.qpn).st != .init then d
    else
      let d1 := modConn id (fun x => { x with remoteId := remote }) d
      sendCm 2 id remote 0 (d1.modQp c.qpn fun q => { q with
        st := .rts, dest := dest, recvPsn := psn % 2 ^ 24, spread := spread })
  | none => d

/-- REJ (R352): a connection the head opened is refused; its context is reset. -/
def cmRej (id : Nat) (d : Dev) : Dev :=
  match d.conn id with
  | some c => if !c.passive && (d.qp c.qpn).st == .init then dropConn id (resetQp c.qpn d) else d
  | none => d

/-- MRA (R352) extends the wait for a reply: nothing the head holds changes, since the model keeps no clock for that wait. -/
def cmMra (_ : Nat) (d : Dev) : Dev := d

/-- Start to take a connection down. -/
def cmClose (n : Nat) (d : Dev) : Dev :=
  match d.net.conns.find? fun c => c.qpn == n && !c.closing with
  | none => d
  | some c => sendCm 5 c.localId c.remoteId 0 (qpError n
      (modConn c.localId (fun x => { x with closing := true }) d))

/-- DREQ (R352, R354): the connection is torn down, its context reset with a new generation. What was outstanding is flushed first
(R363). -/
def cmDreq (id : Nat) (d : Dev) : Dev :=
  match d.conn id with
  | some c =>
    let q := d.qp c.qpn
    let d1 : Dev := { d with net := { d.net with erred := d.net.erred ++ [(c.qpn, q.msgs.map (·.work))] } }
    dropConn id (resetQp c.qpn (sendCm 6 id c.remoteId 0 d1))
  | none => d

/-- DREP (R352): the disconnection the head began is complete. -/
def cmDrep (id : Nat) (d : Dev) : Dev :=
  match d.conn id with
  | some c => if c.closing then dropConn id (resetQp c.qpn d) else d
  | none => d

end Sys2Proof.Machine
end

