-- ==== Sys2Proof/Machine/RxOps.lean ====
section
/-! DEFINITION. Packets that arrive: Standard mode (R355 to R364), Spread mode (R365 to R376), memory windows (R377 to R379), and the
completion of messages. -/

namespace Sys2Proof.Machine

/-- Windows of the Peer link steward for the three mirrors, the forward landing and the bulk transfers (R497, R498); their numbers
are the model's choice (log entry 8). -/
def peerWindow (k : Nat) : Nat := k
/-- Window of a stream unit's receive staging (log entry 8). -/
def streamWindow (u : Nat) : Nat := 16 + u

/-- A page of the peer's mirror nothing has written. -/
def mirrorFresh : MirrorPage := ⟨zeros 32, []⟩

/-- Write bytes of one crumb of a mirror page. -/
def mirrorCrumb (p : MirrorPage) (c off : Nat) (b : Bytes) : MirrorPage :=
  { p with crumbs := tabPut p.crumbs c (overlay (tabGet (zeros 256) p.crumbs c) off b) }

/-- Write bytes into the peer's staging mirror at an offset, crumb by crumb (R498). -/
def placeMirror (off : Nat) (b : Bytes) (d : Dev) : Dev :=
  forEach (List.range ((off % 256 + b.length + 255) / 256)) (fun i d =>
    let a := if i = 0 then off else (off / 256 + i) * 256
    let part := (b.drop (a - off)).take (256 - a % 256)
    { d with per := { d.per with
      mirror := tabMod mirrorFresh d.per.mirror (a / 16384) fun p => mirrorCrumb p (a % 16384 / 256) (a % 256) part } }) d

/-- Write bytes into a mirror window or the DRAM a window covers (R378, R498). A mirror page is set to zero when its descriptor leaves the free
state (R149). -/
def placeWin (w va : Nat) (b : Bytes) (d : Dev) : Dev :=
  if w = peerWindow 0 then placeMirror va b d
  else if w = peerWindow 1 then
    { d with per := { d.per with mirror := tabMod mirrorFresh d.per.mirror (va / 32) fun p =>
      let q := overlay p.desc (va % 32) b
      ⟨q, if fieldAt p.desc 4 1 = 0 ∧ fieldAt q 4 1 ≠ 0 then [] else p.crumbs⟩ } }
  else if w = peerWindow 2 then
    forEach (List.range (b.length / 64)) (fun i d => { d with per := { d.per with
      journal := tabPut d.per.journal (va / 64 + i) (slice b (64 * i) 64) } }) d
  else d.memStore ((d.win w).base + va) b

/-- Bytes of a window (R378). -/
def readWin (d : Dev) (w va n : Nat) : Bytes := d.memBytes ((d.win w).base + va) n

/-- A message has ended at its requester: data of a read is covered, data of a write has landed or failed (R362), the mirror FLUSH covers
its JSNs (R150). `len` is what a READ asked for: responses of another length fail the command by length, a READ that ended in an error by the
transfer (R131, R403). -/
def endWork (ok : Bool) (w : MsgWork) (len : Nat) (b : Bytes) (d : Dev) : Dev :=
  match w with
  | .none => d
  | .readData cmd k => slotCovered cmd k d
  | .writeLand cmd off => landBytes cmd off (if !ok then stTransfer else if b.length = len then 0 else stSglLen) b d
  | .mirrorFlush j =>
    if !ok then d
    else if d.per.joinStep = 6 then { d with per := { d.per with joinStep := 7 } }
    else durableUpto j (d.stat R.PER_FLUSHES 1)

/-- A chunk's slot is returned by the last of its messages (R168, R169). -/
def moreOf (q : Qp) (w : MsgWork) : Bool :=
  match w with
  | .readData _ _ => q.msgs.any fun m => m.work == w
  | _ => false

/-- Report messages to their issuers. -/
def endMsgs (n : Nat) (ok : Bool) (l : List TxMsg) (d : Dev) : Dev :=
  forEach l (fun m d => if moreOf (d.qp n) m.work then d else endWork ok m.work m.len m.data d) d

/-- Report what is complete on a queue pair, and send what waits. -/
def reportDone (n : Nat) (d : Dev) : Dev :=
  let r := takeDone n d
  endMsgs n true r.1 r.2

/-- Hand the messages flushed by queue pairs in ERR to their issuers (R363): slots return, landings end with an error. -/
def drainErred (d : Dev) : Dev :=
  let l := d.net.erred
  forEach l (fun e d => forEach e.2 (fun w d => endWork false w 1 [] d) d) { d with net := { d.net with erred := [] } }

/-- A Standard-mode queue pair that takes packets (R354). -/
def rcLive (q : Qp) : Bool := !q.spread && (q.st == .rtr || q.st == .rts)
/-- A Spread-mode queue pair that takes packets. -/
def spLive (q : Qp) : Bool := q.spread && (q.st == .rtr || q.st == .rts)

/-- Send an acknowledgement of the newest PSN executed. -/
def sendAck (n : Nat) (d : Dev) : Dev :=
  let q := d.qp n
  (d.emit (.packet n 0x11 ((q.recvPsn + 2 ^ 24 - 1) % 2 ^ 24) 0 0 [])).modQp n fun q => { q with ackPending := 0 }

/-- Send a NAK with a syndrome at ePSN. -/
def sendNak (n syn : Nat) (d : Dev) : Dev := d.emit (.packet n 0x11 (d.qp n).recvPsn syn 0 [])

/-- NAK Invalid Request; the queue pair enters ERR (R362). -/
def rcInvalid (n : Nat) (d : Dev) : Dev := qpError n ((sendNak n 0x61 d).err R.E_TRN_INVALID_NAK)
/-- NAK Remote Access; the queue pair enters ERR (R378). -/
def rcAccess (n : Nat) (d : Dev) : Dev := qpError n ((sendNak n 0x62 d).err R.E_TRN_ACCESS_NAK)

/-- A packet was executed: ePSN goes on by `count`; an ACK after 16 packets or where AckReq asks for it (R358). -/
def rcExecuted (n count bytes : Nat) (ackReq : Bool) (d : Dev) : Dev :=
  let d1 := d.modQp n fun q => { q with
    recvPsn := (q.recvPsn + count) % 2 ^ 24, nakSent := false, ackPending := q.ackPending + 1,
    rxBytes := (q.rxBytes + bytes) % 2 ^ 64 }
  if ackReq || decide ((d1.qp n).ackPending ≥ 16) then sendAck n d1 else d1

/-- Where a packet's PSN lies (R358). -/
inductive PsnPlace where
  | expected | ahead | behind
  deriving DecidableEq, Repr

/-- Where a packet's PSN lies against ePSN. -/
def psnPlace (q : Qp) (psn : Nat) : PsnPlace :=
  if psn % 2 ^ 24 = q.recvPsn then .expected else if psnLt q.recvPsn psn then .ahead else .behind

/-- A packet of a Standard queue pair: executed, refused with one NAK per gap, or a duplicate (R358, R359). -/
def rcPacket (n psn : Nat) (run dup : Dev → Dev) (d : Dev) : Dev :=
  let q := d.qp n
  if !rcLive q then d
  else match psnPlace q psn with
    | .expected => run d
    | .ahead => if q.nakSent then d else (sendNak n 0x60 d).modQp n fun q => { q with nakSent := true }
    | .behind => dup d

/-- A duplicate whose payload is dropped (R359). -/
def rcDropDup (n : Nat) (d : Dev) : Dev := sendAck n (d.stat R.TRN_DUP_DROPS 1)

/-- Largest message the head receives (R351). -/
def maxMsg : Nat := 1048576

/-- Execute a SEND packet: a receive buffer is taken with the first one, RNR NAK where there is none (R361); the timer code is that
of the context, which the spec does not give (log entry 1). -/
def rcSend (n : Nat) (first last : Bool) (len : Nat) (ackReq : Bool) (d : Dev) : Dev :=
  let q := d.qp n
  if first && q.recvFree == 0 then
    let r := d.drawNat 32
    ((sendNak n (0x20 + r.1) r.2).stat R.TRN_RNR_TX 1).modQp n fun q => { q with nakSent := true }
  else
    let total := (if first then 0 else q.recvLen.getD 0) + len
    if total > maxMsg || (!first && q.recvLen.isNone) then rcInvalid n d
    else rcExecuted n 1 len ackReq (d.modQp n fun q => { q with
      recvFree := q.recvFree - b2n first, recvLen := if last then none else some total })

/-- RC_SEND_PACKET (R358, R359, R361, R362). -/
def rcSendPacket (n psn : Nat) (first last : Bool) (len : Nat) (ackReq : Bool) (d : Dev) : Dev :=
  rcPacket n psn (rcSend n first last len ackReq) (rcDropDup n) d

/-- Execute a WRITE packet (R362, R378): `key`, `va` and `len` are those of the RETH of a first packet. -/
def rcWrite (n : Nat) (first last : Bool) (key va len : Nat) (b : Bytes) (ackReq : Bool) (d : Dev) : Dev :=
  let q := d.qp n
  let k := if first then key else q.writeKey
  let a := if first then va else q.writeVa
  let left := if first then len else q.writeLeft
  if left > maxMsg || decide (b.length > left) || (last && b.length != left) then rcInvalid n d
  else if !winOk d n k a b.length 0 then rcAccess n d
  else rcExecuted n 1 b.length ackReq ((placeWin (k % 4096) a b d).modQp n fun q => { q with
    writeKey := k, writeVa := a + b.length, writeLeft := left - b.length })

/-- RC_WRITE_PACKET (R358, R359, R378). -/
def rcWritePacket (n psn : Nat) (first last : Bool) (key va len : Nat) (b : Bytes) (ackReq : Bool) (d : Dev) : Dev :=
  rcPacket n psn (rcWrite n first last key va len b ackReq) (rcDropDup n) d

/-- Send the responses of a READ from its window as it stands: one packet per path MTU (R351, R379). -/
def sendReadResponses (n psn key va len : Nat) (d : Dev) : Dev :=
  let u := mtuOf (d.qp n)
  let c := Nat.max 1 ((len + u - 1) / u)
  forEach (List.range c) (fun i d =>
    let b := readWin d (key % 4096) (va + i * u) (Nat.min u (len - i * u))
    countTx n b.length false (d.emit (.packet n (if c = 1 then 0x10 else if i = 0 then 0x0D else if i + 1 = c then 0x0F else 0x0E)
      ((psn + i) % 2 ^ 24) 0 0 b))) d

/-- RC_READ_REQUEST (R351, R359, R378): checked over its whole length; a duplicate is executed again. -/
def rcReadRequest (n psn key va len : Nat) (d : Dev) : Dev :=
  let ok := fun (d : Dev) => winOk d n key va len 1
  rcPacket n psn (fun d =>
    if len > maxMsg then rcInvalid n d
    else if !ok d then rcAccess n d
    else rcExecuted n (Nat.max 1 ((len + mtuOf (d.qp n) - 1) / mtuOf (d.qp n))) 0 false (sendReadResponses n psn key va len d))
    (fun d => if ok d then sendReadResponses n psn key va len d else rcAccess n d) d

/-- RC_FLUSH (R357, R359): every earlier WRITE has been placed; the answer takes the form of a READ response without data (PRESUMED,
log entry 15). -/
def rcFlush (n psn key va len : Nat) (d : Dev) : Dev :=
  let ok := fun (d : Dev) => winOk d n key va len 2
  let reply := fun (d : Dev) => countTx n 0 false (d.emit (.packet n 0x10 psn 0 0 []))
  rcPacket n psn (fun d => if ok d then rcExecuted n 1 0 false (reply d) else rcAccess n d)
    (fun d => if ok d then reply d else rcAccess n d) d

/-- RC_ATOMIC (R351, R362). -/
def rcAtomic (n psn : Nat) (d : Dev) : Dev := rcPacket n psn (rcInvalid n) (rcInvalid n) d

/-- ACK_TIMER (R358): 2 µs after an unacknowledged packet. -/
def ackTimer (n : Nat) (d : Dev) : Dev :=
  if rcLive (d.qp n) && decide ((d.qp n).ackPending > 0) then sendAck n d else d

/-- RC_ACK (R355): it covers every packet up to its PSN. -/
def rcAck (n psn : Nat) (d : Dev) : Dev := if rcLive (d.qp n) then reportDone n (coverUpto n psn d) else d

/-- The PSN before one. -/
def psnBefore (psn : Nat) : Nat := (psn + 2 ^ 24 - 1) % 2 ^ 24

/-- RC_NAK (R360): a sequence error makes the requester send again from its PSN; any other syndrome ends the queue pair. -/
def rcNak (n psn syn : Nat) (d : Dev) : Dev :=
  if !rcLive (d.qp n) then d
  else
    let d1 := reportDone n (coverUpto n (psnBefore psn) d)
    if syn = 0x60 then goBack n psn d1 else qpError n d1

/-- RNR_NAK (R361): at most RNR_RETRY waits, without limit where it is 7. -/
def rnrNak (n psn : Nat) (d : Dev) : Dev :=
  if !rcLive (d.qp n) then d
  else
    let d1 := reportDone n (coverUpto n (psnBefore psn) (d.stat R.TRN_RNR_RX 1))
    let lim := d1.getF R.TRN_STD_RNR_RETRY
    if lim ≠ 7 ∧ (d1.qp n).rnrCount ≥ lim then qpError n d1
    else d1.modQp n fun q => { q with rnrWait := true, rnrCount := q.rnrCount + 1 }

/-- The oldest packet not covered, or the next to send. -/
def oldestPsn (q : Qp) : Nat := (q.pkts.head?.map (·.psn)).getD q.sendPsn

/-- RNR_TIMER (R361): the requester sends again. -/
def rnrTimer (n : Nat) (d : Dev) : Dev :=
  let q := d.qp n
  if rcLive q && q.rnrWait then
    pumpQp n (goBack n (oldestPsn q) (d.modQp n fun q => { q with rnrWait := false }))
  else d

/-- RETRANSMIT_TIMEOUT (R360): timeout k without progress sends again from the oldest packet; the RETRY_CNT-th puts the queue pair
into ERR. The waits between them are the host's time (log entry 10). -/
def retransmitTimeout (n : Nat) (d : Dev) : Dev :=
  let q := d.qp n
  if !rcLive q || q.pkts.isEmpty then d
  else if q.timeouts + 1 ≥ d.getF R.TRN_STD_RETRY_CNT then qpError n d
  else goBack n (oldestPsn q) (d.modQp n fun q => { q with timeouts := q.timeouts + 1 })

/-- The READ a response PSN belongs to. -/
def readAt (q : Qp) (psn : Nat) : Option TxMsg :=
  q.msgs.find? fun m => m.sent && m.kind == .readReq && decide (psnSub psn m.first < m.count)

/-- A READ has ended with the bytes that arrived, `more` of them coming than it asked for: a short or long one fails by its length (R131,
R362). -/
def endRead (n : Nat) (more : Bool) (m : TxMsg) (d : Dev) : Dev :=
  let d1 := d.modQp n fun q => { q with
    msgs := q.msgs.filter fun x => x.msn != m.msn, pkts := q.pkts.filter fun p => p.msn != m.msn, timeouts := 0 }
  reportDone n (endWork true m.work m.len (if more then m.data ++ [0] else m.data) d1)

/-- RC_READ_RESPONSE (R355, R362): packets in order are taken; one ahead of a lost one makes the requester ask again from the READ. -/
def rcReadResponse (n psn : Nat) (last : Bool) (b : Bytes) (d : Dev) : Dev :=
  let q := d.qp n
  if !rcLive q then d
  else match readAt q psn with
    | none => d
    | some m =>
      let i := psnSub psn m.first
      let have' := m.data.length / mtuOf q
      if i < have' then d
      else if i > have' then goBack n (oldestPsn q) (modMsg n m.msn (fun m => { m with data := [] }) d)
      else
        let m1 := { m with data := m.data ++ b }
        let d1 := (modMsg n m.msn (fun _ => m1) (coverUpto n (psnBefore m.first) d)).modQp n fun q => { q with
          rxBytes := (q.rxBytes + b.length) % 2 ^ 64, timeouts := 0 }
        if last || decide (i + 1 ≥ m.count) then endRead n (!last && decide (m1.data.length = m.len)) m1 d1 else reportDone n d1

/-- The SACK header (R368). -/
def sackBytes (q : Qp) (path : Nat) (flushDone : Bool) : Bytes :=
  let bits := q.seen.foldl (fun v p => let i := psnSub p q.recvPsn; if i < 1024 then v + 2 ^ i else v) 0
  leBytes 4 q.recvPsn ++ leBytes 4 q.msnDone ++ leBytes 4 q.flushMsn ++ leBytes 4 (q.ssnDone + q.recvFree) ++
    leBytes 1 path ++ leBytes 1 (b2n flushDone) ++ zeros 6 ++ leBytes 128 bits

/-- Send a SACK on the path of the packet that caused it (R372). -/
def sendSack (n path : Nat) (flushDone : Bool) (d : Dev) : Dev :=
  let q := d.qp n
  (d.emit (.packet n 0xC3 q.recvPsn path (b2n flushDone) (sackBytes q path flushDone))).modQp n fun q => { q with
    lastSack := d.now, ackPending := 0 }

/-- Send a SACK at once, at most once per 1 µs (R372). -/
def sackSoon (n path : Nat) (d : Dev) : Dev :=
  let q := d.qp n
  if q.lastSack = 0 ∨ d.now - q.lastSack ≥ 1000 then sendSack n path false d else d

/-- BASE_PSN moves over everything received. -/
def advanceBase (fuel : Nat) (q : Qp) : Qp :=
  match fuel with
  | 0 => q
  | k + 1 => if q.seen.contains q.recvPsn then
      advanceBase k { q with seen := q.seen.filter (· != q.recvPsn), recvPsn := (q.recvPsn + 1) % 2 ^ 24 }
    else q

/-- Every PSN of a message has been received (R371). -/
def rxWhole (q : Qp) (m : RxMsg) : Bool :=
  (List.range m.count).all fun i =>
    let p := (m.first + i) % 2 ^ 24
    q.seen.contains p || psnLt p q.recvPsn

/-- Put a record into a list in JSN order from a JSN on. -/
def insertJsn (from' : Nat) (r : Nat × JRec × Nat) (l : List (Nat × JRec × Nat)) : List (Nat × JRec × Nat) :=
  let key := fun (j : Nat) => (j + 2 ^ 32 - from') % 2 ^ 32
  l.takeWhile (fun x => decide (key x.1 < key r.1)) ++ r :: l.dropWhile (fun x => decide (key x.1 < key r.1))

/-- Records in the mirror of the peer's journal above one JSN and up to another, in their order. -/
def journalBetween (d : Dev) (old new : Nat) : List (Nat × JRec × Nat) :=
  (d.per.journal.filterMap fun e => match parseRec e.2 with
    | some r => if r.1 % 1048576 == e.1 && jsnLt old r.1 && !jsnLt new r.1 then some r else none
    | none => none).foldl (fun l r => insertJsn old r l) []

/-- Deliver one message of a Spread queue pair: a SEND frees its buffer, a FLUSH draws its SACK; on the mirror queue pair a FLUSH moves COVERED
(R375, R498), and the groups it covers become visible for the pages this head owns (R242). -/
def deliverRx (n path : Nat) (m : RxMsg) (d : Dev) : Dev :=
  if m.failed then d
  else match m.kind with
    | .send => d.modQp n fun q => { q with ssnDone := (q.ssnDone + 1) % 2 ^ 32 }
    | .flush =>
      let d1 := d.modQp n fun q => { q with flushMsn := m.msn }
      let d2 := if n = peerQp 2 then
          let old := d1.getF R.PER_JSN_COVERED
          let new := m.va % 2 ^ 32
          if newerW 32 new old then
            forEach (journalBetween d1 old new) (fun r d => makeVisible true r.1 r.2.2 [r.2.1] d) (d1.setF R.PER_JSN_COVERED new)
          else d1
        else d1
      sendSack n path true d2
    | _ => d

/-- Deliver the messages of a Spread queue pair that are complete, in MSN order (R371). A failed one is passed over once its PSNs
are received (log entry 16). -/
def deliverAll (fuel n path : Nat) (d : Dev) : Dev :=
  match fuel with
  | 0 => d
  | k + 1 =>
    let q := d.qp n
    match q.rx.find? fun m => m.msn == (q.msnDone + 1) % 2 ^ 32 && rxWhole q m with
    | none => d
    | some m => deliverAll k n path (deliverRx n path m (d.modQp n fun q => { q with
        msnDone := m.msn, rx := q.rx.filter fun x => x.msn != m.msn }))

/-- PSNs a Spread message takes (R366). -/
def rxCount (len : Nat) : Nat := Nat.max 1 ((len + 4095) / 4096)

/-- Enter a message where its first packet arrives (R371). -/
def enterRx (n msn psn len off va : Nat) (k : MsgKind) (d : Dev) : Dev :=
  d.modQp n fun q => if q.rx.any fun m => m.msn == msn then q
    else { q with rx := q.rx ++ [⟨msn, k, (psn + 2 ^ 24 - off / 4096 % 2 ^ 24) % 2 ^ 24, rxCount len, len, va, false⟩] }

/-- Receive PSNs of a message: BASE_PSN moves, messages are delivered, a SACK goes out where R372 asks for one. -/
def receivePsns (n path : Nat) (ps : List Nat) (d : Dev) : Dev :=
  let q := d.qp n
  let new := ps.filter fun p => !q.seen.contains p && !psnLt p q.recvPsn
  let gap := new.any fun p => p != q.recvPsn && !q.seen.contains (psnBefore p) && q.seen.all fun s => psnLt s p
  let d1 := d.modQp n fun q => advanceBase 1024 { q with
    seen := q.seen ++ new, ackPending := q.ackPending + 1, sackPath := path }
  let d2 := deliverAll 1024 n path d1
  if (d2.qp n).ackPending ≥ 16 then sendSack n path false d2 else if gap then sackSoon n path d2 else d2

/-- Fail a message (R376): one SP_NAK, every PSN of it counts as received, nothing further of it is placed. -/
def spFail (n msn code path : Nat) (d : Dev) : Dev :=
  match (d.qp n).rx.find? fun m => m.msn == msn with
  | none => d
  | some m =>
    let d1 := (d.emit (.packet n 0xC4 m.first path code (leBytes 4 msn ++ leBytes 1 code ++ zeros 3))).err
      (if code = 1 then R.E_TRN_ACCESS_NAK else R.E_TRN_INVALID_NAK)
    receivePsns n path ((List.range m.count).map fun i => (m.first + i) % 2 ^ 24)
      (d1.modQp n fun q => { q with rx := mapWhere (fun x => x.msn == msn) (fun x => { x with failed := true }) q.rx })

/-- Consistency of a Spread packet (R370 step 3, R362). -/
def spConsistent (q : Qp) (k : MsgKind) (msn len off bytes : Nat) : Bool :=
  (match k with
    | .flush => len == 0 && off == 0 && bytes == 0
    | _ => decide (1 ≤ len ∧ len ≤ maxMsg ∧ off % 4096 = 0 ∧ off < len) && bytes == Nat.min 4096 (len - off)) &&
    q.rx.all fun m => m.msn != msn || m.len == len

/-- The message types of R497. -/
def knownMtypes : List Nat := [0x01, 0x02, 0x03, 0x04, 0x05, 0x08, 0x09, 0x0A, 0x0B, 0x0C, 0x0D, 0x0E, 0x10, 0x11, 0x18, 0x19, 0x1A,
  0x20, 0x21, 0x24, 0x25, 0x26, 0x27, 0x28, 0x30, 0x31, 0x32, 0x38, 0x39, 0x3A, 0x40, 0x41, 0x42, 0x43, 0x44, 0x45]

/-- The header of a message from the peer holds (R496): its CRC and its type. -/
def msgOk (b : Bytes) : Bool := fieldAt b 60 4 == crcNat (slice b 0 60) && knownMtypes.contains (fieldAt b 0 1)

/-- A message from the peer with a bad CRC or an unknown type is dropped, counted and reported (R496); its first packet carries the header. -/
def checkMsg (n off : Nat) (k : MsgKind) (b : Bytes) (d : Dev) : Dev :=
  if !isPeerQp n || k != .send || off != 0 || msgOk b then d else (d.err R.E_PER_MSG_ERR).post 0x1402 [fieldAt b 0 1]

/-- A packet of a Spread queue pair (R370): window, duplicate, consistency, access, placement, in this order. The mirror queue pair
takes nothing while mirror receive is closed (R499). -/
def spPacket (n psn msn len off key va path : Nat) (k : MsgKind) (b : Bytes) (d : Dev) : Dev :=
  let q := d.qp n
  if !spLive q || (n == peerQp 2 && !d.per.mirrorOpen) then d
  else if !psnLt psn q.recvPsn && decide (psnSub psn q.recvPsn ≥ 1024) then
    (if isPeerQp n then d else d.stat R.TRN_OOW_DROPS 1)
  else if psnLt psn q.recvPsn || q.seen.contains psn then
    sackSoon n path (if isPeerQp n then d else d.stat R.TRN_DUP_DROPS 1)
  else
    let d1 := enterRx n msn psn len off va k d
    if !spConsistent (d1.qp n) k msn len off b.length then spFail n msn 2 path d1
    else if k == .write && !winOk d1 n key (va + off) b.length 0 then spFail n msn 1 path d1
    else
      let d2 := if k == .write then placeWin (key % 4096) (va + off) b d1 else d1
      let d3 := checkMsg n off k b (if psn ≠ q.recvPsn ∧ !isPeerQp n then d2.stat R.TRN_OOO_PKTS 1 else d2)
      receivePsns n path [psn] (d3.modQp n fun q => { q with rxBytes := (q.rxBytes + b.length) % 2 ^ 64 })

/-- SP_WRITE (R370). -/
def spWrite (n psn msn len off key va path : Nat) (b : Bytes) (d : Dev) : Dev := spPacket n psn msn len off key va path .write b d
/-- SP_SEND (R370): its bytes go to the receive buffer of its SSN, and the whole message has a row of its own. -/
def spSend (n psn msn len off ssn path : Nat) (b : Bytes) (d : Dev) : Dev := spPacket n psn msn len off ssn 0 path .send b d
/-- SP_FLUSH (R375). -/
def spFlush (n psn msn len off va path : Nat) (d : Dev) : Dev := spPacket n psn msn len off 0 va path .flush [] d

/-- SACK_TIMER (R372): 2 µs after the first packet no SACK has covered. -/
def sackTimer (n : Nat) (d : Dev) : Dev :=
  let q := d.qp n
  if spLive q && decide (q.ackPending > 0) then sendSack n q.sackPath false d else d

/-- A loss on a path: four within 100 µs suspend it (R374). -/
def pathLoss (n path : Nat) (d : Dev) : Dev :=
  let p := tabGet pathFresh (d.qp n).paths path
  let l := (p.losses.filter fun t => decide (d.now - t < 100000)) ++ [d.now]
  let np : Path := if l.length ≥ 4 then ⟨true, []⟩ else ⟨p.suspended, l⟩
  d.modQp n fun q => { q with paths := tabPut q.paths path np }

/-- A packet counts as lost (R373): sent again at once on the next path, or the queue pair enters ERR after SPREAD_RETRY + 1 sendings. -/
def lostPkt (n : Nat) (p : TxPkt) (d : Dev) : Dev :=
  if (d.qp n).st ≠ .rts then d
  else
    let d1 := pathLoss n p.path d
    if p.sends ≥ d1.getF R.TRN_SPREAD_RETRY + 1 then qpError n d1 else resend n p (pathAfter d1 n (p.path + 1)) d1

/-- A SACK shows a packet received. -/
def sackCovers (base bits : Nat) (p : TxPkt) : Bool :=
  psnLt p.psn base || (decide (psnSub p.psn base < 1024) && bitAt bits (psnSub p.psn base))

/-- SP_SACK (R369, R373, R375): coverage, losses, FLUSH completions, the receive limit. -/
def spSack (n base msnDone flushMsn limit bits : Nat) (d : Dev) : Dev :=
  let q := d.qp n
  if !(q.spread && q.st == .rts) then d
  else
    let got := q.pkts.filter (sackCovers base bits)
    let rest := q.pkts.filter fun p => !sackCovers base bits p
    let reorder := d.getF R.TRN_SPREAD_REORDER_US * 1000
    let lost := rest.filter fun p => got.any fun g => decide (g.time ≥ p.time + reorder)
    let flushed := fun (m : TxMsg) => m.kind == .flush && m.sent && !newerW 32 m.msn flushMsn
    let d1 := d.modQp n fun q => { q with
      pkts := rest.filter fun p => q.msgs.all fun m => !(m.msn == p.msn && flushed m)
      msgs := q.msgs.filter fun m => !flushed m
      ackPsn := if psnLt q.ackPsn base then base % 2 ^ 24 else q.ackPsn
      doneRx := if newerW 32 msnDone q.doneRx then msnDone else q.doneRx
      recvLimit := if newerW 32 limit q.recvLimit then limit else q.recvLimit }
    forEach lost (lostPkt n) (reportDone n (endMsgs n true (q.msgs.filter flushed) d1))

/-- SP_NAK (R376): the message is reported failed to its issuer. -/
def spNak (n msn : Nat) (d : Dev) : Dev :=
  let q := d.qp n
  match q.msgs.find? fun m => m.msn == msn && m.sent with
  | none => d
  | some m =>
    let d1 := d.modQp n fun q => { q with
      msgs := q.msgs.filter fun x => x.msn != msn, pkts := q.pkts.filter fun p => p.msn != msn }
    pumpQp n (endMsgs n false [m] d1)

/-- SPREAD_RTO (R373): a packet has not been covered for SPREAD_RTO. -/
def spreadRto (n psn : Nat) (d : Dev) : Dev :=
  match (d.qp n).pkts.find? fun p => p.psn == psn with
  | some p => if (d.qp n).spread then lostPkt n p d else d
  | none => d

/-- PATH_RESUME (R374). -/
def pathResume (n path : Nat) (d : Dev) : Dev :=
  if isPeerQp n && !(upSublinks d).contains path then d else
  d.modQp n fun q => match tabFind q.paths path with
    | some p => { q with paths := tabPut q.paths path { p with suspended := false } }
    | none => q

/-- MW_REWRITE_COMPLETE (R379): every packet checked under the old state has been placed. -/
def mwRewriteComplete (w : Nat) (d : Dev) : Dev :=
  if (d.win w).rewriting then
    { d with net := { d.net with windows := tabPut d.net.windows w { d.win w with rewriting := false } } }
  else d

end Sys2Proof.Machine
end

