-- ==== Sys2Proof/Machine/SecOps.lean ====
section
/-! DEFINITION. The Security steward: the key store, epoch raises, the raw cipher service, the digest engine, the life cycle (R459 to R489). -/

namespace Sys2Proof.Machine

/-- Bytes of the mailbox. -/
def mboxBytes (d : Dev) (off n : Nat) : Bytes := slice ((List.range 32).flatMap fun k => leBytes 8 (d.rd (R.SEC_MBOX k))) off n
/-- Write bytes into the mailbox. -/
def writeMbox (off : Nat) (b : Bytes) (d : Dev) : Dev :=
  let m := overlay (mboxBytes d 0 256) off b
  forEach (List.range 32) (fun k d => d.wr (R.SEC_MBOX k) (fieldAt m (8 * k) 8)) d

/-- Life-cycle state from the fused word (R484): BLANK 0, PROVISIONED 1, FIELD 2, RETURNED 3. -/
def lcState (d : Dev) : Nat :=
  match d.sec.fuses.lc with
  | 0 => 0
  | 1 => 1
  | 3 => 2
  | _ => 3

/-- Bring the Security steward's registers up to date (R489). -/
def syncSec (d : Dev) : Dev :=
  let s := d.sec
  let d1 := ((((d.setF R.SEC_LC_STATE (lcState d)).setB R.SEC_LC_ROOT_VALID (s.fuses.root.isSome && !s.fuses.rootDestroyed)).setB
    R.SEC_LC_ROOT_DESTROYED s.fuses.rootDestroyed).setB R.SEC_LC_DBG_OPEN
      (s.dbgOpen || (lcState d == 0 && s.lcOp == 0))).setB R.SEC_LC_RETURN_PIN (!d.hth.dbgReturnL)
  let d2 := ((d1.setB R.SEC_LC_CHAL_LOCKED (decide (s.responds ≥ 3))).setF R.SEC_DEV_ID_DEVICE_ID s.fuses.deviceId).setF
    R.SEC_KEYSTORE_KSEQ ((s.store.map (·.kseq)).getD 0)
  (((d2.setF R.SEC_ARRAY_ARRAY_ID ((s.store.map (·.arrayId)).getD 0)).setB R.SEC_KEYSTORE_ROOT_HELD s.root.isSome).setB
    R.SEC_KEYSTORE_PAIRED s.paired).setB R.SEC_REPL_CMD_BUSY s.replBusy

/-- The store to be written: while a raise is in phase 1, with the domain's next epoch and WALK (R473). -/
def storeImage (d : Dev) (ks : KeyStore) : KeyStore :=
  match d.sec.raise with
  | some r =>
    if r.phase = 1 then
      let x := d.domain r.dom
      { ks with domains := tabPut ks.domains r.dom { x with epoch := r.old + 1, walk := true } }
    else ks
  | none => ks

/-- The key that wraps replication slots (R469). -/
def ksWrapKey (d : Dev) : Bytes := kdf (d.sec.root.getD []) 4 (kdfContext 0 0 0 0 0 (zeros 32)) 256

/-- The array root wrapped under the device root (R461). -/
def wrapRoot (d : Dev) (root : Bytes) : Bytes := kwWrap (kdf (d.sec.fuses.root.getD []) 5 (kdfContext 0 0 0 0 0 (zeros 32)) 256) root

/-- Units of a key store with what they are for. -/
def storeUnits (q : Nat) (b : Bytes) : List (MUse × Bytes) := (List.range 50).map fun i => (.keyStore q i, slice b (4096 * i) 4096)

/-- Start to write the key store to stream M on two modules, each copy one run (R463); it waits where two modules cannot take it. -/
def startStoreWrite (d : Dev) : Dev :=
  match d.sec.store, mModules d with
  | some ks, some (x, y) =>
    let us := storeUnits ks.kseq (storeBytes d.headNum (storeImage d ks) d.now (ksWrapKey d))
    (match placeRun x us 3 d with
    | none => d
    | some (a, d1) => match placeRun y us 3 d1 with
      | none => d
      | some (b, d2) =>
        let w : KsWrite := ⟨ks.kseq, 100, [x, y], [a, b]⟩
        programM y (programM x { d2 with sec := { d2.sec with writing := some w, rewrite := false } }))
  | _, _ => d

/-- Point witness 6 + h of a module at its copy (R463). -/
def storeWitness (m loc q : Nat) (d : Dev) : Dev :=
  let i := 6 + d.headNum
  mediaCmd m 0x0A 0 i (tabGet 0 (d.link m).witness i) (leBytes 8 loc ++ zeros 24) (.ksCas q m) d

/-- Units of the copies of an older store. -/
def dropStores (locs : List Nat) (d : Dev) : Dev :=
  forEach locs (fun l d => forEach (List.range 50) (fun i d => supersede (l + i) d) d) d

/-- The store write goes on (R463): both copies programmed, then both witnesses, then the old copies are released. -/
def pumpStore (d : Dev) : Dev :=
  match d.sec.writing with
  | none => if d.sec.rewrite then startStoreWrite d else d
  | some w =>
    if d.sec.rewrite then
      startStoreWrite (dropStores w.locs { d with sec := { d.sec with writing := none } })
    else if w.left = 0 then
      if w.cas.isEmpty then
        dropStores d.sec.ksLocs { d with sec := { d.sec with writing := none, ksLocs := w.locs } }
      else
        let asked := fun (m : Nat) => ((d.link m).tags ++ (d.link m).queue ++ (d.link m).fenced).any fun c => c.work == .ksCas w.kseq m
        forEach ((List.range 2).zip w.cas) (fun e d =>
          if asked e.2 then d else storeWitness e.2 (w.locs.getD (if w.cas.length = 2 then e.1 else
            if bitsAt (w.locs.getD 0 0) 36 5 = e.2 then 0 else 1) 0) w.kseq d) d
    else d

/-- The write of the key store is durable, and none waits. -/
def storeDurable (d : Dev) : Bool := d.sec.writing.isNone && !d.sec.rewrite

/-- A witness of the key store has been written, or holds another value: then it is written again over that value. -/
def storeCasDone (m : Nat) (ok : Bool) (value : Nat) (d : Dev) : Dev :=
  let i := 6 + d.headNum
  match d.sec.writing with
  | none => d
  | some w =>
    let loc := (w.locs.find? fun l => bitsAt l 36 5 == m).getD 0
    if ok || value == loc then
      pumpStore ({ d with sec := { d.sec with writing := some { w with cas := w.cas.filter (· != m) } } }.modLink m fun l => { l with
        witness := tabPut l.witness i loc })
    else storeWitness m loc w.kseq (d.modLink m fun l => { l with witness := tabPut l.witness i value })

/-- The plain key store that a TRANSFER carries: array root and units 0 to 49, with the wrapped fields in the clear. -/
def plainStore (d : Dev) (ks : KeyStore) : Bytes :=
  let root := slice (d.sec.root.getD []) 0 32
  let h := leBytes 4 0x5254534B ++ leBytes 1 1 ++ leBytes 1 d.headNum ++ zeros 2 ++ leBytes 4 ks.kseq ++ leBytes 4 ks.starts ++
    leBytes 8 ks.arrayId ++ leBytes 8 d.now ++ root ++ zeros 8 ++ zeros 56 ++
    ((List.range 64).flatMap fun j => match tabFind ks.repl j with
      | some s => leBytes 1 1 ++ zeros 7 ++ slice s 0 32 ++ zeros 8
      | none => zeros 48) ++ zeros 892
  root ++ h ++ leBytes 4 (crcNat h) ++ (List.range 49).flatMap (domainPage ks)

/-- Domains of a key store, from its 50 units. -/
def storeDomains (b : Bytes) : Tab Domain :=
  (List.range 49).flatMap fun p =>
    let page := slice b (4096 * (p + 1)) 4096
    (List.range 85).filterMap fun r =>
      let x := slice page (16 + 48 * r) 48
      let f := fieldAt x 2 1
      if fieldAt x 0 2 = 0 then none
      else some (p * 85 + r + 1, (⟨bitAt f 0, bitAt f 1, fieldAt x 4 4, slice x 8 32⟩ : Domain))

/-- Read the plain store of a TRANSFER: the array root and the key store, where the header verifies. -/
def readPlainStore (b : Bytes) : Option (Bytes × KeyStore) :=
  let u := b.drop 32
  if fieldAt u 0 4 ≠ 0x5254534B ∨ fieldAt u 4092 4 ≠ crcNat (slice u 0 4092) then none
  else
    let repl := (List.range 64).filterMap fun j =>
      if fieldAt u (128 + 48 * j) 1 = 1 then some (j, slice u (128 + 48 * j + 8) 32) else none
    some (slice b 0 32, ⟨fieldAt u 8 4, fieldAt u 12 4 % 2 ^ 25, fieldAt u 16 8, [], repl, storeDomains u⟩)

/-- Send the store to the peer (R465, R497): sealed under the transfer key with an IV of zeros. The spec names no other message that brings a
changed store to the peer (log entry 17). -/
def sendTransfer (d : Dev) : Dev :=
  match d.sec.store with
  | none => d
  | some ks =>
    let r := gcmSeal d.sec.xferKey (zeros 12) [] (plainStore d (storeImage d ks))
    sendPeer 0x04 0 [] (r.1 ++ r.2) d

/-- The store changes: the next KSEQ, written here and, while the peer is in service, there (R463, R473, R489). -/
def changeStore (f : KeyStore → KeyStore) (d : Dev) : Dev :=
  match d.sec.store with
  | none => d
  | some ks =>
    let d1 : Dev := { d with sec := { d.sec with store := some { f ks with kseq := (ks.kseq + 1) % 2 ^ 32 }, rewrite := true } }
    pumpStore (syncSec (if d1.peerUp then sendTransfer d1 else d1))

/-- Change a domain of the store, without writing it. -/
def modDomain (n : Nat) (f : Domain → Domain) (d : Dev) : Dev :=
  match d.sec.store with
  | none => d
  | some ks => { d with sec := { d.sec with store := some { ks with domains := tabPut ks.domains n (f (d.domain n)) } } }

/-- Show a raise. -/
def showRaise (d : Dev) : Dev :=
  match d.sec.raise with
  | some r => (d.setF R.SEC_DOMAIN_STATUS_DOMAIN r.dom).setF R.SEC_DOMAIN_STATUS_PHASE r.phase
  | none => d.setF R.SEC_DOMAIN_STATUS_PHASE 0

/-- Change the raise. -/
def modRaise (f : Raise → Raise) (d : Dev) : Dev :=
  showRaise { d with sec := { d.sec with raise := d.sec.raise.map f } }

/-- Start a raise of a domain at its first phase. -/
def startRaise (n : Nat) (d : Dev) : Dev :=
  let r : Raise := ⟨n, (d.domain n).epoch, 1, 0, [], 0, []⟩
  showRaise { d with sec := { d.sec with raise := some r } }

/-- RAISE (R473, R475). A raise of another domain that has not ended refuses it as BUSY too (log entry 18). -/
def raiseCmd (n : Nat) (d : Dev) : Dev :=
  let refuse := fun (e : Nat) => (d.setF R.SEC_DOMAIN_STATUS_DOMAIN n).setF R.SEC_DOMAIN_STATUS_ERR e
  if !d.inService then refuse 3
  else if !(d.domain n).inUse then refuse 2
  else if (d.domain n).walk || d.sec.raise.isSome then refuse 1
  else changeStore id (startRaise n (d.setF R.SEC_DOMAIN_STATUS_ERR 0))

/-- Work that still uses the epoch being retired (R473 phase 3): commands accepted before the switch, tickets that name it. -/
def oldEpochWork (d : Dev) (r : Raise) : Bool :=
  d.write.cmds.any (fun c => c.dom == r.dom && c.epoch == r.old) ||
    d.read.cmds.any (fun c => c.dom == r.dom && decide (c.h.id < r.mark)) ||
    d.tray.outst.any fun o => (o.tk.pers == pDigest || o.tk.pers == pSeal || o.tk.pers == pUnseal) &&
      (argsB o.tk == keyIndex 1 r.dom r.old || argsB o.tk == keyIndex 2 r.dom r.old)

/-- Namespaces of a domain's instances that this head serves. -/
def domainNs (d : Dev) (dom : Nat) : List Nat :=
  (d.nvm.namespaces.filter fun e => !e.2.deleting && d.serves e.2.inst && d.getF (R.INS_I_DOMAIN_DOMAIN e.2.inst) == dom).map (·.1)

/-- Write zero chunks over part of a namespace for the head itself (R301): the number of the write. -/
def zeroChunk (n : Ns) (chunk count : Nat) (d : Dev) : Nat × Dev :=
  let r := newId d
  let e : Sqe := ⟨8, 0, 0, 0, n.nsid, 0, 0, 0, 0, 4 * chunk % 2 ^ 32, 4 * chunk / 2 ^ 32, 4 * count - 1, 0, 0, 0⟩
  let h : CHead := ⟨r.1, .internal 0, e, [], false, n.nsg, n.inst, d.instGen n.inst, 0, d.now⟩
  (r.1, addWrite (wCmdNew r.2 h n (4 * chunk) (4 * count) true) true r.2)

/-- Chunks of a leaf whose content record is of a retired epoch (R473 phase 5); none while a page or record is not there. -/
def retiredIn (dom : Nat) (es : List (Nat × Nat)) (d : Dev) : Option (List Nat) × Dev :=
  es.foldl (fun s e => match s with
    | (none, d) => (none, d)
    | (some l, d) => match lookupRecord .media 0 dom e.2 d with
      | (.wait, d1) => (none, d1)
      | (.unavailable, d1) => (some l, d1)
      | (.val w, d1) =>
        let d2 := forgetRemote e.2 d1
        if recOk dom e.2 w.1 w.2 && (pickEpoch d2 dom (recEpoch w.1)).isNone then (some (l ++ [e.1]), d2) else (some l, d2))
    (some [], d)

/-- One leaf of the walk of a raise (R473 phase 5). -/
def raiseLeaf (r : Raise) (n : Ns) (d : Dev) : Bool × Dev :=
  match ensurePage mapFuel .media (mkKey n.nsg 0 r.pos) d with
  | (.wait, d1) => (false, d1)
  | (.unavailable, d1) => (true, modRaise (fun r => { r with pos := r.pos + 1 }) d1)
  | (.ready, d1) =>
    let es := ((d1.line (mkKey n.nsg 0 r.pos)).map fun l => (l.data.filter fun e => isHandle e.2).map fun e =>
      (512 * r.pos + e.1, e.2)).getD []
    match retiredIn r.dom es d1 with
    | (none, d2) => (false, d2)
    | (some l, d2) =>
      let z := l.foldl (fun (s : List Nat × Dev) c => let y := zeroChunk n c 1 s.2; (s.1 ++ [y.1], y.2)) ([], d2)
      (true, modRaise (fun r => { r with pos := r.pos + 1, wait := z.1 }) z.2)

/-- The walk of a raise goes on, leaf by leaf (R473 phase 5); a namespace is done with its last leaf. -/
def raiseWalk (fuel : Nat) (d : Dev) : Dev :=
  match fuel with
  | 0 => d
  | f + 1 => match d.sec.raise with
    | none => d
    | some r =>
      if r.phase ≠ 5 || r.wait.any (fun id => (d.wCmd id).isSome) then d
      else match r.nss with
        | [] => d
        | nsg :: rest => match d.ns nsg with
          | none => raiseWalk f (modRaise (fun r => { r with nss := rest, pos := 0 }) d)
          | some n =>
            if !n.snaps.isEmpty then d
            else if r.pos * 512 ≥ n.chunks then raiseWalk f (modRaise (fun r => { r with nss := rest, pos := 0 }) d)
            else
              let x := raiseLeaf r n d
              if x.1 then raiseWalk f x.2 else x.2

/-- RAISE_PHASE_END (R473): the phase ends where its condition holds, and the next begins. Namespaces' streams are halted by
`haltStreams`, given by its caller. -/
def raisePhase (haltStreams : Nat → Dev → Dev) (d : Dev) : Dev :=
  match d.sec.raise with
  | none => d
  | some r =>
    let go := fun (p : Nat) (d : Dev) => modRaise (fun r => { r with phase := p }) d
    if r.phase = 1 then
      if storeDurable d then
        go 2 d else d
    else if r.phase = 2 then
      go 3 (modRaise (fun r => { r with mark := d.nvm.nextCmd }) (modDomain r.dom (fun x => { x with epoch := r.old + 1, walk := true }) d))
    else if r.phase = 3 then (if oldEpochWork d r then d else (go 4 d).post 0x0404 [r.dom, r.old + 1])
    else if r.phase = 4 then
      let nss := domainNs d r.dom
      modRaise (fun r => { r with phase := 5, nss := nss })
        (forEach nss (fun n d => haltStreams n (deleteSnaps n d)) d)
    else if r.phase = 5 then
      if r.nss.isEmpty && !r.wait.any (fun id => (d.wCmd id).isSome) then
        changeStore id (modDomain r.dom (fun x => { x with walk := false }) (go 6 d))
      else raiseWalk 4096 d
    else if storeDurable d then showRaise { d with sec := { d.sec with raise := none } } else d

/-- A slot of a stream that is not IDLE (R489). -/
def slotInUse (d : Dev) (slot : Nat) : Bool :=
  (List.range 64).any fun u => d.getF (R.SNP_S_STATE_STATE u) != 0 && d.getF (R.SNP_S_KEY_KEY_CTX u) % 64 == slot

/-- REPL_SET and REPL_CLEAR (R489): a slot's secret is stored, or cleared, in both key stores. -/
def replWrite (slot : Nat) (set : Bool) (d : Dev) : Dev :=
  let s := slot % 64
  if d.sec.replBusy then d
  else if d.sec.root.isNone then d.setF R.SEC_REPL_CMD_ERR 1
  else if slotInUse d s then d.setF R.SEC_REPL_CMD_ERR 2
  else
    let b := mboxBytes d 0 32
    let d1 : Dev := { d with sec := { d.sec with replBusy := true } }
    let d2 := changeStore (fun ks => { ks with repl := if set then tabPut ks.repl s b else tabDel ks.repl s })
      (d1.setF R.SEC_REPL_CMD_ERR 0)
    if set then writeMbox 0 (zeros 256) d2 else d2

/-- What waits for the key store goes on. -/
def pumpSec (d : Dev) : Dev :=
  let d1 := pumpStore d
  let d2 : Dev := if d1.sec.replBusy && storeDurable d1 then { d1 with sec := { d1.sec with replBusy := false } } else d1
  syncSec (raiseWalk 64 d2)

/-- TRNG_TEST_FAIL (R477). -/
def trngTestFail (d : Dev) : Dev :=
  (((d.setB R.SEC_TRNG_FAILED true).setB R.SEC_TRNG_HEALTHY false).err R.E_SEC_TRNG_FAIL).post 0x0403 []

/-- TRNG_RESTART (R477): healthy once the tests have passed for 1 ms. -/
def trngRestart (ok : Bool) (d : Dev) : Dev :=
  if !d.getB R.SEC_TRNG_FAILED then d
  else if ok then (d.setB R.SEC_TRNG_FAILED false).setB R.SEC_TRNG_HEALTHY true else d

/-- A cipher context never used. -/
def cipherFresh : CipherCtx := ⟨zeros 32, 0, zeros 32, false, 0, none⟩
/-- A cipher context. -/
def Dev.cipher (d : Dev) (n : Nat) : CipherCtx := tabGet cipherFresh d.sec.ciphers n
/-- Change a cipher context. -/
def Dev.modCipher (d : Dev) (n : Nat) (f : CipherCtx → CipherCtx) : Dev :=
  { d with sec := { d.sec with ciphers := tabPut d.sec.ciphers n (f (d.cipher n)) } }

/-- State of a cipher context: IDLE 0, QUEUED 1, RUNNING 2, SUSPENDED 3, DONE 4, ERROR 5. -/
def ccState (d : Dev) (n : Nat) : Nat := d.getF (R.SEC_CC_STATUS_STATE n)

/-- Show which contexts run and wait (R489). -/
def syncCiphers (d : Dev) : Dev :=
  let run := (List.range 16).find? fun n => ccState d n == 2
  let wait := ((List.range 16).filter fun n => ccState d n == 1 || ccState d n == 3).foldl (fun v n => v + 2 ^ n) 0
  ((d.setF R.SEC_RC_STATE_RUNNING (run.getD 0)).setB R.SEC_RC_STATE_ACTIVE run.isSome).setF R.SEC_RC_STATE_WAITING wait

/-- End a cipher context in a state with an error code. -/
def endCipher (n st e : Nat) (d : Dev) : Dev :=
  syncCiphers (((d.setF (R.SEC_CC_STATUS_STATE n) st).setF (R.SEC_CC_STATUS_ERR n) e).modCipher n fun c => { c with
    aborting := false, block := none })

/-- The key of a context (R469, R478, R480): all its words loaded, or derived under the array root. -/
def cipherKey (d : Dev) (n : Nat) : Option Bytes :=
  let c := d.cipher n
  if d.getB (R.SEC_CC_CTL_KEY_SRC n) then
    d.sec.root.map fun r => kdf r 7 (kdfContext 0 0 0 n 0 c.hctx) 256
  else if c.keyWords = 15 then some c.key else none

/-- Fetch the next block of a running context by DMA, as the physical function without a PASID (R478). -/
def fetchBlock (n : Nat) (d : Dev) : Dev :=
  if !d.dmaOn then endCipher n 5 3 d
  else d.hostRead (.cipher n) (d.getF (R.SEC_CC_SRC_ADDR n) * 16 + 16 * d.getF (R.SEC_CC_DONE_BLOCKS n)) 16 none

/-- The context that runs next (R479): highest priority, then the earliest GO. -/
def nextCipher (d : Dev) : Option Nat :=
  ((List.range 16).filter fun n => ccState d n == 1 || ccState d n == 3).foldl (fun b n => match b with
    | none => some n
    | some m =>
      let p := d.getF (R.SEC_CC_CTL_PRIO n)
      let q := d.getF (R.SEC_CC_CTL_PRIO m)
      if p > q ∨ (p = q ∧ (d.cipher n).order < (d.cipher m).order) then some n else some m) none

/-- Run a context where none runs. -/
def runCipher (d : Dev) : Dev :=
  if (List.range 16).any fun n => ccState d n == 2 then syncCiphers d
  else match nextCipher d with
    | none => syncCiphers d
    | some n => syncCiphers (fetchBlock n (d.setF (R.SEC_CC_STATUS_STATE n) 2))

/-- CIPHER_GO (R479, R480): ignored unless IDLE, DONE or ERROR. A running context of lower priority yields at its block's end. -/
def cipherGo (n : Nat) (d : Dev) : Dev :=
  if [1, 2, 3].contains (ccState d n) then d
  else
    let d1 := (d.setF (R.SEC_CC_DONE_BLOCKS n) 0).setF (R.SEC_CC_STATUS_ERR n) 0
    if d1.getF (R.SEC_CC_COUNT_BLOCKS n) = 0 then endCipher n 5 4 d1
    else if (cipherKey d1 n).isNone then endCipher n 5 1 d1
    else
      let d0 := if d1.getB (R.SEC_CC_CTL_KEY_SRC n) then d1.stat R.SEC_DERIVES 1 else d1
      let d2 := (d0.setF (R.SEC_CC_STATUS_STATE n) 1).modCipher n fun c => { c with
        order := d1.sec.goCount, aborting := false, block := none }
      runCipher { d2 with sec := { d2.sec with goCount := d2.sec.goCount + 1 } }

/-- CIPHER_ABORT (R480): at the next block boundary; at once where no block is in progress. -/
def cipherAbort (n : Nat) (d : Dev) : Dev :=
  if ccState d n = 2 then d.modCipher n fun c => { c with aborting := true }
  else if ccState d n = 1 ∨ ccState d n = 3 then endCipher n 0 0 d
  else d

/-- CIPHER_KEY_WRITE (R478): a 64-bit word of the key, or of the derivation context. -/
def cipherKeyWrite (n k : Nat) (hctx : Bool) (v : Nat) (d : Dev) : Dev :=
  let b := leBytes 8 v
  d.modCipher n fun c =>
    if hctx then { c with hctx := overlay c.hctx (8 * k) b }
    else { c with key := overlay c.key (8 * k) b, keyWords := if bitAt c.keyWords k then c.keyWords else c.keyWords + 2 ^ k }

/-- The source block of a context has arrived, or its read failed (R480). -/
def cipherData (n : Nat) (b : Option Bytes) (d : Dev) : Dev :=
  if ccState d n ≠ 2 then d
  else match b with
    | none => runCipher (endCipher n 5 2 d)
    | some x => d.modCipher n fun c => { c with block := some x }

/-- CIPHER_BLOCK_DONE (R478, R479): the block goes to its destination; the context ends, is aborted, yields, or goes on. -/
def cipherBlockDone (n : Nat) (d : Dev) : Dev :=
  match (d.cipher n).block, cipherKey d n with
  | some b, some k =>
    if ccState d n ≠ 2 then d
    else
      let ks := aesKeys k
      let done := d.getF (R.SEC_CC_DONE_BLOCKS n)
      let out := if d.getB (R.SEC_CC_CTL_DIR n) then aesDec ks (slice b 0 16) else aesEnc ks (slice b 0 16)
      let d1 := (d.hostWrite (d.getF (R.SEC_CC_DST_ADDR n) * 16 + 16 * done) out none).modCipher n fun c => { c with block := none }
      let d2 := (d1.setF (R.SEC_CC_DONE_BLOCKS n) (done + 1)).stat R.SEC_RC_BLOCKS 1
      let prio := d2.getF (R.SEC_CC_CTL_PRIO n)
      let more := (List.range 16).any fun m => (ccState d2 m == 1 || ccState d2 m == 3) && decide (d2.getF (R.SEC_CC_CTL_PRIO m) > prio)
      if (d2.cipher n).aborting then runCipher (endCipher n 0 0 d2)
      else if done + 1 ≥ d2.getF (R.SEC_CC_COUNT_BLOCKS n) then runCipher (endCipher n 4 0 d2)
      else if more then runCipher (d2.setF (R.SEC_CC_STATUS_STATE n) 3)
      else fetchBlock n d2
  | _, _ => d

/-- Host DMA stopped, or an FLR (R480): every context not at rest ends in ERROR 03h; an FLR also clears keys and HCTX. -/
def stopCiphers (flr : Bool) (d : Dev) : Dev :=
  let d1 := forEach ((List.range 16).filter fun n => [1, 2, 3].contains (ccState d n)) (fun n => endCipher n 5 3) d
  if flr then { d1 with sec := { d1.sec with ciphers := [] } } else d1

/-- A digest context never used. -/
def digestFresh : DigestCtx := ⟨0, false, 0, false, [], [], false, false, 0, []⟩
/-- A digest context. -/
def Dev.digest (d : Dev) (n : Nat) : DigestCtx := tabGet digestFresh d.sec.digests n
/-- Change a digest context. -/
def Dev.modDigest (d : Dev) (n : Nat) (f : DigestCtx → DigestCtx) : Dev :=
  { d with sec := { d.sec with digests := tabPut d.sec.digests n (f (d.digest n)) } }
/-- The selected context (R481). -/
def dgSel (d : Dev) : Nat := d.getF R.SEC_DG_SEL_CTX

/-- The hash of an ALG code. -/
def dgAlg (a : Nat) : Sha2 := if a = 0 then sha256P else if a = 1 then sha384P else sha512P

/-- Set an error bit of a context: EARLY 0, OVERRUN 1, KEY 2, STATE 3. -/
def dgErr (n i : Nat) (d : Dev) : Dev :=
  d.modDigest n fun c => { c with errs := if bitAt c.errs i then c.errs else c.errs + 2 ^ i }

/-- One compression starts: BUSY, and the count. -/
def dgCompress (n : Nat) (d : Dev) : Dev := (d.modDigest n fun c => { c with busy := true }).stat R.SEC_DG_BLOCKS 1

/-- The key of an HMAC is complete: its block is compressed. -/
def dgKeyed (n : Nat) (d : Dev) : Dev :=
  let c := d.digest n
  if c.hmac && decide (c.key.length ≥ c.keyLen) then dgCompress n d else d

/-- DIGEST_INIT (R482): the write of SEC_DG_CTL with INIT. -/
def digestInit (alg : Nat) (mac : Bool) (keyLen : Nat) (d : Dev) : Dev :=
  let n := dgSel d
  let d1 := ((d.setF R.SEC_DG_CTL_ALG alg).setB R.SEC_DG_CTL_HMAC mac).setF R.SEC_DG_CTL_KEY_LEN keyLen
  let errs := (d1.digest n).errs
  let d2 := d1.modDigest n fun _ => { digestFresh with alg := alg, hmac := mac, keyLen := keyLen, errs := errs }
  if alg > 2 then dgErr n 3 d2
  else if mac && decide (keyLen > (dgAlg alg).block) then dgErr n 2 d2
  else dgKeyed n (d2.modDigest n fun c => { c with active := true })

/-- DIGEST_KEY_WRITE (R482). -/
def digestKeyWrite (w : Nat) (d : Dev) : Dev :=
  let n := dgSel d
  let c := d.digest n
  if c.busy then dgErr n 1 d
  else if !c.active || !c.hmac || decide (c.key.length ≥ c.keyLen) then dgErr n 3 d
  else dgKeyed n (d.modDigest n fun c => { c with key := (c.key ++ leBytes 4 w).take c.keyLen })

/-- A context takes message bytes: active, and the key of an HMAC complete. -/
def dgTakes (c : DigestCtx) : Bool := c.active && (!c.hmac || decide (c.key.length ≥ c.keyLen))

/-- DIGEST_DATA_WRITE (R482). -/
def digestDataWrite (w : Nat) (d : Dev) : Dev :=
  let n := dgSel d
  let c := d.digest n
  if c.busy then dgErr n 1 d
  else if !dgTakes c then dgErr n 3 d
  else
    let d1 := d.modDigest n fun c => { c with msg := c.msg ++ leBytes 4 w }
    if (c.msg.length + 4) % (dgAlg c.alg).block = 0 then dgCompress n d1 else d1

/-- DIGEST_FINAL (R482, R483): TAIL_BYTES of the tail, padding, the result. -/
def digestFinal (n tail : Nat) (d : Dev) : Dev :=
  let s := dgSel d
  let c := d.digest s
  if c.busy then dgErr s 1 d
  else if !dgTakes c then dgErr s 3 d
  else
    let m := c.msg ++ leBytes (n % 4) tail
    let h := dgAlg c.alg
    let out := if c.hmac then hmac h c.key m else sha h m
    let blocks := (shaPad h m.length).length + m.length
    let left := blocks / h.block - c.msg.length / h.block + (if c.hmac then 2 else 0)
    (d.modDigest s fun c => { c with msg := m, done := true, active := false, result := out }).stat R.SEC_DG_BLOCKS left

/-- Word `k` of the result (R483). -/
def dgWord (c : DigestCtx) (k : Nat) : Nat := if c.done then fieldAt c.result (4 * k) 4 else 0

/-- DIGEST_RESULT_READ (R483). -/
def digestResultRead (k : Nat) (d : Dev) : Dev :=
  let n := dgSel d
  let d1 := d.emit (.busRead (dgWord (d.digest n) k))
  if (d.digest n).done then d1 else dgErr n 0 d1

/-- COMPRESSION_DONE (R481): BUSY clears. -/
def compressionDone (n : Nat) (d : Dev) : Dev := d.modDigest (n % 8) fun c => { c with busy := false }

/-- A life-cycle command ends with an error code. -/
def lcErr (e : Nat) (d : Dev) : Dev := d.setF R.SEC_LC_STATUS_ERR e

/-- Start to program fuses for a life-cycle command: 1 PROVISION, 2 ENROLL, 3 FIELD_LOCK, 4 RETURN. -/
def lcStart (op slot : Nat) (data : Bytes) (d : Dev) : Dev :=
  let d1 := (lcErr 0 d).setB R.SEC_LC_STATUS_BUSY true
  syncSec { d1 with sec := { d1.sec with lcOp := op, lcSlot := slot, lcData := data } }

/-- A life-cycle command with CONFIRM (R486): ignored while one runs, refused with 02h for another CONFIRM. -/
def lcCommand (confirm : Nat) (f : Dev → Dev) (d : Dev) : Dev :=
  if d.sec.lcOp ≠ 0 then d else if confirm ≠ 0x5AC3 then lcErr 2 d else f d

/-- PROVISION (R486): debug closes, the device root is drawn. -/
def provision (confirm : Nat) (d : Dev) : Dev :=
  lcCommand confirm (fun d =>
    if lcState d ≠ 0 then lcErr 1 d
    else if d.getB R.SEC_TRNG_FAILED then lcErr 5 d
    else
      let r := d.drawBytes 32
      lcStart 1 0 r.1 r.2) d

/-- ENROLL (R485, R486): the hash in the mailbox goes into a key slot. -/
def enroll (confirm slot : Nat) (d : Dev) : Dev :=
  lcCommand confirm (fun d =>
    if lcState d ≥ 2 then lcErr 1 d
    else if slot = 0 ∨ slot > 3 ∨ (tabFind d.sec.fuses.hashes slot).isSome then lcErr 9 d
    else lcStart 2 slot (mboxBytes d 0 48) d) d

/-- FIELD_LOCK (R486). -/
def fieldLock (confirm : Nat) (d : Dev) : Dev :=
  lcCommand confirm (fun d => if lcState d ≠ 1 then lcErr 1 d else lcStart 3 0 [] d) d

/-- RETURN (R487): its checks in the order the rule lists them. -/
def returnCmd (confirm : Nat) (d : Dev) : Dev :=
  lcCommand confirm (fun d =>
    if lcState d ≠ 1 ∧ lcState d ≠ 2 then lcErr 1 d
    else if (List.range 1024).any (fun i => d.hasInst i && d.serves i) || d.rd R.CMQ_DIRTY_OWN != 0 then lcErr 4 d
    else if d.hth.dbgReturnL then lcErr 3 d
    else lcStart 4 0 [] d) d

/-- CHALLENGE (R488). -/
def challenge (d : Dev) : Dev :=
  if d.sec.lcOp ≠ 0 then d
  else if lcState d ≠ 3 then lcErr 1 d
  else if d.sec.responds ≥ 3 then lcErr 8 d
  else if d.getB R.SEC_TRNG_FAILED then lcErr 5 d
  else
    let r := d.drawBytes 32
    lcErr 0 (writeMbox 0 r.1 { r.2 with sec := { r.2.sec with nonce := some r.1 } })

/-- RESPOND (R488): a valid signature over the nonce opens internal debug; each nonce serves one. -/
def respondCmd (d : Dev) : Dev :=
  if d.sec.lcOp ≠ 0 then d
  else if lcState d ≠ 3 then lcErr 1 d
  else
    let key := mboxBytes d 0 97
    let ok := match d.sec.nonce with
      | some n => sha sha384P key == d.sec.fuses.dbgHash &&
          ecdsaVerify key ([0x56#8, 0x58#8, 0x44#8, 0x42#8] ++ leBytes 8 d.sec.fuses.deviceId ++ n) (mboxBytes d 104 48) (mboxBytes d 152 48)
      | none => false
    let d1 : Dev := { d with sec := { d.sec with nonce := none } }
    syncSec (if ok then lcErr 0 { d1 with sec := { d1.sec with dbgOpen := true } }
      else (lcErr 7 { d1 with sec := { d1.sec with responds := d1.sec.responds + 1 } }).err R.E_SEC_AUTH_FAIL)

/-- Change the fuses. -/
def modFuses (f : Fuses → Fuses) (d : Dev) : Dev := { d with sec := { d.sec with fuses := f d.sec.fuses } }

/-- The destruction of RETURN (R484, R487): the device root programmed to ones, key state cleared, the part RETURNED. -/
def destroyRoot (d : Dev) : Dev :=
  let d1 := modFuses (fun f => { f with root := none, rootDestroyed := true, lc := 7 }) d
  syncSec (syncCiphers (forEach (List.range 16) (fun n d => (d.setF (R.SEC_CC_STATUS_STATE n) 0).setF (R.SEC_CC_STATUS_ERR n) 0)
    { d1 with sec := { d1.sec with root := none, ciphers := [], digests := [] } }))

/-- FUSE_PROGRAMMING_DONE for a life-cycle command (R486, R487): error 06h where it failed. -/
def lcFused (ok : Bool) (d : Dev) : Dev :=
  let s := d.sec
  let d0 : Dev := { d with sec := { d.sec with lcOp := 0, lcData := [] } }
  let d1 := d0.setB R.SEC_LC_STATUS_BUSY false
  if !ok then syncSec (lcErr 6 d1)
  else if s.lcOp = 1 then
    syncSec (writeMbox 0 (ecPublic (identityScalar s.lcData)) (modFuses (fun f => { f with root := some s.lcData, lc := 1 }) d1))
  else if s.lcOp = 2 then syncSec ((modFuses (fun f => { f with hashes := tabPut f.hashes s.lcSlot s.lcData }) d1).setF
    R.IMG_KEYS_ENROLLED (setBitsAt (d1.getF R.IMG_KEYS_ENROLLED) s.lcSlot 1 1))
  else if s.lcOp = 3 then syncSec (modFuses (fun f => { f with lc := 3 }) d1)
  else headFail 2 (destroyRoot d1)

/-- FUSE_PROGRAMMING_DONE (R87, R486): of a life-cycle command, or of RAISE_SVN and REVOKE; where these fail, the fuses stay as they
were (log entry 18). -/
def fuseProgrammingDone (ok : Bool) (d : Dev) : Dev :=
  if d.sec.lcOp ≠ 0 then lcFused ok d
  else
    let done := fun (d : Dev) => ({ d with img := { d.img with op := .none } } : Dev).setB R.IMG_STATUS_BUSY false
    match d.img.op with
    | .raise =>
      let v := Nat.max d.sec.fuses.minSvn (d.getF R.IMG_RUN_SVN_SVN)
      done (if ok then (modFuses (fun f => { f with minSvn := v }) d).setF R.IMG_RUN_SVN_MIN_SVN v else d)
    | .revoke k =>
      let v := if bitAt d.sec.fuses.revoked k then d.sec.fuses.revoked else d.sec.fuses.revoked + 2 ^ k
      done (if ok then (modFuses (fun f => { f with revoked := v }) d).setF R.IMG_KEYS_REVOKED v else d)
    | _ => d

end Sys2Proof.Machine
end

