-- ==== Sys2Proof/Machine/StreamOps.lean ====
section
/-! DEFINITION. Replication streams (R449 to R457). -/

namespace Sys2Proof.Machine

/-- A stream with nothing done. -/
def streamFresh : Stream :=
  { qpn := 0, begun := false, resumed := false, todo := [], items := [], data := [], descs := [], datas := [], seq := 1,
    sealing := false, walked := false, ready := 1, commit := 0, sent := 0, frames := [], counts := [], key := 0, va := 0, rx := [],
    ahead := [], endSeq := none, label := 0, commitDue := false, lastCommit := 0 }

/-- A stream. -/
def Dev.stream (d : Dev) (u : Nat) : Stream := tabGet streamFresh d.nvm.streams u
/-- Put a stream. -/
def putStream (u : Nat) (s : Stream) (d : Dev) : Dev := { d with nvm := { d.nvm with streams := tabPut d.nvm.streams u s } }

/-- State of a stream (R458): IDLE 0, CONNECTING 1, LISTENING 2, RUNNING 3, ENDING 4, DONE 5, HALTED 6. -/
def strState (d : Dev) (u : Nat) : Nat := d.getF (R.SNP_S_STATE_STATE u)
/-- Set it. -/
def setStr (u st : Nat) (d : Dev) : Dev := syncSnaps (d.setF (R.SNP_S_STATE_STATE u) st)
/-- The unit is a receiver. -/
def strRx (d : Dev) (u : Nat) : Bool := d.getB (R.SNP_S_CFG_ROLE u)
/-- Its namespace. -/
def strNs (d : Dev) (u : Nat) : Option Ns := d.ns (d.getF (R.SNP_S_CFG_NSG u))

/-- A control message (R451). -/
def ctrlBytes (type reason id seq arg arg2 : Nat) : Bytes :=
  let b := leBytes 1 type ++ leBytes 1 reason ++ zeros 2 ++ leBytes 4 id ++ leBytes 8 seq ++ leBytes 8 arg ++ leBytes 8 arg2 ++
    zeros 28
  b ++ leBytes 4 (crcNat b)

/-- Send a control message of a stream (R451). -/
def sendCtrl (u type reason seq arg arg2 : Nat) (d : Dev) : Dev :=
  postSend (d.stream u).qpn (ctrlBytes type reason (d.rd (R.SNP_S_ID u)) seq arg arg2) d

/-- A stream halts with a reason (R457): an event, and its connection is taken down; `tell` sends HALT to the other end first. -/
def haltStream (u reason : Nat) (tell : Bool) (d : Dev) : Dev :=
  if strState d u = 0 ∨ strState d u = 6 then d
  else
    let d1 := if tell && (d.qp (d.stream u).qpn).st == .rts then sendCtrl u 7 reason 0 0 0 d else d
    let d2 := ((setStr u 6 d1).setF (R.SNP_S_STATE_REASON u) reason).post 0x1301 [u, reason]
    let d3 := cmClose (d2.stream u).qpn d2
    modStream u (fun s => { s with qpn := 0, sealing := false, rx := [], data := [] }) d3

/-- Streams of a namespace halt (R457, R473). -/
def haltStreams (reason nsg : Nat) (d : Dev) : Dev :=
  forEach ((List.range 64).filter fun u => strState d u != 0 && d.getF (R.SNP_S_CFG_NSG u) == nsg) (fun u => haltStream u reason true) d

/-- A snapshot that a stream may name: there, and not being deleted. -/
def strSnap (n : Ns) (id : Nat) : Option Snap := n.snaps.find? fun s => s.id == id && (s.state == 1 || s.state == 2)

/-- BASE names a snapshot. -/
def hasBase (d : Dev) (u : Nat) : Bool := d.getF (R.SNP_S_SNAPS_BASE u) != 0xFFFFFFFF

/-- Begin to connect or to listen (R450, R457, R471): NOT_SERVING where the peer serves the namespace's instance, SNAPSHOT where A or
T is missing, HOST where the start count is used up. A sender takes a new STREAM_ID. -/
def strBegin (u : Nat) (s : Stream) (d : Dev) : Dev :=
  let d0 := (d.setF (R.SNP_S_STATE_REASON u) 0).setF (R.SNP_S_STATE_AUTH_LEVEL u) 0
  let halted := fun (r : Nat) => (((setStr u 6 (putStream u s d0)).setF (R.SNP_S_STATE_REASON u) r).post 0x1301 [u, r])
  match strNs d0 u with
  | none => halted 7
  | some n =>
    if !d0.serves n.inst then halted 7
    else if strRx d0 u then setStr u 2 (putStream u s d0)
    else if (strSnap n (d0.getF (R.SNP_S_SNAPS_TARGET u))).isNone ||
        (hasBase d0 u && (strSnap n (d0.getF (R.SNP_S_SNAPS_BASE u))).isNone) then halted 6
    else
      let c := (d0.sec.store.map (·.starts)).getD 0
      if c ≥ 0x1FFFFFF then halted 5
      else changeStore (fun k => { k with starts := c + 1 })
        ((setStr u 1 (putStream u s d0)).setF (R.SNP_S_ID_STREAM_ID u) (u + d0.headNum * 64 + (c + 1) * 128))

/-- STREAM_START (R457): from IDLE. -/
def streamStart (u : Nat) (d : Dev) : Dev :=
  if strState d u ≠ 0 then d else strBegin u streamFresh (d.setB (R.SNP_S_STATE_REPLICA u) false)

/-- STREAM_RESUME (R457): from HALTED; a receiver keeps what it has committed, a sender packs from the start again. -/
def streamResume (u : Nat) (d : Dev) : Dev :=
  if strState d u ≠ 6 then d
  else
    let s := d.stream u
    strBegin u { streamFresh with
      resumed := true, commit := s.commit, ahead := s.ahead, label := s.label } d

/-- STREAM_STOP (R457): HALTED and DONE become IDLE; any other stream that is not IDLE halts with reason HOST. -/
def streamStop (u : Nat) (d : Dev) : Dev :=
  if strState d u = 6 ∨ strState d u = 5 then
    setStr u 0 (putStream u streamFresh ((cmClose (d.stream u).qpn d).setF (R.SNP_S_STATE_REASON u) 0))
  else haltStream u 5 true d

/-- The listening unit that a connection request is for (R450): a receiver configured with its source address and port. -/
def listener (d : Dev) (p ip : Nat) : Option Nat :=
  (List.range 64).find? fun u => strState d u == 2 && strRx d u && d.getF (R.SNP_S_CFG_PORT u) == p && (d.stream u).qpn == 0 &&
    d.rd (R.SNP_S_REMOTE_HI u) * 2 ^ 64 + d.rd (R.SNP_S_REMOTE_LO u) == ip

/-- REQ (R352, R450): for a stream that listens, or for NVMe. -/
def cmReq (remote p dest psn tcp pmtu ip qid : Nat) (spread flush : Bool) (d : Dev) : Dev :=
  let d1 := d.stat R.TRN_CM_REQ 1
  if !d1.portUp p then d
  else match if spread then listener d1 p ip else none with
    | some u =>
      let d2 := cmAccept remote p dest psn tcp 2 0 true false (.stream u) d1
      (match d2.net.qps.find? fun e => e.2.use == .stream u && e.2.st == .rtr with
        | some e => modStream u (fun s => { s with qpn := e.1 }) d2
        | none => d2)
    | none => cmAccept remote p dest psn tcp pmtu qid false flush .none d1

/-- A snapshot is SEALED. -/
def sealedSnap (n : Ns) (id : Nat) : Bool := n.snaps.any fun s => s.id == id && s.state == 2

/-- A sender in CONNECTING goes on (R457, R471): once T and A are SEALED and the start count is durable it connects; once connected it
sends BEGIN. -/
def pumpConnect (u : Nat) (d : Dev) : Dev :=
  match strNs d u with
  | none => haltStream u 6 true d
  | some n =>
    let t := d.getF (R.SNP_S_SNAPS_TARGET u)
    let a := d.getF (R.SNP_S_SNAPS_BASE u)
    let s := d.stream u
    if !(sealedSnap n t && (!hasBase d u || sealedSnap n a) && storeDurable d) then d
    else if s.qpn = 0 then
      match cmOpen (d.getF (R.SNP_S_CFG_PORT u)) (.stream u) 4420 d with
      | none => haltStream u 3 true d
      | some (q, d1) => modStream u (fun s => { s with qpn := q }) d1
    else if s.begun || (d.qp s.qpn).st != .rts then d
    else
      let lab := fun (id : Nat) => ((n.snaps.find? fun x => x.id == id).map (·.label)).getD 0
      modStream u (fun s => { s with begun := true })
        (sendCtrl u 1 (b2n (!hasBase d u) + 2 * b2n s.resumed) 0 (b2n (hasBase d u) * lab a + lab t * 2 ^ 32) n.chunks d)

/-- A message of a stream that fails its CRC, or names another stream, is dropped (R451). -/
def onCtrl (u : Nat) (crcOk : Bool) (id : Nat) (f : Dev → Dev) (d : Dev) : Dev :=
  if !crcOk then d.err (R.E_SNP_S_CTRL_ERR u) else if id ≠ d.rd (R.SNP_S_ID u) then d else f d

/-- BEGIN (R450, R456, R457): a listening unit takes the STREAM_ID, checks the base LABEL, opens its window and answers READY. -/
def streamBegin (u : Nat) (crcOk : Bool) (reason id arg : Nat) (d : Dev) : Dev :=
  if !crcOk then d.err (R.E_SNP_S_CTRL_ERR u)
  else if strState d u ≠ 2 ∨ (d.stream u).qpn = 0 then d
  else
    let d1 := d.setF (R.SNP_S_ID_STREAM_ID u) id
    match strNs d1 u with
    | none => haltStream u 7 true d1
    | some n =>
      let newest := (n.snaps.filter fun s => s.state == 2).foldl (fun (b : Option Snap) s => match b with
        | some x => if s.epoch > x.epoch then some s else b
        | none => some s) none
      if !d1.serves n.inst then haltStream u 7 true d1
      else if reason % 2 = 0 && (newest.map (·.label)) != some (arg % 2 ^ 32) then haltStream u 2 true d1
      else
        let w := streamWindow u
        let d2 := rewriteWindow w (streamBase u) (64 * 65536) 5 (d1.stream u).qpn d1
        let keep := bitAt reason 1
        let d3 := modStream u (fun s => { s with
          label := arg / 2 ^ 32, rx := [], endSeq := none,
          commit := if keep then s.commit else 0, ahead := if keep then s.ahead else [] }) d2
        sendCtrl u 2 0 ((d3.stream u).commit + 1) (winKey d3 w) 0
          (((setStr u 3 d3).setF (R.SNP_S_STATE_AUTH_LEVEL u) 0).wr (R.SNP_S_COMMITTED u) (d3.stream u).commit)

/-- READY (R453, R457): a sender that has sent BEGIN begins to pack D from the roots of its snapshots. -/
def streamReady (u : Nat) (crcOk : Bool) (id seq arg arg2 : Nat) (d : Dev) : Dev :=
  onCtrl u crcOk id (fun d =>
    if strState d u ≠ 1 ∨ !(d.stream u).begun then d
    else match strNs d u with
      | none => haltStream u 6 true d
      | some n =>
        let root := fun (id : Nat) => ((n.snaps.find? fun s => s.id == id).map (·.root)).getD ptrNull
        let a := if hasBase d u then root (d.getF (R.SNP_S_SNAPS_BASE u)) else ptrNull
        let t := root (d.getF (R.SNP_S_SNAPS_TARGET u))
        (setStr u 3 (modStream u (fun s => { s with
          ready := seq, commit := seq - 1, key := arg % 2 ^ 32, va := arg2, seq := 1, todo := [(Nat.max a.level t.level, 0, a, t)] }) d)).setF
          (R.SNP_S_STATE_AUTH_LEVEL u) 0) d

/-- COMMIT (R453): frames it covers are no longer kept, and further frames may go. -/
def streamCommit (u : Nat) (crcOk : Bool) (id seq : Nat) (d : Dev) : Dev :=
  onCtrl u crcOk id (fun d =>
    let s := d.stream u
    if (strState d u ≠ 3 ∧ strState d u ≠ 4) ∨ strRx d u ∨ seq ≤ s.commit then d
    else
      let gone := s.counts.filter fun e => decide (e.1 ≤ seq)
      let d1 := modStream u (fun s => { s with
        commit := seq, frames := s.frames.filter (fun e => decide (e.1 > seq)), counts := s.counts.filter fun e => decide (e.1 > seq) }) d
      ((d1.wr (R.SNP_S_COMMITTED u) seq).stat (R.SNP_S_CHUNKS u) (sumL (gone.map (·.2.1)))).stat (R.SNP_S_BYTES u)
        (sumL (gone.map (·.2.2)) * chunkBytes)) d

/-- Send a kept frame into its slot of the receive window (R453). -/
def sendStreamFrame (u k : Nat) (d : Dev) : Dev :=
  let s := d.stream u
  match tabFind s.frames k with
  | none => d
  | some b => postMsg s.qpn .write .none b b.length s.key (s.va + k % 64 * 65536) d

/-- One more authentication failure at this end (R455): true at the third since RUNNING. -/
def authFailure (u : Nat) (d : Dev) : Bool × Dev :=
  let n := Nat.min 3 (d.getF (R.SNP_S_STATE_AUTH_LEVEL u) + 1)
  (decide (n ≥ 3), (d.setF (R.SNP_S_STATE_AUTH_LEVEL u) n).err (R.E_SNP_S_AUTH_FAIL u))

/-- RESEND (R455): the kept frame is sent again unchanged; the third failure halts the stream with reason AUTH. -/
def streamResend (u : Nat) (crcOk : Bool) (id seq : Nat) (d : Dev) : Dev :=
  onCtrl u crcOk id (fun d =>
    if (strState d u ≠ 3 ∧ strState d u ≠ 4) ∨ strRx d u then d
    else
      let r := authFailure u d
      if r.1 then haltStream u 1 true r.2 else sendStreamFrame u seq r.2) d

/-- END (R456). -/
def streamEnd (u : Nat) (crcOk : Bool) (id seq : Nat) (d : Dev) : Dev :=
  onCtrl u crcOk id (fun d =>
    if strState d u = 3 && strRx d u then setStr u 4 (modStream u (fun s => { s with endSeq := some seq }) d) else d) d

/-- DONE (R457). -/
def streamDone (u : Nat) (crcOk : Bool) (id : Nat) (d : Dev) : Dev :=
  onCtrl u crcOk id (fun d =>
    if strState d u = 4 && !strRx d u then (setStr u 5 d).setB (R.SNP_S_STATE_REPLICA u) true else d) d

/-- HALT (R457): the other end has halted. -/
def streamHalt (u : Nat) (crcOk : Bool) (reason id : Nat) (d : Dev) : Dev :=
  onCtrl u crcOk id (fun d => haltStream u (reason % 16) false d) d

/-- The target of an alias, or the handle itself (R203, R449); none while its record is not there. -/
def resolveAlias (dom h : Nat) (d : Dev) : Option Nat × Dev :=
  match lookupRecord .media 0 dom h d with
  | (.wait, d1) => (none, d1)
  | (.unavailable, d1) => (some h, d1)
  | (.val w, d1) => (some (if recOk dom h w.1 w.2 && bitAt (recFlags w.2) 4 then h / 2 ^ 41 * 2 ^ 41 + w.1 % 2 ^ 41 else h),
      forgetRemote h d1)

/-- Whether two entries differ once aliases are resolved (R449). -/
def entriesDiffer (dom x y : Nat) (d : Dev) : Option Bool × Dev :=
  if x = y then (some false, d)
  else if !(isHandle x && isHandle y) then (some true, d)
  else match resolveAlias dom x d with
    | (none, d1) => (none, d1)
    | (some a, d1) => match resolveAlias dom y d1 with
      | (none, d2) => (none, d2)
      | (some b, d2) => (some (a != b), d2)

/-- Entry of a leaf of a snapshot's tree; every one is LOST in a leaf that is. -/
def leafEnt (p : Option PageData) (i : Nat) : Nat :=
  match p with
  | some x => tabGet 0 x i
  | none => entLost

/-- One move of the comparison of two trees (R449): equal pointers are skipped, directories opened, leaves compared entry by
entry. None while something has to be waited for. -/
def diffMove (dom chunks : Nat) (s : Stream) (d : Dev) : Option Stream × Dev :=
  match s.todo with
  | [] => (some { s with walked := true }, d)
  | (lvl, page, a, t) :: rest =>
    if a.a = t.a ∧ a.lost = t.lost then (some { s with todo := rest }, d)
    else match fetchPtr a d with
      | (none, d1) => (none, d1)
      | (some pa, d1) => match fetchPtr t d1 with
        | (none, d2) => (none, d2)
        | (some pt, d2) =>
          if lvl > 0 then
            let kids := (List.range 128).map fun i =>
              (lvl - 1, page * 128 + i, ptrAt (pa.getD []) i, if pt.isNone then { ptrNull with lost := true } else ptrAt (pt.getD []) i)
            (some { s with todo := kids ++ rest }, d2)
          else
            let idx := (List.range 512).filter fun i => decide (512 * page + i < chunks)
            let r := idx.foldl (fun (x : Option (List (Nat × Nat)) × Dev) i => match x with
              | (none, d) => (none, d)
              | (some l, d) => match entriesDiffer dom (leafEnt pa i) (leafEnt pt i) d with
                | (none, d1) => (none, d1)
                | (some b, d1) => (some (if b then l ++ [(512 * page + i, leafEnt pt i)] else l), d1)) (some [], d2)
            (match r with
              | (none, d3) => (none, d3)
              | (some l, d3) => (some { s with todo := rest, items := s.items ++ l }, dropFetched d3))

/-- Read a chunk for a stream (R453): D gives its entry, so that no map lookup is needed. -/
def readForStream (u : Nat) (n : Ns) (chunk entry : Nat) (d : Dev) : Dev :=
  if d.read.cmds.any fun r => r.purpose == .stream u && r.chunks.any fun x => x.idx == chunk then d
  else
    let r := newId d
    let h : CHead := ⟨r.1, .internal 0, ⟨2, 0, 0, 0, n.nsid, 0, 0, 0, 0, 0, 0, 0, 0, 0, 0⟩, [], false, n.nsg, n.inst, d.instGen n.inst, 0,
      d.now⟩
    let c : RCmd := ⟨h, .stream u, d.getF (R.INS_I_DOMAIN_DOMAIN n.inst), 4 * chunk, 4, false, true,
      [{ rChunkNew chunk 0 4 with entry := entry }], 0, none⟩
    lookupChunk r.1 chunk { r.2 with read := { r.2.read with cmds := r.2.read.cmds ++ ([c] : List RCmd) } }

/-- Kind of a chunk of D (R452, R474): DATA 1, ZERO 2 (also content of a retired epoch), UNMAPPED 3, LOST 4; none while its record is
not there. -/
def itemKind (dom entry : Nat) (d : Dev) : Option Nat × Dev :=
  if entry = entZero then (some 2, d)
  else if entry = entUnmapped then (some 3, d)
  else if !isHandle entry then (some 4, d)
  else match lookupRecord .media 0 dom entry d with
    | (.wait, d1) => (none, d1)
    | (.unavailable, d1) => (some 4, d1)
    | (.val w, d1) =>
      let d2 := forgetRemote entry d1
      if recOk dom entry w.1 w.2 && (pickEpoch d2 dom (recEpoch w.1)).isNone then (some 2, d2.stat R.SEC_RETIRED_READS 1) else (some 1, d2)

/-- The body of a frame (R452): descriptors, then DATA chunks. -/
def frameBody (s : Stream) : Bytes :=
  slice (s.descs.flatMap fun x => leBytes 8 x.1 ++ leBytes 4 x.2.1 ++ leBytes 1 x.2.2 ++ zeros 3) 0 256 ++ s.datas.flatten

/-- The header of a frame (R452). -/
def frameHeader (d : Dev) (u : Nat) (s : Stream) (last : Bool) : Bytes :=
  let b := leBytes 4 0x464C5052 ++ leBytes 1 1 ++ leBytes 1 s.descs.length ++ leBytes 1 (2 * b2n last) ++ zeros 1 ++
    leBytes 4 (d.rd (R.SNP_S_ID u)) ++ leBytes 4 (d.getF (R.SNP_S_SNAPS_TARGET u)) ++ leBytes 8 s.seq ++
    leBytes 4 (256 + chunkBytes * s.datas.length) ++ zeros 32
  b ++ leBytes 4 (crcNat b)

/-- Close the frame being packed (R453): one below READY's SEQ is skipped, any other is sealed. -/
def closeFrame (u : Nat) (last : Bool) (d : Dev) : Dev :=
  let s := d.stream u
  let next := fun (s : Stream) => { s with descs := [], datas := [] }
  if s.seq < s.ready then modStream u (fun s => { next s with seq := s.seq + 1 }) d
  else
    let inp := frameHeader d u s last ++ frameBody s
    let n := sumL (s.descs.map (·.2.1))
    let lost := sumL (s.descs.filterMap fun x => if x.2.2 = 4 then some x.2.1 else none)
    let d1 := forEach (List.range lost) (fun _ d => d.err (R.E_SNP_S_LOST u)) d
    issueTicket iSnp 2 pStreamSeal none (s.seq % 2 ^ 18) inp (inp.length + 16) (mkArgs s.seq (8 + u * 16) 0) (.streamSeal u s.seq)
      (modStream u (fun s => { next s with sealing := true, counts := tabPut s.counts s.seq (n, s.datas.length) }) d1)

/-- Add a chunk of D to the frame being packed (R453): into the last descriptor where it continues a run of its kind, else as a new
one; a full frame is closed first, and then the chunk stays for the next one. -/
def packItem (u chunk kind : Nat) (b : Bytes) (d : Dev) : Dev :=
  let s := d.stream u
  let took := fun (s : Stream) => { s with items := s.items.drop 1, data := tabDel s.data chunk }
  let joins := match s.descs.getLast? with
    | some (c, n, k) => k == kind && kind != 1 && c + n == chunk
    | none => false
  if joins then modStream u (fun s => { took s with
    descs := s.descs.dropLast ++ (s.descs.getLast?.map fun x => (x.1, x.2.1 + 1, x.2.2)).toList }) d
  else if s.descs.length ≥ 16 ∨ (s.descs.filter fun x => x.2.2 == 1).length ≥ 3 then closeFrame u false d
  else modStream u (fun s => { took s with
    descs := s.descs ++ [(chunk, 1, kind)], datas := if kind = 1 then s.datas ++ [b] else s.datas }) d

/-- One move of a sender (R453); false where it has to wait or is over. -/
def sendMove (u : Nat) (n : Ns) (d : Dev) : Bool × Dev :=
  let s := d.stream u
  let dom := d.getF (R.INS_I_DOMAIN_DOMAIN n.inst)
  if s.sealing || decide (s.seq ≥ s.ready + 64) || decide (s.seq ≥ s.commit + 65) then (false, d)
  else match s.items with
    | [] =>
      if s.walked then
        if s.descs.isEmpty then (false, d) else (true, closeFrame u true d)
      else (match diffMove dom n.chunks s d with
        | (none, d1) => (false, d1)
        | (some s1, d1) => (true, putStream u s1 d1))
    | (c, e) :: _ => match itemKind dom e d with
      | (none, d1) => (false, d1)
      | (some k, d1) =>
        if k ≠ 1 || decide (s.seq < s.ready) then (true, packItem u c k [] d1)
        else match tabFind s.data c with
          | some (some b) => (true, packItem u c 1 b d1)
          | some none => (true, packItem u c 4 [] d1)
          | none => (false, readForStream u n c e d1)

/-- A sender goes on as far as it can (R453); after the last frame it sends END. -/
def pumpSender (fuel u : Nat) (n : Ns) (d : Dev) : Dev :=
  match fuel with
  | 0 => d
  | f + 1 =>
    let r := sendMove u n d
    if r.1 then pumpSender f u n r.2
    else
      let s := r.2.stream u
      if strState r.2 u = 3 && s.walked && s.items.isEmpty && s.descs.isEmpty && !s.sealing then
        sendCtrl u 5 0 (s.seq - 1) 0 0 (setStr u 4 r.2)
      else r.2

/-- The STREAMSEAL of a frame has ended (R452): the frame is kept and sent. Status STALE or an invalid key halts the stream as an
authentication failure would. -/
def sealDone (u seq st : Nat) (out : Bytes) (d : Dev) : Dev :=
  let s := d.stream u
  if strState d u ≠ 3 ∨ !s.sealing ∨ s.seq ≠ seq then d
  else if st ≠ tkOk then haltStream u 1 true d
  else
    let d1 := modStream u (fun s => { s with
      frames := tabPut s.frames seq out, sealing := false, seq := seq + 1, sent := seq }) d
    sendStreamFrame u seq (d1.wr (R.SNP_S_SENT u) seq)

/-- Offer one descriptor of a received frame as a write (R454): DATA with its data landed, ZERO, UNMAPPED and LOST as writes without
data, 64 chunks at most in one. -/
def offerDesc (u : Nat) (n : Ns) (seq : Nat) (x : Nat × Nat × Nat) (data : Bytes) (d : Dev) : Dev :=
  let r := newId d
  let e : Sqe := ⟨if x.2.2 = 1 then 1 else 8, 0, 0, 0, n.nsid, 0, 0, 0, 0, 4 * x.1 % 2 ^ 32, 4 * x.1 / 2 ^ 32, 4 * x.2.1 - 1, x.2.2, 0, 0⟩
  let h : CHead := ⟨r.1, .stream u seq x.1, e, [], false, n.nsg, n.inst, d.instGen n.inst, 0, d.now⟩
  let w := wCmdNew r.2 h n (4 * x.1) (4 * x.2.1) (x.2.2 != 1)
  addWrite (if x.2.2 = 1 then { w with landed := data, landedOk := true } else w) true r.2

/-- A received frame goes on: descriptors not yet offered become writes. -/
def pumpFrame (u : Nat) (n : Ns) (f : RxFrame) (d : Dev) : Dev :=
  if !f.live.isEmpty then d
  else match f.todo with
    | [] => d
    | (c, k, kind) :: rest =>
      let take := Nat.min 64 k
      let now := (c, take, kind)
      let left := if k > take then (c + take, k - take, kind) :: rest else rest
      let note := fun (x : RxFrame) => ({ x with todo := left, live := [now] } : RxFrame)
      let d1 := modStream u (fun s => { s with rx := mapWhere (fun x => x.seq == f.seq) note s.rx }) d
      offerDesc u n f.seq now (tabGet [] f.datas c) d1

/-- Send COMMIT, at most once per 10 µs (R454). -/
def pumpCommit (u : Nat) (d : Dev) : Dev :=
  let s := d.stream u
  if s.commitDue && (s.lastCommit == 0 || decide (d.now - s.lastCommit ≥ 10000)) then
    sendCtrl u 3 0 s.commit 0 0 (modStream u (fun s => { s with commitDue := false, lastCommit := d.now }) d)
  else d

/-- A frame fails its header check or its tag (R455): AUTH_FAIL in the receiver's copy, RESEND, and the third failure halts the stream. -/
def frameFails (u slot seq : Nat) (d : Dev) : Dev :=
  let a := streamBase u + slot % 64 * 65536
  let r := authFailure u (d.memStore (a + 6) [BitVec.ofNat 8 (fieldAt (d.memBytes (a + 6) 1) 0 1 / 2 * 2 + 1)])
  let d1 := modStream u (fun s => { s with rx := s.rx.filter fun x => x.seq != seq }) r.2
  if r.1 then haltStream u 1 true d1 else sendCtrl u 4 0 seq 0 0 d1

/-- REPLICATION_FRAME (R454, R455): a frame stands in a slot of the receive window; its header is checked and its body opened. A header that
names nothing is taken for the lowest frame of the slot not committed (log entry 16). -/
def replicationFrame (u slot : Nat) (d : Dev) : Dev :=
  let s := d.stream u
  if (strState d u ≠ 3 ∧ strState d u ≠ 4) ∨ !strRx d u then d
  else
    let a := streamBase u + slot % 64 * 65536
    let h := d.memBytes a 64
    let seq := fieldAt h 16 8
    let want := s.commit + 1 + (slot % 64 + 64 - (s.commit + 1) % 64) % 64
    let len := fieldAt h 24 4
    let ok := fieldAt h 0 4 == 0x464C5052 && fieldAt h 60 4 == crcNat (slice h 0 60) && fieldAt h 8 4 == d.rd (R.SNP_S_ID u) &&
      decide (seq % 64 = slot % 64) && decide (len ≥ 256 ∧ len + 80 ≤ 65536)
    if !ok then frameFails u slot want d
    else if seq ≤ s.commit || s.ahead.contains seq || s.rx.any (fun x => x.seq == seq) then d
    else
      let d1 := modStream u (fun s => { s with rx := s.rx ++ ([⟨seq, [], [], [], [], 0⟩] : List RxFrame) }) d
      let d2 := d1.wr (R.SNP_S_SENT u) (Nat.max (d1.rd (R.SNP_S_SENT u)) seq)
      issueTicket iSnp 2 pStreamSeal none (seq % 2 ^ 18) (d.memBytes a (len + 80)) (len + 96) (mkArgs seq (8 + u * 16) 0)
        (.streamOpen u seq) d2

/-- The STREAMSEAL that opens a frame has ended (R454): the plaintext stands in the slot, and where the tag verifies the descriptors
are applied. -/
def openDone (u seq st result : Nat) (out : Bytes) (d : Dev) : Dev :=
  let s := d.stream u
  if (strState d u ≠ 3 ∧ strState d u ≠ 4) ∨ !(s.rx.any fun x => x.seq == seq && x.chunks == 0) then d
  else
    let slot := seq % 64
    let d1 := if st = tkOk then d.memStore (streamBase u + slot * 65536) out else d
    if st ≠ tkOk ∨ result ≠ 0 then frameFails u slot seq d1
    else
      let body := out.drop 64
      let n := Nat.min 16 (fieldAt out 5 1)
      let ds := (List.range n).map fun i => (fieldAt body (16 * i) 8, fieldAt body (16 * i + 8) 4, fieldAt body (16 * i + 12) 1)
      let dat := ds.filter fun x => x.2.2 == 1
      let datas := ((List.range dat.length).zip dat).foldl (fun (t : Tab Bytes) e =>
        tabPut t e.2.1 (slice body (256 + chunkBytes * e.1) chunkBytes)) []
      let lost := sumL (ds.filterMap fun x => if x.2.2 = 4 then some x.2.1 else none)
      let todo := ds.filter fun x => decide (1 ≤ x.2.2 ∧ x.2.2 ≤ 4 ∧ x.2.1 > 0)
      let note := fun (x : RxFrame) => ({ x with todo := todo, datas := datas, chunks := 1 + sumL (ds.map (·.2.1)) } : RxFrame)
      modStream u (fun s => { s with rx := mapWhere (fun x => x.seq == seq) note s.rx })
        (forEach (List.range lost) (fun _ d => d.err (R.E_SNP_S_LOST u)) d1)

/-- Move the committed sequence over frames committed ahead of it. -/
def advanceCommit (fuel : Nat) (s : Stream) : Stream :=
  match fuel with
  | 0 => s
  | f + 1 => if s.ahead.contains (s.commit + 1) then
      advanceCommit f { s with commit := s.commit + 1, ahead := s.ahead.filter (· != s.commit + 1) }
    else s

/-- FRAME_COMMITTED (R454): all chunks of a received frame are durable. -/
def frameCommitted (u seq : Nat) (d : Dev) : Dev :=
  match (d.stream u).rx.find? fun x => x.seq == seq with
  | none => d
  | some f =>
    if f.chunks = 0 || !(f.todo.isEmpty && f.live.isEmpty && f.failed.isEmpty) then d
    else
      let d1 := modStream u (fun s => advanceCommit 64 { s with
        rx := s.rx.filter (fun x => x.seq != seq), ahead := s.ahead ++ [seq], commitDue := true }) d
      pumpCommit u (((d1.wr (R.SNP_S_COMMITTED u) (d1.stream u).commit).stat (R.SNP_S_CHUNKS u) (f.chunks - 1)).stat (R.SNP_S_BYTES u)
        (f.datas.length * chunkBytes))

/-- CHUNK_RETRY_TIMER (R454): chunks that failed with Capacity Exceeded are offered again. -/
def chunkRetryTimer (u seq : Nat) (d : Dev) : Dev :=
  modStream u (fun s => { s with rx := mapWhere (fun x => x.seq == seq) (fun x => { x with
    todo := x.failed ++ x.todo, failed := [] }) s.rx }) d

/-- REPLICA_CREATED (R456): after END and every frame committed, the replica snapshot is created and DONE sent. -/
def replicaCreated (u : Nat) (d : Dev) : Dev :=
  let s := d.stream u
  match strNs d u, s.endSeq with
  | some n, some e =>
    if strState d u ≠ 4 ∨ !strRx d u ∨ s.commit < e then d
    else if !snapRoom d n then haltStream u 6 true d
    else
      let r := createSnap n s.label d
      sendCtrl u 6 0 0 r.1 0 (((setStr u 5 r.2).setB (R.SNP_S_STATE_REPLICA u) true).setF (R.SNP_S_SNAPS_TARGET u) r.1)
  | _, _ => d

/-- A stream's connection has failed: its queue pair is in ERR, or was refused (R457). -/
def strLost (d : Dev) (u : Nat) : Bool :=
  let s := d.stream u
  let q := d.qp s.qpn
  s.qpn != 0 && (q.st == .err || q.st == .reset || q.use != .stream u)

/-- One stream goes on as far as it can. -/
def pumpStream (u : Nat) (d : Dev) : Dev :=
  let st := strState d u
  if st = 0 ∨ st = 5 ∨ st = 6 then d
  else if strLost d u then haltStream u 3 false d
  else match strNs d u with
    | none => haltStream u 6 true d
    | some n =>
      if !d.serves n.inst then haltStream u 4 true d
      else if st = 1 then pumpConnect u d
      else if st = 2 then d
      else if strRx d u then pumpCommit u (forEach (d.stream u).rx (fun f => pumpFrame u n f) d)
      else pumpSender 4096 u n d

/-- Every stream goes on, but for a rebake of the steward's region (R77). -/
def pumpStreams (d : Dev) : Dev := if stewardHeld d iSnp then d else forEach (d.nvm.streams.map (·.1)) pumpStream d

end Sys2Proof.Machine
end

