-- ==== Sys2Proof/Machine/CtrlOps.lean ====
section
/-! DEFINITION. Associations: Connect, the binding of queue pairs, and the end of an association or a queue (R363, R387, R400, R413, R414). -/

namespace Sys2Proof.Machine

/-- A command came through a queue of a controller; `q` none stands for every queue. -/
def ofQueue (c : Nat) (q : Option Nat) (o : Origin) : Bool :=
  match o with
  | .fabric c' q' _ => c' == c && (q == none || q == some q')
  | _ => false

/-- Commands of a queue that is there no more (R363, R400): they run to their ends and their completions go nowhere; those that only wait
for an answer, an event or the peer end at once. -/
def orphanCmds (c : Nat) (q : Option Nat) (d : Dev) : Dev :=
  let mv := fun (h : CHead) => if ofQueue c q h.origin then { h with origin := .gone } else h
  let keep := d.nvm.cmds.filter fun x => !(ofQueue c q x.h.origin && (x.h.admin && !isSnapOpc x.h.sqe.opc || x.aux == 1))
  { d with
    nvm := { d.nvm with
      cmds := keep.map fun x => { x with h := mv x.h }
      frozen := d.nvm.frozen.filter fun f => !ofQueue c q f.origin }
    write := { d.write with cmds := d.write.cmds.map fun x => { x with h := mv x.h } }
    read := { d.read with cmds := d.read.cmds.map fun x => { x with h := mv x.h } } }

/-- Take the connection of a queue pair down where it still stands. -/
def closeQp (n : Nat) (d : Dev) : Dev :=
  if (d.qp n).st = .rts ∨ (d.qp n).st = .rtr then cmClose n d else d

/-- End an association (R400, R414): the controller goes, every queue pair of it enters ERR. -/
def endAssociation (c : Nat) (d : Dev) : Dev :=
  match d.ctrl c with
  | none => d
  | some x =>
    let d1 := orphanCmds c none { d with nvm := { d.nvm with ctrls := d.nvm.ctrls.filter fun e => e.1 != c } }
    syncOutstanding x.inst (forEach (x.qpn :: x.qids.map (·.2)) closeQp d1)

/-- End one I/O queue of a controller. -/
def endQueue (c q : Nat) (d : Dev) : Dev :=
  match d.ctrl c with
  | none => d
  | some x =>
    let n := queueQp x q
    let d1 := orphanCmds c (some q) (d.modCtrl c fun y => { y with qids := y.qids.filter fun e => e.1 != q })
    syncOutstanding x.inst (closeQp n d1)

/-- A queue pair still serves the queue it was bound to. -/
def qpServes (d : Dev) (n : Nat) (u : QpUse) : Bool := (d.qp n).st == .rts && (d.qp n).use == u

/-- Queues whose queue pair has left RTS are over, and with the admin queue the association (R414). -/
def queueLost (d : Dev) : Dev :=
  forEach d.nvm.ctrls (fun e d =>
    if !qpServes d e.2.qpn (.admin e.1) then endAssociation e.1 d
    else forEach e.2.qids (fun x d => if qpServes d x.2 (.io e.1 x.1) then d else endQueue e.1 x.1 d) d) d

/-- The completion of a Connect, which may have no controller (R402): on its queue pair; counted as an admin command. -/
def connectCpl (n c qid cid st dw0 : Nat) (d : Dev) : Dev :=
  let d1 := if st ≠ 0 then d.err R.E_CMQ_ERR_CMDS else d
  let d2 := (if st = stField then d1.err R.E_CMQ_INVALID_CMDS else d1).stat R.CMQ_ADMIN_CMDS 1
  if (d2.qp n).st ≠ .rts then d2
  else
    let d3 := (d2.emit (.completion c qid cid st dw0 (dnrOf st))).modQp n fun y => { y with recvFree := y.recvFree + 1 }
    postMsg n .send .none (cqeBytes 0 qid cid st dw0 false) 16 0 0 d3

/-- An NQN of 256 bytes without its padding. -/
def nqnText (b : Bytes) : Bytes := b.takeWhile (· != 0#8)
/-- Host identity: bytes 0 to 7 of SHA-256 of the host NQN (R409). -/
def hostId (nqn : Bytes) : Bytes := (sha sha256P (nqnText nqn)).take 8

/-- The instance of a subsystem identity. -/
def instOfSubsys (d : Dev) (b : Bytes) : Option Nat :=
  lowestBelow 1024 fun i => d.hasInst i && (d.inst i).subsys == b

/-- Create the controller of an accepted admin Connect (R413): the lowest free n of this head; its queue pair is bound. Nothing where all are
taken. -/
def newCtrl (i n : Nat) (host : Bytes) (kato : Nat) (d : Dev) : Option (Nat × Dev) :=
  (lowestBelow 0x3FFF fun k => (d.ctrl (d.headNum * 0x4000 + k + 1)).isNone).map fun k =>
    let c := d.headNum * 0x4000 + k + 1
    let x : Ctrl := ⟨i, host, 0, 0, n, [], none, [], [], [], [], [], 0, kato⟩
    let d1 : Dev := { d with nvm := { d.nvm with ctrls := tabPut d.nvm.ctrls c x } }
    (c, d1.modQp n fun q => { q with use := .admin c, inst := i })

/-- Accept an admin Connect for an instance. -/
def acceptConnect (i n cid : Nat) (host : Bytes) (kato : Nat) (d : Dev) : Dev :=
  match newCtrl i n host kato d with
  | none => connectCpl n 0 0 cid stField 0 d
  | some (c, d1) => connectCpl n c 0 cid stOk c d1

/-- An I/O-queue Connect (R414): the controller on this head, QID within its grant. A QID bound already is refused the same way. -/
def ioConnect (n : Nat) (e : Sqe) (data : Bytes) (d : Dev) : Dev :=
  let qid := e.cdw10 / 65536
  let c := fieldAt data 16 2
  match d.ctrl c with
  | none => connectCpl n 0 qid e.cid stField 0 d
  | some x =>
    if qid > x.granted.getD 0 ∨ x.qids.any (fun y => y.1 == qid) then connectCpl n 0 qid e.cid stField 0 d
    else
      let d1 := d.modCtrl c fun y => { y with qids := y.qids ++ [(qid, n)] }
      connectCpl n c qid e.cid stOk c (d1.modQp n fun q => { q with use := .io c qid, inst := x.inst })

end Sys2Proof.Machine
end

