-- ==== Sys2Proof/Machine/InstOps.lean ====
section
/-! DEFINITION. Instances and the mediation queue: the instance record, numbers, the rings, the set-up commands and answers (R35, R409 to
R425, R433). -/

namespace Sys2Proof.Machine

/-- The instance record of a blob or an INST_SYNC (R433). -/
def instBytes (d : Dev) (i : Nat) : Bytes :=
  let x := d.inst i
  let dom := d.getF (R.INS_I_DOMAIN_DOMAIN i)
  leBytes 2 i ++ leBytes 2 (d.instGen i) ++ leBytes 2 dom ++ leBytes 1 (d.getF (R.INS_I_STATE_HOME i)) ++ zeros 1 ++
    leBytes 4 (d.domain dom).epoch ++ leBytes 2 (instNamespaces d i).length ++ leBytes 2 x.hosts.length ++
    leBytes 4 (d.getF (R.INS_I_QOS_RATE_KCMDS i)) ++ leBytes 4 (d.getF (R.INS_I_QOS_RATE_MBPS i)) ++
    leBytes 4 (x.bucketCmds / 1000000) ++ zeros 4 ++ leBytes 8 (x.bucketBytes / 1000) ++ leBytes 8 x.created ++
    slice x.subsys 0 32 ++ slice (d.domain dom).tenant 0 32 ++ slice (x.hosts.flatMap id) 0 96 ++ zeros 48

/-- The pointer to the root of a logical map's tree: one that arrived with an instance, or the one in the namespace-root tree. -/
def logicalRootPtr (d : Dev) (nsg : Nat) : PagePtr :=
  match tabFind d.map.roots (nsg * 8 + rootLevel d nsg) with
  | some p => p
  | none => liveRoot d nsg

/-- A namespace record (R433). -/
def nsBytes (d : Dev) (n : Ns) : Bytes :=
  leBytes 4 n.nsid ++ leBytes 2 n.nsg ++ leBytes 1 (b2n n.mirror2) ++ leBytes 1 (b2n n.deleting) ++ leBytes 8 n.chunks ++
    leBytes 8 n.nuse ++ leBytes 4 n.snaps.length ++ zeros 4 ++ ptrBytes (logicalRootPtr d n.nsg) ++
    ptrBytes (tabGet ptrNull d.map.roots (n.nsg * 8 + 6)) ++ zeros 32

/-- Namespaces in ascending NSID. -/
def nsSorted (d : Dev) (i : Nat) : List Ns :=
  (List.range 257).flatMap fun k => (instNamespaces d i).filter fun n => n.nsid == k

/-- The records of an instance and its namespaces (R433, R497). -/
def instRecords (d : Dev) (i : Nat) : Bytes := instBytes d i ++ (nsSorted d i).flatMap (nsBytes d)

/-- Tell the peer of a changed or deleted instance (R409, R497). -/
def syncPeerInst (i : Nat) (deleted : Bool) (d : Dev) : Dev :=
  if d.peerUp then sendPeer 0x3A 0 [i, b2n deleted] (if deleted then [] else instRecords d i) d else d

/-- Bring the level registers of the Instances steward up to date (R437). -/
def syncInst (i : Nat) (d : Dev) : Dev :=
  let bound := d.nvm.slices.filter fun e => e.2.bound
  (((d.setF R.INS_INFO_INSTANCES ((List.range 1024).filter (d.hasInst ·)).length).setF R.INS_INFO_SLICES bound.length).setF
    (R.INS_I_COUNTS_NAMESPACES i) (instNamespaces d i).length).setF (R.INS_I_COUNTS_SLICES i)
      (bound.filter fun e => e.2.inst == i).length

/-- The head an instance is homed on at its creation (R35). -/
def newHome (d : Dev) : Nat :=
  if !d.peerUp then d.headNum
  else
    let count := fun (h : Nat) => ((List.range 1024).filter fun i => d.hasInst i && d.getF (R.INS_I_STATE_HOME i) == h).length
    if count 1 < count 0 then 1 else 0

/-- State shown for an instance by its serving head (R437). -/
def showServer (i server : Nat) (d : Dev) : Dev :=
  (d.setF (R.INS_I_STATE_SERVER i) server).setF (R.INS_I_STATE_STATE i) (if server = d.headNum then 1 else 2)

/-- Raise an instance's generation (R424). -/
def raiseInstGen (i : Nat) (d : Dev) : Dev := d.setF (R.INS_I_STATE_GEN i) ((d.instGen i + 1) % 65536)

/-- The lowest free number of a kind (R410): 1 instance numbers, 2 NSGs from 1 to 7FEFh. -/
def freeNumber (d : Dev) (kind : Nat) : Option Nat :=
  if kind = 1 then lowestBelow (Nat.min 1024 (d.limit 0)) fun i => !d.hasInst i && !d.nvm.given.contains (1, i)
  else (lowestBelow 0x7FEF fun k => (d.ns (k + 1)).isNone && !d.nvm.given.contains (2, k + 1)).map (· + 1)

/-! ## The rings -/

/-- Entries of a ring: 2 to the LOG2. -/
def upSize (d : Dev) : Nat := 2 ^ d.getF R.INS_MQ_CTL_UP_LOG2
/-- Entries of the down ring. -/
def dnSize (d : Dev) : Nat := 2 ^ d.getF R.INS_MQ_CTL_DN_LOG2

/-- Change the rings. -/
def modRings (f : Rings → Rings) (d : Dev) : Dev := { d with nvm := { d.nvm with rings := f d.nvm.rings } }

/-- The 128 bytes of an up entry (R422). -/
def upBytes (d : Dev) (e : UpEnt) : Bytes :=
  let b := leBytes 1 e.typ ++ leBytes 1 (b2n d.nvm.rings.phase) ++ leBytes 1 d.headNum ++ zeros 1 ++ leBytes 4 e.tag ++
    slice (e.body ++ zeros 112) 0 112 ++ zeros 4
  b ++ leBytes 4 (crcNat b)

/-- Change the first entry that satisfies a test. -/
def mapFirst {α : Type} (p : α → Bool) (f : α → α) : List α → List α
  | [] => []
  | x :: r => if p x then f x :: r else x :: mapFirst p f r

/-- Write the oldest stored up entry, where the ring has room (R418). -/
def writeUp (d : Dev) : Dev :=
  let n := upSize d
  let tail := d.getF R.INS_UP_TAIL_INDEX
  let held := (tail + n - d.getF R.INS_UP_HEAD_INDEX) % n
  if !d.getB R.INS_MQ_CTL_EN || !d.dmaOn || decide (held > n - 2) then d
  else match d.nvm.rings.ents.find? fun e => e.place == 0 with
    | none => d
    | some e =>
      let next := (tail + 1) % n
      let d1 := d.hostWrite (d.getF R.INS_UP_BASE_ADDR * 4096 + 128 * tail) (upBytes d e) none
      let d2 := modRings (fun r => { r with
        ents := mapFirst (fun e => e.place == 0) (fun e => { e with place := 1 }) r.ents
        phase := if next = 0 then !r.phase else r.phase }) d1
      (d2.setF R.INS_UP_TAIL_INDEX next).msix (d2.getF R.INS_MQ_CTL_VECTOR) none

/-- Write stored up entries as long as the ring has room. -/
def pumpUp (d : Dev) : Dev := forEach (d.nvm.rings.ents.filter fun e => e.place == 0) (fun _ d => writeUp d) d

/-- Add an up entry. -/
def postUp (typ tag : Nat) (body : Bytes) (d : Dev) : Dev :=
  pumpUp (modRings (fun r => { r with ents := r.ents ++ ([⟨typ, tag, body, 0, false⟩] : List UpEnt) }) d)

/-- Complete a set-up command (R421). -/
def setupCpl (tag st result : Nat) (d : Dev) : Dev := postUp 1 tag (leBytes 8 st ++ leBytes 8 result) d

/-- Post a request (R422): BODY after KIND, instance and generation. -/
def postRequest (kind inst gen : Nat) (rest : Bytes) (cmd : Nat) (conn : Option ConnReq) (d : Dev) : Dev :=
  let q := d.nvm.rings.nextReq
  let d1 := modRings (fun r => { r with
    nextReq := (r.nextReq + 1) % 2 ^ 32, reqs := r.reqs ++ ([⟨q, cmd, conn, inst, gen⟩] : List MedReq) }) d
  postUp 2 q (leBytes 2 kind ++ leBytes 2 inst ++ leBytes 2 gen ++ rest) (d1.stat R.INS_MED_REQS 1)

/-- The entries left when the host has consumed the oldest in the ring: a completion or an answered request goes, a request stays until its
answer. -/
def consumeUp (es : List UpEnt) : List UpEnt :=
  match es.find? fun e => e.place == 1 with
  | none => es
  | some e =>
    if e.typ = 1 || e.done then es.eraseP fun x => x.place == 1
    else mapFirst (fun x => x.place == 1) (fun x => { x with place := 2 }) es

/-- UP_HEAD_WRITE (R418): the host has consumed entries up to an index. -/
def upHeadWrite (v : Nat) (d : Dev) : Dev :=
  let n := upSize d
  let head := d.getF R.INS_UP_HEAD_INDEX
  let held := (d.getF R.INS_UP_TAIL_INDEX + n - head) % n
  let took := Nat.min held ((v % n + n - head) % n)
  let d1 := forEach (List.range took) (fun _ d => modRings (fun r => { r with ents := consumeUp r.ents }) d) d
  pumpUp (d1.setF R.INS_UP_HEAD_INDEX (v % 4096))

/-- Fetch the next down entry (R418), as the physical function without a PASID. -/
def fetchDown (d : Dev) : Dev :=
  let h := d.getF R.INS_DN_HEAD_INDEX
  if !d.getB R.INS_MQ_CTL_EN || !d.dmaOn || d.nvm.rings.fetching || h == d.getF R.INS_DN_TAIL_INDEX then d
  else modRings (fun r => { r with fetching := true }) (d.hostRead .downRing (d.getF R.INS_DN_BASE_ADDR * 4096 + 128 * h) 128 none)

/-- DN_TAIL_WRITE (R418). -/
def dnTailWrite (v : Nat) (d : Dev) : Dev := fetchDown (d.setF R.INS_DN_TAIL_INDEX (v % 4096))

/-- MQ_ENABLE (R423): EN goes from 0 to 1: pointers are zero, everything unanswered or not consumed is posted again in its order. -/
def mqEnable (d : Dev) : Dev :=
  if d.getB R.INS_MQ_CTL_EN then d
  else
    let d1 := (((d.setF R.INS_UP_HEAD_INDEX 0).setF R.INS_UP_TAIL_INDEX 0).setF R.INS_DN_HEAD_INDEX 0).setF R.INS_DN_TAIL_INDEX 0
    pumpUp (modRings (fun r => { r with
      ents := (r.ents.filter fun e => !e.done).map fun e => { e with place := 0 }
      phase := true, fetching := false }) (d1.setB R.INS_MQ_CTL_EN true))

/-! ## The set-up commands -/

/-- A set-up command that names an instance finds it frozen, migrating or deleting (R421, R436). -/
def instBusy (d : Dev) (i : Nat) : Bool :=
  decide (d.getF (R.INS_I_STATE_STATE i) ≥ 3) || match d.nvm.mig with
    | some m => m.inst == i
    | none => false

/-- End every association of an instance on this head. -/
def endAssociations (i : Nat) (d : Dev) : Dev := forEach (instCtrls d i) endAssociation d

/-- A command that waits in a rate queue is abandoned (R424, R425). -/
def dropQueued (id : Nat) (d : Dev) : Dev :=
  match headOf d id with
  | none => d
  | some h =>
    if (d.wCmd id).isSome then abandonWrite id none d
    else if (d.rdCmd id).isSome then abandonRead id d
    else discardCpl h (flushRelease id (dropNCmd id d))

/-- Empty an instance's rate queue. -/
def emptyRateQueue (i : Nat) (d : Dev) : Dev :=
  let d1 := forEach (d.inst i).rateQueue dropQueued d
  d1.modInst i fun x => { x with rateQueue := [], rateSince := none }

/-- Entry fetches of a slice whose queues are gone are discarded when they arrive. -/
def dropFetches (s : Nat) (d : Dev) : Dev :=
  { d with hep := { d.hep with
      reads := d.hep.reads.map fun r => match r.work with
        | .sqFetch s' _ => if s' = s then { r with discard := true } else r
        | .sliceSgl s' _ _ => if s' = s then { r with discard := true } else r
        | _ => r
      waiting := d.hep.waiting.filter fun w => match w.1 with
        | .sqFetch s' _ => s' != s
        | .sliceSgl s' _ _ => s' != s
        | _ => true } }

/-- Reset the slices of an instance (R424): pointers zero, the generation rises. -/
def resetSlices (i : Nat) (d : Dev) : Dev :=
  forEach (d.nvm.slices.filter fun e => e.2.bound && e.2.inst == i) (fun e d => (dropFetches e.1 d).modSlice e.1 fun x => { x with
    gen := (x.gen + 1) % 65536
    queues := x.queues.map fun q => (q.1, { sliceQFresh with sqBase := q.2.sqBase, cqBase := q.2.cqBase }) }) d

/-- What a new generation of an instance brings about on a head (R424). -/
def resetInst (i : Nat) (d : Dev) : Dev :=
  emptyRateQueue i (resetSlices i (endAssociations i (raiseInstGen i d)))

/-- A set-up command with a number assigned, or none free (R410, R411, R420). -/
def withNumber (num : Option Nat) (w : SetupWait) (d : Dev) : Dev :=
  match num with
  | none => setupCpl w.tag 2 0 d
  | some i =>
    if w.kind = 1 then
      let dom := fieldAt w.body 0 2
      let home := newHome d
      let d1 := if (d.domain dom).inUse then d
        else changeStore (fun ks => { ks with domains := tabPut ks.domains dom ⟨true, false, 1, slice w.body 48 32⟩ }) d
      let k := fieldAt w.body 4 4
      let m := fieldAt w.body 8 4
      let dep := bucketDepth k m
      let x : Inst := { instFresh with
        subsys := slice w.body 16 32, bucketCmds := dep.1, bucketBytes := dep.2, rateTime := d.now, created := d.now }
      let d2 := ((d1.setF (R.INS_I_DOMAIN_DOMAIN i) dom).setF (R.INS_I_EPOCH_EPOCH i) (d1.domain dom).epoch).setF (R.INS_I_STATE_HOME i) home
      let d3 := (d2.setF (R.INS_I_QOS_RATE_KCMDS i) k).setF (R.INS_I_QOS_RATE_MBPS i) m
      setupCpl w.tag 0 i (syncPeerInst i false (syncInst i (showServer i home (d3.modInst i fun _ => x))))
    else
      let inst := fieldAt w.body 0 2
      let id := fieldAt w.body 2 2
      let nsid := if id ≠ 0 then id
        else ((lowestBelow 256 fun k => !(instNamespaces d inst).any fun n => n.nsid == k + 1).map (· + 1)).getD 0
      let n : Ns := ⟨i, nsid, inst, fieldAt w.body 4 1 == 1, fieldAt w.body 8 8, 0, 0, false, 1, []⟩
      let d1 : Dev := { d with nvm := { d.nvm with namespaces := tabPut d.nvm.namespaces i n } }
      setupCpl w.tag 0 (i + nsid * 2 ^ 32) (syncPeerInst inst false (nsChange inst nsid (syncInst inst d1)))

/-- Obtain a number for a set-up command (R410): assigned here, or asked from head 0. -/
def obtainNumber (w : SetupWait) (d : Dev) : Dev :=
  if d.headNum = 1 && d.peerUp then
    sendPeer 0x38 0 [w.kind] [] (modRings (fun r => { r with waits := r.waits ++ [w] }) d)
  else withNumber (freeNumber d w.kind) w d

/-- CREATE_INSTANCE (R410, R411, R420). -/
def createInstance (tag : Nat) (b : Bytes) (d : Dev) : Dev :=
  let dom := fieldAt b 0 2
  if dom = 0 ∨ dom > 0xFFF then setupCpl tag 1 0 d
  else if (d.domain dom).inUse && (d.domain dom).tenant != slice b 48 32 then setupCpl tag 9 0 d
  else obtainNumber ⟨1, 1, tag, b⟩ d

/-- A set-up command on an existing instance that is not busy. -/
def onInst (tag : Nat) (b : Bytes) (f : Nat → Dev → Dev) (d : Dev) : Dev :=
  let i := fieldAt b 0 2
  if i > 1023 ∨ !d.hasInst i then setupCpl tag 3 0 d
  else if instBusy d i then setupCpl tag 4 0 d
  else f i d

/-- The registers and the record of an instance that is no more; its generation stays. -/
def clearInst (i : Nat) (d : Dev) : Dev :=
  let d1 := (((d.setF (R.INS_I_STATE_STATE i) 0).setF (R.INS_I_STATE_HOME i) 0).setF (R.INS_I_STATE_SERVER i) 0).setF (R.INS_I_DOMAIN_DOMAIN i) 0
  let d2 := (((d1.setF (R.INS_I_EPOCH_EPOCH i) 0).setF (R.INS_I_QOS_RATE_KCMDS i) 0).setF (R.INS_I_QOS_RATE_MBPS i) 0)
  syncInst i { d2 with nvm := { d2.nvm with insts := d2.nvm.insts.filter fun e => e.1 != i } }

/-- DELETE_INSTANCE (R420, R424, R436). -/
def deleteInstance (tag : Nat) (b : Bytes) (d : Dev) : Dev :=
  onInst tag b (fun i d =>
    if d.nvm.mig.isSome then setupCpl tag 4 0 d
    else if !(instNamespaces d i).isEmpty || d.nvm.slices.any (fun e => e.2.bound && e.2.inst == i) then setupCpl tag 7 0 d
    else setupCpl tag 0 0 (syncPeerInst i true (clearInst i (resetInst i d)))) d

/-- RESET_INSTANCE (R424, R436). -/
def resetInstance (tag : Nat) (b : Bytes) (d : Dev) : Dev :=
  onInst tag b (fun i d =>
    if d.nvm.mig.isSome then setupCpl tag 4 0 d
    else
      let d1 := resetInst i d
      setupCpl tag 0 (d1.instGen i) (syncPeerInst i false d1)) d

/-- SET_QOS (R415, R420). -/
def setQos (tag : Nat) (b : Bytes) (d : Dev) : Dev :=
  onInst tag b (fun i d =>
    let d1 := ((refill i d).setF (R.INS_I_QOS_RATE_KCMDS i) (fieldAt b 4 4)).setF (R.INS_I_QOS_RATE_MBPS i) (fieldAt b 8 4)
    setupCpl tag 0 0 (syncPeerInst i false (refill i d1))) d

/-- SET_HOSTS (R409, R420). -/
def setHosts (tag : Nat) (b : Bytes) (d : Dev) : Dev :=
  onInst tag b (fun i d =>
    let n := fieldAt b 2 1
    if n > 12 then setupCpl tag 1 0 d
    else setupCpl tag 0 0 (syncPeerInst i false (d.modInst i fun x => { x with
      hosts := (List.range n).map fun k => slice b (8 + 8 * k) 8 }))) d

/-- CREATE_NS (R412, R420). -/
def createNs (tag : Nat) (b : Bytes) (d : Dev) : Dev :=
  onInst tag b (fun i d =>
    let nsid := fieldAt b 2 2
    let size := fieldAt b 8 8
    let mine := instNamespaces d i
    if size = 0 ∨ nsid > 256 ∨ (nsid ≠ 0 ∧ mine.any fun n => n.nsid == nsid) ∨ fieldAt b 4 1 > 1 then setupCpl tag 1 0 d
    else if mine.length ≥ 256 then setupCpl tag 2 0 d
    else if sumL (d.nvm.namespaces.map fun e => e.2.chunks) + size > 2 ^ 41 then setupCpl tag 5 0 d
    else obtainNumber ⟨2, 6, tag, b⟩ d) d

/-- Start to deallocate a namespace that is being deleted, on its serving head (R412): an internal deallocation over all of it, once its
snapshots are gone (R448). -/
def startNsDealloc (n : Ns) (d : Dev) : Dev :=
  if !d.serves n.inst then d
  else
    let e : Sqe := ⟨9, 0, 0, 0, n.nsid, 0, 0, 0, 0, 0, 0, 0, 0, 0, 0⟩
    let h : CHead := ⟨d.nvm.nextCmd, .internal 0, e, [], false, n.nsg, n.inst, d.instGen n.inst, 0, d.now⟩
    addN { nCmdNew h with prog := 2, landed := true } (deleteSnaps n.nsg (haltStreams 6 n.nsg (newId d).2))

/-- DELETE_NS (R412). -/
def deleteNs (tag : Nat) (b : Bytes) (d : Dev) : Dev :=
  onInst tag b (fun i d =>
    match nsOf d i (fieldAt b 2 2) with
    | none => setupCpl tag 3 0 d
    | some n =>
      let d1 := d.modNs n.nsg fun x => { x with deleting := true }
      setupCpl tag 0 0 (syncPeerInst i false (startNsDealloc n (nsChange i n.nsid d1)))) d

/-- Forget the tree of a namespace that is no more. -/
def dropTree (nsg : Nat) (d : Dev) : Dev :=
  let old := fun (k : Nat) => keyTree k == nsg
  { d with map := { d.map with
    lines := d.map.lines.filter fun l => !old l.2.key
    fifo := d.map.fifo.filter fun e => !old e.1
    roots := (List.range 6).foldl (fun t k => tabPut t (nsg * 8 + k) ptrNull) (d.map.roots.filter fun e => e.1 / 8 != nsg) } }

/-- The NSG of a deleted namespace becomes free once its last deallocation is durable and its last snapshot gone (R412, R448). -/
def pumpNsDelete (d : Dev) : Dev :=
  forEach (d.nvm.cmds.filter fun c => c.h.origin == .internal 0 && c.prog == 4 && c.wait.isEmpty) (fun c d =>
    match d.ns c.h.nsg with
    | none => dropNCmd c.h.id d
    | some n =>
      if !n.snaps.isEmpty then d
      else
        let d1 := dropNCmd c.h.id { d with nvm := { d.nvm with namespaces := d.nvm.namespaces.filter fun e => e.1 != n.nsg } }
        syncPeerInst n.inst false (syncInst n.inst (dropTree n.nsg d1))) d

/-- BIND_SLICE (R411, R416, R420). -/
def bindSlice (tag : Nat) (b : Bytes) (d : Dev) : Dev :=
  let s := fieldAt b 0 2
  let i := fieldAt b 2 2
  let q := fieldAt b 8 1
  let v := fieldAt b 10 2
  let dep := fieldAt b 12 2
  if s > 4095 ∨ fieldAt b 4 4 ≥ 2 ^ 20 ∨ q = 0 ∨ q > 4 ∨ dep < 2 ∨ dep > d.limit 3 ∨ (v ≥ 2048 ∧ v ≠ 0xFFFF) ∨ (d.slice s).bound then
    setupCpl tag 1 0 d
  else if i > 1023 ∨ !d.hasInst i then setupCpl tag 3 0 d
  else if instBusy d i then setupCpl tag 4 0 d
  else if (d.nvm.slices.filter fun e => e.2.bound).length ≥ d.limit 5 ∨ nvmeQueues d + q > d.limit 2 then setupCpl tag 2 0 d
  else
    let qs := (List.range q).map fun k => (k, { sliceQFresh with sqBase := fieldAt b (16 + 8 * k) 8, cqBase := fieldAt b (48 + 8 * k) 8 })
    let d1 := d.modSlice s fun x => { x with
      bound := true, inst := i, pasid := fieldAt b 4 4, queues := qs, nq := q, depth := dep, vector := v }
    setupCpl tag 0 (d1.slice s).gen (syncInst i d1)

/-- A slice is unbound: its generation rises (R416, R424). -/
def freeSlice (s : Nat) (d' : Dev) : Dev :=
  let d := dropFetches s d'
  let x := d.slice s
  syncInst x.inst (d.modSlice s fun x => { sliceFresh with gen := (x.gen + 1) % 65536 })

/-- UNBIND_SLICE (R420). -/
def unbindSlice (tag : Nat) (b : Bytes) (d : Dev) : Dev :=
  let s := fieldAt b 0 2
  if s > 4095 ∨ !(d.slice s).bound then setupCpl tag 3 0 d
  else
    let d1 := freeSlice s d
    setupCpl tag 0 (d1.slice s).gen d1

/-- A request is answered: its entry goes once the host has read past it. -/
def endRequest (q : Nat) (d : Dev) : Dev :=
  modRings (fun r => { r with
    reqs := r.reqs.filter fun x => x.reqId != q
    ents := (r.ents.filter fun e => !(e.typ == 2 && e.tag == q && e.place != 1)).map fun e =>
      if e.typ == 2 && e.tag == q then { e with done := true } else e }) d

/-- Complete a Connect that waited for its answer, where its queue pair still stands as it was. -/
def answerConnect (c : ConnReq) (st i : Nat) (d : Dev) : Dev :=
  let q := d.qp c.qpn
  if q.gen ≠ c.qpGen ∨ q.st ≠ .rts ∨ q.use ≠ .none then d
  else if st = 0 then acceptConnect i c.qpn c.cid c.host c.kato d
  else connectCpl c.qpn 0 0 c.cid st 0 d

/-- ANSWER (R423, R425). -/
def answer (tag : Nat) (b : Bytes) (d : Dev) : Dev :=
  let q := fieldAt b 0 4
  let st := fieldAt b 4 2 % 2048
  let dw0 := fieldAt b 8 4
  match d.nvm.rings.reqs.find? fun r => r.reqId == q with
  | none => setupCpl tag 3 0 d
  | some r =>
    if r.inst ≠ 0xFFFF ∧ (!d.hasInst r.inst ∨ d.instGen r.inst ≠ r.gen) then setupCpl tag 3 0 d
    else match r.connect with
      | none => setupCpl tag 0 0 (finishN r.cmd st dw0 (endRequest q d))
      | some c =>
        if st ≠ 0 then setupCpl tag 0 0 (answerConnect c st 0 (endRequest q d))
        else if dw0 ≥ 1024 then setupCpl tag 1 0 d
        else if !d.hasInst dw0 then setupCpl tag 3 0 d
        else setupCpl tag 0 0 (answerConnect c 0 dw0 (endRequest q d))

/-- Execute a set-up command (R410, R420): refused by a head that is not in service. -/
def setup (op tag : Nat) (b : Bytes) (d : Dev) : Dev :=
  let d1 := d.stat R.INS_SETUP_CMDS 1
  if !d1.inService then setupCpl tag 6 0 d1
  else match op with
    | 1 => createInstance tag b d1
    | 2 => deleteInstance tag b d1
    | 3 => resetInstance tag b d1
    | 4 => setQos tag b d1
    | 5 => setHosts tag b d1
    | 6 => createNs tag b d1
    | 7 => deleteNs tag b d1
    | 0x0A => bindSlice tag b d1
    | 0x0B => unbindSlice tag b d1
    | 0x0D => answer tag b d1
    | _ => setupCpl tag 1 0 d1

/-- A down entry has arrived (R418, R419), or its read failed and it is fetched again at the next tail write (R533). -/
def downEntry (b : Option Bytes) (d : Dev) : Dev :=
  let d1 := modRings (fun r => { r with fetching := false }) d
  match b with
  | none => d1
  | some e =>
    let d2 := d1.setF R.INS_DN_HEAD_INDEX ((d1.getF R.INS_DN_HEAD_INDEX + 1) % dnSize d1)
    let tag := fieldAt e 4 4
    fetchDown (if fieldAt e 124 4 ≠ crcNat (slice e 0 124) then setupCpl tag 8 0 (d2.err R.E_INS_RING_ERR)
      else setup (fieldAt e 0 1) tag (slice e 8 112) d2)

/-- NUM_REQ (R410): head 0 assigns the lowest free number to head 1. -/
def numReq (kind : Nat) (d : Dev) : Dev :=
  match freeNumber d kind with
  | none => sendPeer 0x39 0 [kind, 0xFFFFFFFF] [] d
  | some n => sendPeer 0x39 0 [kind, n] [] { d with nvm := { d.nvm with given := d.nvm.given ++ [(kind, n)] } }

/-- NUM_RESP (R410): the oldest set-up command that waits for a number of the kind goes on. -/
def numResp (kind n : Nat) (d : Dev) : Dev :=
  match d.nvm.rings.waits.find? fun w => w.kind == kind with
  | none => d
  | some w =>
    let d1 := modRings (fun r => { r with waits := r.waits.eraseP fun x => x.kind == kind }) d
    withNumber (if n = 0xFFFFFFFF then none else some n) w d1

/-- Namespaces of an INST_SYNC or a blob: NSID, NSG, class, DELETING, chunks, NUSE, both pointers. -/
def readNs (i : Nat) (b : Bytes) : Ns × PagePtr × PagePtr :=
  (⟨fieldAt b 4 2, fieldAt b 0 4, i, fieldAt b 6 1 == 1, fieldAt b 8 8, fieldAt b 16 8, fieldAt b 16 8, bitAt (fieldAt b 7 1) 0, 1, []⟩,
    ptrOf (slice b 32 32), ptrOf (slice b 64 32))

/-- Take an instance record over (R409, R433). -/
def takeInst (i : Nat) (b : Bytes) (d : Dev) : Dev :=
  let hosts := fieldAt b 14 2
  let d1 := ((d.setF (R.INS_I_DOMAIN_DOMAIN i) (fieldAt b 4 2 % 4096)).setF (R.INS_I_EPOCH_EPOCH i) (fieldAt b 8 4)).setF
    (R.INS_I_STATE_HOME i) (fieldAt b 6 1 % 2)
  let d2 := (d1.setF (R.INS_I_QOS_RATE_KCMDS i) (fieldAt b 16 4)).setF (R.INS_I_QOS_RATE_MBPS i) (fieldAt b 20 4)
  d2.modInst i fun x => { x with
    subsys := slice b 48 32, created := fieldAt b 40 8, hosts := (List.range (Nat.min 12 hosts)).map fun k => slice b (112 + 8 * k) 8 }

/-- INST_SYNC (R409, R410, R424): the local copy of an instance follows; a namespace that came, went or is being deleted is told to its
controllers, and deallocated where this head serves it. -/
def instSync (i : Nat) (deleted : Bool) (b : Bytes) (d : Dev) : Dev :=
  let d0 : Dev := { d with nvm := { d.nvm with given := d.nvm.given.filter (· != (1, i)) } }
  if deleted then clearInst i (resetInst i d0)
  else
    let gen := fieldAt b 2 2
    let fresh := !d0.hasInst i
    let d1 := if !fresh && d0.instGen i != gen then resetInst i d0 else d0
    let d2 := (takeInst i b d1).setF (R.INS_I_STATE_GEN i) gen
    let d3 := if fresh then
        let k := fieldAt b 16 4
        let m := fieldAt b 20 4
        (showServer i (fieldAt b 6 1 % 2) d2).modInst i fun x => { x with
          bucketCmds := (bucketDepth k m).1, bucketBytes := (bucketDepth k m).2, rateTime := d2.now }
      else d2
    let ns := (List.range (fieldAt b 12 2)).map fun k => (readNs i (slice b (256 + 128 * k) 128)).1
    let gone := (instNamespaces d3 i).filter fun n => !ns.any fun x => x.nsg == n.nsg
    let d4 := forEach gone (fun n d => nsChange i n.nsid (dropTree n.nsg { d with nvm := { d.nvm with
      namespaces := d.nvm.namespaces.filter fun e => e.1 != n.nsg } })) d3
    let d5 := forEach ns (fun n d =>
      let d : Dev := { d with nvm := { d.nvm with given := d.nvm.given.filter (· != (2, n.nsg)) } }
      match d.ns n.nsg with
      | none => nsChange i n.nsid { d with nvm := { d.nvm with namespaces := tabPut d.nvm.namespaces n.nsg n } }
      | some o =>
        if n.deleting && !o.deleting then
          startNsDealloc o (nsChange i n.nsid (d.modNs n.nsg fun x => { x with deleting := true }))
        else if d.serves i then d
        else d.modNs n.nsg fun x => { x with nuse := n.nuse, nuseShown := n.nuseShown }) d4
    syncInst i d5

end Sys2Proof.Machine
end

