-- ==== Sys2Proof/Machine/AdminOps.lean ====
section
/-! DEFINITION. Admin and Fabrics commands: Identify, log pages, features, events, keep-alive, Abort, properties (R386 to R391, R400 to R407,
R413, R414, R604). -/

namespace Sys2Proof.Machine

/-- An admin command arrives on a controller's admin queue (R384, R386 to R391): it takes its number and passes the checks that every
command passes, then `f` gives its effect from its head, its controller and that controller's state. -/
def adminCommand (opc : Nat) (f : CHead → Nat → Ctrl → Dev → Dev) (o : Origin) (e : Sqe) (cap : Bytes) (d : Dev) : Dev :=
  match o, originOf d true o with
  | .fabric c _ _, some (i, sgen) => match d.ctrl c with
    | none => d
    | some x =>
      let h := mkHead d true (withCid o e.cid) { e with opc := opc } cap i sgen
      let d1 := (newId d).2
      if e.fuse ≠ 0 ∨ e.cdw2 ≠ 0 ∨ e.cdw3 ≠ 0 then sendCompletion h stField 0 0 d1
      else match dataPtr h with
        | .bad st => sendCompletion h st 0 0 d1
        | _ => f h c x d1
  | _, _ => d

/-- Complete with data placed first (R364): at most as many bytes as the buffer holds. -/
def sendData (h : CHead) (b : Bytes) (d : Dev) : Dev := sendCompletion h stOk 0 0 (placeBytes h 0 0 b d)

/-- Bytes with parts laid over zeros. -/
def layBytes (n : Nat) (l : List (Nat × Bytes)) : Bytes := l.foldl (fun b e => overlay b e.1 e.2) (zeros n)

/-! ## Identify (R400) -/

/-- Identify Controller (R400); the offsets are the standard's (PRESUMED, log entry 19). -/
def identifyCtrl (c : Nat) : Bytes :=
  layBytes 4096 [(76, [0x0A#8]), (77, [8#8]), (78, leBytes 2 c), (80, leBytes 4 0x20000), (256, leBytes 2 8), (258, [3#8]), (259, [15#8]),
    (262, [255#8]), (320, leBytes 2 1), (342, [1#8]), (343, [0x57#8]), (344, leBytes 4 1024), (348, leBytes 4 1024),
    (514, leBytes 2 1024), (516, leBytes 4 256), (520, leBytes 2 0xC), (525, [6#8]), (526, leBytes 2 3), (528, leBytes 2 3),
    (536, leBytes 4 0x100005), (1792, leBytes 4 516), (1796, leBytes 4 1), (1803, [16#8])]

/-- The fields of Identify Namespace that every namespace shares. -/
def identifyCommon : List (Nat × Bytes) := [(24, [0x11#8]), (30, [1#8]), (128, leBytes 4 0xC0000)]

/-- Identify Namespace (R393, R396, R400). -/
def identifyNs (n : Ns) : Bytes :=
  layBytes 4096 (identifyCommon ++ [(0, leBytes 8 (4 * n.chunks)), (8, leBytes 8 (4 * n.chunks)), (16, leBytes 8 (4 * n.nuseShown)),
    (33, [9#8]), (34, leBytes 2 3), (36, leBytes 2 3), (40, leBytes 2 3), (64, leBytes 2 3), (66, leBytes 2 3), (68, leBytes 2 3),
    (70, leBytes 2 3), (72, leBytes 2 3), (92, leBytes 4 (n.inst + 1))])

/-- Namespaces attached to an instance's controllers, ascending, not being deleted (R412). -/
def attached (d : Dev) (i : Nat) : List Ns := (nsSorted d i).filter fun n => !n.deleting

/-- IDENTIFY (R386, R400). -/
def identify (o : Origin) (e : Sqe) (cap : Bytes) (d : Dev) : Dev :=
  adminCommand 0x06 (fun h c x d =>
    let cns := e.cdw10 % 256
    let csi := e.cdw11 / 2 ^ 24
    let n := nsOf d x.inst e.nsid
    let bad := fun (st : Nat) => sendCompletion h st 0 0 d
    match cns with
    | 0 => match n with
      | some y => sendData h (identifyNs y) d
      | none =>
        if e.nsid = 0xFFFFFFFF then sendData h (layBytes 4096 identifyCommon) d
        else if 1 ≤ e.nsid ∧ e.nsid ≤ 256 then sendData h (zeros 4096) d
        else bad stNamespace
    | 1 => sendData h (identifyCtrl c) d
    | 2 =>
      if e.nsid ≥ 0xFFFFFFFE then bad stNamespace
      else sendData h (layBytes 4096 [(0, ((attached d x.inst).filter fun y => decide (y.nsid > e.nsid)).flatMap fun y => leBytes 4 y.nsid)]) d
    | 3 => if n.isSome then sendData h (zeros 4096) d else bad stNamespace
    | 5 =>
      if csi ≠ 0 then bad stField
      else if n.isSome ∨ (1 ≤ e.nsid ∧ e.nsid ≤ 256) ∨ e.nsid = 0xFFFFFFFF then sendData h (zeros 4096) d else bad stNamespace
    | 6 => if csi ≠ 0 then bad stField else sendData h (layBytes 4096 [(1, [8#8])]) d
    | _ => bad stField) o e cap d

/-! ## Log pages (R401, R406) -/

/-- Error Information entry `i` of a controller, newest first (R401, R402). -/
def errorEntry (x : Ctrl) (i : Nat) : Bytes :=
  match x.errors[i]? with
  | none => zeros 64
  | some y => leBytes 8 y.count ++ leBytes 2 y.sqid ++ leBytes 2 y.cid ++
      leBytes 2 (y.status % 256 * 2 + y.status / 256 % 8 * 512 + b2n (dnrOf y.status) * 32768) ++ zeros 2 ++ leBytes 8 y.lba ++
      leBytes 4 y.nsid ++ zeros 36

/-- Least spare share of the modules the array uses, in percent (R297, R401). -/
def spareShare (d : Dev) : Nat :=
  (onModules d).foldl (fun s m =>
    let share := (d.module m).spare / 2
    Nat.min s (if share = 0 then 0 else Nat.min 100 (d.getF (R.MED_M_SPARE_LEVEL m) * 100 / share))) 100

/-- Units of 1,000 × 512 bytes, rounded up, as the standard counts data units. -/
def smartUnits (n : Nat) : Nat := (n + 511999) / 512000

/-- SMART / Health Information (R401). -/
def smartPage (x : Ctrl) (d : Dev) : Bytes :=
  let i := x.inst
  let warn := b2n ((onModules d).any fun m => d.spent m)
  layBytes 512 [(0, leBytes 1 warn), (1, leBytes 2 (273 + d.getF R.HTH_TEMP_CUR_C)), (3, leBytes 1 (spareShare d)),
    (32, leBytes 16 (smartUnits (d.rd (R.INS_I_RD_BYTES i)))), (48, leBytes 16 (smartUnits (d.rd (R.INS_I_WR_BYTES i)))),
    (64, leBytes 16 (d.rd (R.INS_I_RD_CMDS i))), (80, leBytes 16 (d.rd (R.INS_I_WR_CMDS i))),
    (160, leBytes 16 d.nvm.lseq), (176, leBytes 16 x.errCount)]

/-- Changed Namespace List: the first 1,024 (R401). -/
def changedPage (x : Ctrl) : Bytes :=
  layBytes 4096 [(0, ((List.range 257).filter x.changed.contains).flatMap (leBytes 4 ·))]

/-- Commands Supported and Effects: CSUPP, and LBCC for those that change blocks (R385 to R387, R401). -/
def effectsPage : Bytes :=
  layBytes 4096 (([0x02, 0x06, 0x08, 0x09, 0x0A, 0x0C, 0x0D, 0x15, 0x18, 0x7F, 0xC4, 0xC8].map fun k => (4 * k, leBytes 4 1)) ++
    [(1024, leBytes 4 1), (1024 + 8, leBytes 4 1)] ++ ([0x01, 0x08, 0x09, 0x85].map fun k => (1024 + 4 * k, leBytes 4 3)))

/-- Asymmetric Namespace Access (R401, R405): the group of the controller's instance; `short` leaves the NSIDs out. -/
def anaPage (short : Bool) (x : Ctrl) (d : Dev) : Bytes :=
  let ns := if short then [] else attached d x.inst
  let cnt := (d.inst x.inst).anaCount
  leBytes 8 cnt ++ leBytes 2 1 ++ zeros 6 ++ leBytes 4 (x.inst + 1) ++ leBytes 4 ns.length ++ leBytes 8 cnt ++
    leBytes 1 (anaState d x.inst) ++ zeros 15 ++ ns.flatMap fun n => leBytes 4 n.nsid

/-- Header of the Loss Report (R406). -/
def lossHeader (d : Dev) : Bytes :=
  let b := [1#8] ++ leBytes 1 d.headNum ++ zeros 2 ++ leBytes 4 d.nvm.lseq ++ leBytes 4 ((d.nvm.loss.head?.map (·.lseq)).getD 0) ++ zeros 48
  b ++ leBytes 4 (crcNat b)

/-- A slot of the Loss Report as a controller reads it (R406). -/
def lossSlot (x : Ctrl) (d : Dev) (i : Nat) : Bytes :=
  match d.nvm.loss.find? fun r => r.lseq % 65536 == i with
  | none => zeros 64
  | some r => match d.ns r.nsg with
    | none => zeros 64
    | some n =>
      if n.inst ≠ x.inst ∨ n.deleting then zeros 64
      else
        let b := leBytes 4 r.lseq ++ leBytes 4 n.nsid ++ leBytes 8 (4 * r.chunk) ++ leBytes 1 r.lost ++ leBytes 1 r.cause ++
          leBytes 1 r.module ++ leBytes 1 r.flags ++ zeros 4 ++ leBytes 8 r.page ++ leBytes 8 r.handle ++ leBytes 8 r.time ++ zeros 12
        b ++ leBytes 4 (crcNat b)

/-- Bytes of a page made of 64-byte pieces, from an offset on: only the pieces asked for are built. -/
def piecesAt (piece : Nat → Bytes) (total off len : Nat) : Bytes :=
  let n := Nat.min len (total - off)
  if n = 0 then []
  else slice ((List.range ((off + n - 1) / 64 - off / 64 + 1)).flatMap fun k => piece (off / 64 + k)) (off % 64) n

/-- Bytes of a log page from an offset on; none where the page is not supported (R401). -/
def logBytes (h : CHead) (x : Ctrl) (lid off len : Nat) (d : Dev) : Option Bytes :=
  match lid with
  | 0x01 => some (piecesAt (errorEntry x) 16384 off len)
  | 0x02 => some (slice ((smartPage x d).drop off) 0 (Nat.min len (512 - off)))
  | 0x04 => some (slice ((changedPage x).drop off) 0 (Nat.min len (4096 - off)))
  | 0x05 => some (slice (effectsPage.drop off) 0 (Nat.min len (4096 - off)))
  | 0x0C =>
    let p := anaPage (bitAt h.sqe.cdw10 8) x d
    some (slice (p.drop off) 0 (Nat.min len (p.length - off)))
  | 0xC0 => some (piecesAt (fun k => if k = 0 then lossHeader d else lossSlot x d (k - 1)) 4194368 off len)
  | _ => none

/-- GET_LOG_PAGE (R401, R402, R407): with RAE clear the page's event may be posted again, and the Changed Namespace List is empty. -/
def getLogPage (o : Origin) (e : Sqe) (cap : Bytes) (d : Dev) : Dev :=
  adminCommand 0x02 (fun h c x d =>
    let lid := e.cdw10 % 256
    let len := 4 * (e.cdw10 / 2 ^ 16 + e.cdw11 % 2 ^ 16 * 2 ^ 16 + 1)
    let off := e.cdw12 + e.cdw13 * 2 ^ 32
    match logBytes h x lid off len d with
    | none => sendCompletion h stField 0 0 d
    | some b =>
      if len > 2 ^ 20 ∨ off % 4 ≠ 0 then sendCompletion h stField 0 0 d
      else
        let d1 := sendData h b d
        if bitAt e.cdw10 15 then d1
        else d1.modCtrl c fun y => { y with
          maskedEv := y.maskedEv.filter (· != lid), changed := if lid = 4 then [] else y.changed }) o e cap d

/-! ## Features, events, keep-alive (R386, R400) -/

/-- Grant of I/O queues as Dword 0 gives it. -/
def grantDw (g : Option Nat) : Nat :=
  match g with
  | none => 0
  | some n => (n - 1) + (n - 1) * 65536

/-- SET_FEATURES (R395, R400). -/
def setFeatures (o : Origin) (e : Sqe) (cap : Bytes) (d : Dev) : Dev :=
  adminCommand 0x09 (fun h c x d =>
    match e.cdw10 % 256 with
    | 0x07 =>
      let n := Nat.min 128 (Nat.min (e.cdw11 % 65536) (e.cdw11 / 65536) + 1)
      let g := x.granted.getD n
      sendCompletion h stOk (grantDw (some g)) 0 (d.modCtrl c fun y => { y with granted := some g })
    | 0x0B => sendCompletion h stOk 0 0 (d.modCtrl c fun y => { y with feats := tabPut y.feats 0x0B e.cdw11 })
    | 0x0F => sendCompletion h stOk 0 0 (d.modCtrl c fun y => { y with kato := e.cdw11 })
    | _ => sendCompletion h stField 0 0 d) o e cap d

/-- GET_FEATURES (R400). -/
def getFeatures (o : Origin) (e : Sqe) (cap : Bytes) (d : Dev) : Dev :=
  adminCommand 0x0A (fun h _ x d =>
    match e.cdw10 % 256 with
    | 0x07 => sendCompletion h stOk (grantDw x.granted) 0 d
    | 0x0B => sendCompletion h stOk (tabGet 0 x.feats 0x0B) 0 d
    | 0x0F => sendCompletion h stOk x.kato 0 d
    | _ => sendCompletion h stField 0 0 d) o e cap d

/-- ASYNCHRONOUS_EVENT_REQUEST (R386): held until an event, at most 16 on a controller. -/
def asynchronousEventRequest (o : Origin) (e : Sqe) (cap : Bytes) (d : Dev) : Dev :=
  adminCommand 0x0C (fun h c x d =>
    if x.aers.length ≥ 16 then sendCompletion h stAerLimit 0 0 d
    else addN (nCmdNew h) (d.modCtrl c fun y => { y with aers := y.aers ++ [h.id] })) o e cap d

/-- KEEP_ALIVE (R386, R400): the timer starts again. -/
def keepAlive (o : Origin) (e : Sqe) (cap : Bytes) (d : Dev) : Dev :=
  adminCommand 0x18 (fun h _ _ d => sendCompletion h stOk 0 0 d) o e cap d

/-- KEEP_ALIVE_EXPIRY (R400, R414). -/
def keepAliveExpiry (c : Nat) (d : Dev) : Dev :=
  match d.ctrl c with
  | none => d
  | some x => if x.kato = 0 then d else endAssociation c (d.err R.E_CMQ_KATO_EXP)

/-! ## Abort (R604) -/

/-- A command of a queue before its admission. -/
def abortable (d : Dev) (h : CHead) : Bool :=
  match d.wCmd h.id, d.rdCmd h.id, d.nCmd h.id with
  | some c, _, _ => !c.admitted
  | _, some c, _ => !c.admitted
  | _, _, some c => c.held || (c.prog == 0 && c.aux == 0) || (c.aux == 1 && c.prog == 2)
  | _, _, _ => false

/-- End a command before its admission with Command Abort Requested. -/
def abortCmd (h : CHead) (d : Dev) : Dev :=
  let d1 := d.modInst h.inst fun x => { x with rateQueue := x.rateQueue.filter (· != h.id) }
  if (d1.wCmd h.id).isSome then abandonWrite h.id (some stAborted) d1
  else if (d1.rdCmd h.id).isSome then failRead h.id stAborted d1
  else flushRelease h.id (finishN h.id stAborted 0 (dropLanding h.id d1))

/-- ABORT (R604): also of a command held while its instance's path changes. -/
def abort (o : Origin) (e : Sqe) (cap : Bytes) (d : Dev) : Dev :=
  adminCommand 0x08 (fun h c _ d =>
    let t := Origin.fabric c (e.cdw10 % 65536) (e.cdw10 / 65536)
    let at' := fun (x : Origin) (cid : Nat) => withCid x cid == t
    match (allHeads d).find? fun x => x.origin == t && !x.admin && abortable d x with
    | some x => sendCompletion h stOk 0 0 (abortCmd x d)
    | none =>
      match d.nvm.frozen.find? fun f => originQid f.origin != 0 && at' f.origin f.sqe.cid with
      | some f =>
        let d1 : Dev := { d with nvm := { d.nvm with frozen := d.nvm.frozen.eraseP fun y => y == f } }
        let x := mkHead d1 false t f.sqe f.cap f.inst 0
        sendCompletion h stOk 0 0 (sendCompletion x stAborted 0 (slbaOf f.sqe) (newId d1).2)
      | none => sendCompletion h stOk 1 0 d) o e cap d

/-! ## Mediated commands, Fabrics commands, the rest -/

/-- Namespace Management and Namespace Attachment go to the mediation queue (R386, R422). -/
def mediated (opc : Nat) (o : Origin) (e : Sqe) (cap : Bytes) (d : Dev) : Dev :=
  adminCommand opc (fun h c x d =>
    postRequest 1 x.inst (d.instGen x.inst) (leBytes 2 c ++ zeros 40 ++ sqeBytes h.sqe) h.id none (addN (nCmdNew h) d)) o e cap d

/-- CONNECT on a queue pair (R387, R413, R414): QID in CDW10[31:16], KATO in CDW12, and the 1,024 bytes of data with CNTLID, SUBNQN and
HOSTNQN. A queue pair that is bound already, or a QID that goes with no queue, is refused (log entry 20). -/
def connect (n : Nat) (e : Sqe) (data : Bytes) (d : Dev) : Dev :=
  let q := d.qp n
  if q.st ≠ .rts ∨ isPeerQp n then d
  else
    let qid := e.cdw10 / 65536
    let refuse := connectCpl n 0 qid e.cid stField 0 d
    if e.fuse ≠ 0 ∨ e.cdw2 ≠ 0 ∨ e.cdw3 ≠ 0 ∨ q.use ≠ .none ∨ data.length ≠ 1024 then refuse
    else if e.cdw11 % 65536 + 1 > d.limit 3 then refuse
    else if qid ≠ 0 then ioConnect n e data d
    else
      let host := hostId (slice data 512 256)
      let sub := sha sha256P (nqnText (slice data 256 256))
      match instOfSubsys d sub with
      | some i =>
        let hosts := (d.inst i).hosts
        if hosts.isEmpty || hosts.contains host then acceptConnect i n e.cid host e.cdw12 d
        else postRequest 2 i (d.instGen i) (leBytes 2 q.port ++ host ++ sub) 0 (some ⟨n, q.gen, e.cid, host, e.cdw12⟩) d
      | none => postRequest 2 0xFFFF 0 (leBytes 2 q.port ++ host ++ sub) 0 (some ⟨n, q.gen, e.cid, host, e.cdw12⟩) d

/-- Controller property by its offset (R387, R400): CAP with MQES 1,023 and the NVM command set, VS, CC, CSTS. -/
def property (x : Ctrl) (off : Nat) : Option Nat :=
  match off with
  | 0x00 => some (1023 + 2 ^ 16 + 2 ^ 37)
  | 0x08 => some 0x20000
  | 0x14 => some x.cc
  | 0x1C => some x.csts
  | _ => none

/-- PROPERTY_GET (R387): the value in Dwords 0 and 1. -/
def propertyGet (o : Origin) (e : Sqe) (cap : Bytes) (d : Dev) : Dev :=
  adminCommand 0x7F (fun h _ x d =>
    match property x e.cdw11 with
    | none => sendCompletion h stField 0 0 d
    | some v => sendCompletion h stOk (if e.cdw10 % 8 = 1 then v else v % 2 ^ 32) 0 d) o e cap d

/-- CSTS after a write of CC, as the standard has it: RDY follows EN, a shutdown notification is answered complete. -/
def cstsOf (cc : Nat) : Nat := b2n (bitAt cc 0) + (if bitsAt cc 14 2 = 0 then 0 else 8)

/-- PROPERTY_SET (R387): only CC can be written. -/
def propertySet (o : Origin) (e : Sqe) (cap : Bytes) (d : Dev) : Dev :=
  adminCommand 0x7F (fun h c _ d =>
    if e.cdw11 ≠ 0x14 then sendCompletion h stField 0 0 d
    else sendCompletion h stOk 0 0 (d.modCtrl c fun y => { y with cc := e.cdw12 % 2 ^ 32, csts := cstsOf e.cdw12 })) o e cap d

/-- DISCONNECT (R387): of an I/O queue, that queue; of the admin queue, the association. -/
def disconnect (o : Origin) (e : Sqe) (cap : Bytes) (d : Dev) : Dev :=
  match o with
  | .fabric c q _ =>
    if q = 0 then adminCommand 0x7F (fun h c _ d => endAssociation c (sendCompletion h stOk 0 0 d)) o e cap d
    else match originOf d false o with
      | none => d
      | some (i, _) =>
        let h := mkHead d true (withCid o e.cid) { e with opc := 0x7F } cap i 0
        let d1 := (newId d).2
        if e.fuse ≠ 0 ∨ e.cdw2 ≠ 0 ∨ e.cdw3 ≠ 0 then sendCompletion h stField 0 0 d1
        else endQueue c q (sendCompletion h stOk 0 0 d1)
  | _ => d

/-- Opcodes a queue knows (R385 to R387). -/
def knownOpc (admin : Bool) (opc : Nat) : Bool :=
  if admin then [0x02, 0x06, 0x08, 0x09, 0x0A, 0x0C, 0x0D, 0x15, 0x18, 0xC4, 0xC8].contains opc
  else [0x00, 0x01, 0x02, 0x08, 0x09, 0x85].contains opc

/-- UNSUPPORTED_COMMAND (R387, R388): Fabrics opcode 7Fh names a command of that set, so that one no Fabrics row serves is unsupported too. -/
def unsupportedCommand (o : Origin) (e : Sqe) (cap : Bytes) (d : Dev) : Dev :=
  let admin := originQid o == 0
  match originOf d admin o with
  | none => d
  | some (i, sgen) =>
    if knownOpc admin e.opc then d
    else match o with
      | .peer _ => d
      | _ => sendCompletion (mkHead d admin (withCid o e.cid) e cap i sgen) stOpcode 0 0 (newId d).2

/-- NUSE_UPDATE (R400). -/
def nuseUpdate (nsg : Nat) (d : Dev) : Dev := d.modNs nsg fun n => { n with nuseShown := n.nuse }

end Sys2Proof.Machine
end

