-- ==== Sys2Proof/Machine/MigOps.lean ====
section
/-! DEFINITION. Migration of instances between the heads: the decision, the phases, the blob, the hand-over of lines (R427 to R436). -/

namespace Sys2Proof.Machine

/-- The other head. -/
def otherHead (d : Dev) : Nat := 1 - d.headNum

/-- Show the migration (R437). -/
def showMig (d : Dev) : Dev :=
  match d.nvm.mig with
  | none => (((d.setB R.INS_MIG_ACTIVE false).setF R.INS_MIG_PHASE 0).setB R.INS_MIG_OUTBOUND false).setF R.INS_MIG_INST 0
  | some m => (((d.setB R.INS_MIG_ACTIVE true).setF R.INS_MIG_PHASE m.phase).setB R.INS_MIG_OUTBOUND m.outbound).setF R.INS_MIG_INST m.inst

/-- Set the migration. -/
def putMig (m : Option Migration) (d : Dev) : Dev := showMig { d with nvm := { d.nvm with mig := m } }

/-- A migration may start (R427, R436): both heads paired, none running, no rebake of a region it needs but the drain that asks for it, no
apply that waits for migrations. -/
def migAllowed (d : Dev) (reason : Nat) : Bool :=
  d.peerUp && d.inService && d.nvm.mig.isNone &&
    (match d.img.rebake with
      | none => true
      | some r => (reason == 2 && r.key == regionKey 5 0) || !([regionKey 2 0x0D, regionKey 2 0x10, regionKey 2 0x14, regionKey 5 0].contains r.key)) &&
    (match d.img.apply with
      | none => true
      | some _ => reason == 2 || d.nvm.handoff.isEmpty)

/-- The reason for a migration holds (R427): 1 the instance's home is the peer, 2 it is to be migrated away, 3 balance. -/
def migReason (d : Dev) (i reason : Nat) : Bool :=
  match reason with
  | 1 => d.getF (R.INS_I_STATE_HOME i) == otherHead d
  | 2 => d.nvm.handoff.contains i
  | 3 => decide ((d.inst i).migFails < 3)
  | _ => false

/-- A read that is not past its lookup in every chunk (R429). -/
def beforeLookup (c : RCmd) : Bool :=
  !c.admitted || c.chunks.any fun x => x.stage == .lookup || x.stage == .pageIn

/-- A command that carries on elsewhere after a migration: its queue stands on one of the heads. -/
def queueOrigin (o : Origin) : Bool :=
  match o with
  | .fabric _ _ _ => true
  | .slice _ _ _ => true
  | .peer _ => true
  | _ => false

/-- Commands in no table of the data path that a freeze takes apart (R429): all but a Secure Deallocate past its phase 1, a snapshot command
already run, and commands for the admin queue or the peer. -/
def freezesN (c : NCmd) : Bool :=
  c.aux == 0 && queueOrigin c.h.origin && (!c.h.admin || (isSnapOpc c.h.sqe.opc && c.prog == 1)) && !(c.h.sqe.opc == 0x85 && decide (c.prog ≥ 3))

/-- Commands of an instance that a freeze holds or restarts, with the data that has landed, in the order of their acceptance (R429). -/
def freezeList (d : Dev) (i : Nat) : List (Nat × Frozen) :=
  let ws := (d.write.cmds.filter fun c => c.h.inst == i && !c.gated && queueOrigin c.h.origin).map fun c =>
    (c.h.id, (⟨i, c.h.origin, c.h.sqe, c.h.cap, if c.landedOk && !c.zero then some c.landed else none⟩ : Frozen))
  let rs := (d.read.cmds.filter fun c => c.h.inst == i && c.purpose == .client && queueOrigin c.h.origin && beforeLookup c).map fun c =>
    (c.h.id, (⟨i, c.h.origin, c.h.sqe, c.h.cap, none⟩ : Frozen))
  let ns := (d.nvm.cmds.filter fun c => c.h.inst == i && freezesN c).map fun c =>
    (c.h.id, (⟨i, c.h.origin, c.h.sqe, c.h.cap, if c.landed && needsData c.h.sqe.opc then some c.data else none⟩ : Frozen))
  let all := ws ++ rs ++ ns
  (List.range all.length).foldl (fun (s : List (Nat × Frozen) × List (Nat × Frozen)) _ =>
    match s.2 with
    | [] => s
    | x :: r =>
      let m := r.foldl (fun b y => if y.1 < b.1 then y else b) x
      (s.1 ++ [m], s.2.filter fun y => y.1 != m.1)) (([] : List (Nat × Frozen)), all) |>.1

/-- Take a command away without a completion: its credits, holds and buffers return. -/
def takeAway (id : Nat) (d : Dev) : Dev :=
  if (d.wCmd id).isSome then abandonWrite id (some 0) (d.modW id fun c => { c with h := { c.h with origin := .internal 0 } })
  else if (d.rdCmd id).isSome then dropRead id (dropReads id d)
  else dropLanding id (dropNCmd id d)

/-- Writes before their gate that the head itself issued for an instance: a stream offers its chunks again, a deallocation starts again. -/
def freezeOwn (i : Nat) (d : Dev) : Dev :=
  let ids := (d.write.cmds.filter fun c => c.h.inst == i && !c.gated && !queueOrigin c.h.origin).map (·.h.id)
  let again := fun (c : NCmd) => if c.h.inst == i && c.h.origin == .internal 0 then { c with range := 0, chunk := 0, wait := [] } else c
  forEach ids (fun id d => abandonWrite id (some stInternal) d) { d with nvm := { d.nvm with cmds := d.nvm.cmds.map again } }

/-- Freeze at the source (R428, R429). -/
def freezeSource (i reason : Nat) (d : Dev) : Dev :=
  let l := freezeList d i
  let d1 := forEach (l.map (·.1)) takeAway (freezeOwn i d)
  let d2 : Dev := { d1 with nvm := { d1.nvm with frozen := l.map (·.2) ++ d1.nvm.frozen } }
  let d3 := d2.modInst i fun x => { x with rateQueue := [], rateSince := none }
  putMig (some ⟨i, true, 2, reason, d.now⟩) (anaChange i (syncOutstanding i (d3.setF (R.INS_I_STATE_STATE i) 3)))

/-- MIGRATION_FREEZE (R427, R428): the source takes the instance's commands apart; the destination holds new ones. -/
def migrationFreeze (i reason : Nat) (d : Dev) : Dev :=
  if !migAllowed d reason then d
  else if d.getF (R.INS_I_STATE_STATE i) = 1 then
    if migReason d i reason then freezeSource i reason d else d
  else if d.getF (R.INS_I_STATE_STATE i) = 2 then
    putMig (some ⟨i, false, 1, reason, d.now⟩) (anaChange i (d.setF (R.INS_I_STATE_STATE i) 3))
  else d

/-- Bytes moved for an instance so far. -/
def movedBytes (d : Dev) (i : Nat) : Nat := d.rd (R.INS_I_RD_BYTES i) + d.rd (R.INS_I_WR_BYTES i)

/-- The instance nearest to half the difference without exceeding it (R427). -/
def balancePick (loads : List (Nat × Nat)) (half : Nat) : Option Nat :=
  (loads.foldl (fun (b : Option (Nat × Nat)) e =>
    if e.2 > half then b else match b with
      | none => some e
      | some x => if e.2 > x.2 then some e else b) none).map (·.1)

/-- BALANCE_TICK (R427): `peer` is what the peer moved in the last 10 s; the spec names no message that brings it. -/
def balanceTick (peer : Nat) (d : Dev) : Dev :=
  let is := servedInsts d
  let loads := is.map fun i => (i, (movedBytes d i + 2 ^ 64 - tabGet 0 d.nvm.loads i) % 2 ^ 64)
  let own := sumL (loads.map (·.2))
  let hot := decide (10 * (own - peer) > 3 * (own + peer))
  let d1 : Dev := { d with nvm := { d.nvm with
    loads := is.foldl (fun t i => tabPut t i (movedBytes d i)) d.nvm.loads
    hotPeriods := if hot then d.nvm.hotPeriods + 1 else 0 } }
  let quiet := match d.nvm.lastMig with
    | none => true
    | some t => decide (d.now - t ≥ 60000000000)
  if !hot || decide (d1.nvm.hotPeriods < 2) || !quiet then d1
  else match balancePick (loads.filter fun e => decide ((d.inst e.1).migFails < 3)) ((own - peer) / 2) with
    | none => d1
    | some i => migrationFreeze i 3 d1

/-- Post-gate work of an instance is over (R428): its writes are durable, nothing of its trees waits to be applied, split, or written for a
snapshot. -/
def drained (d : Dev) (i : Nat) : Bool :=
  let mine := fun (t : Nat) => match d.ns t with
    | some n => n.inst == i
    | none => false
  !(d.write.cmds.any fun c => c.h.inst == i) && !(d.nvm.splits.any fun s => mine s.nsg) &&
    !(d.map.deferred.any fun m => mine (keyTree m.key)) &&
    !(d.nvm.cmds.any fun c => c.h.inst == i && isSnapOpc c.h.sqe.opc && c.aux == 0 && c.prog == 5) &&
    !(d.map.evb.any fun e => mine (keyTree e.2.key) && (e.2.snap.isSome || e.2.repointing))

/-- Header of a blob (R432). -/
def blobHeader (d : Dev) (i seq len : Nat) : Bytes :=
  let h := leBytes 4 0x42534E49 ++ leBytes 1 1 ++ leBytes 1 d.headNum ++ leBytes 1 (otherHead d) ++ zeros 1 ++ leBytes 2 i ++
    leBytes 2 (d.instGen i) ++ leBytes 4 seq ++ leBytes 4 len ++ leBytes 1 d.headNum ++ zeros 3 ++ leBytes 4 seq ++ leBytes 2 i ++
    leBytes 2 (d.instGen i) ++ leBytes 8 d.now ++ zeros 20
  h ++ leBytes 4 (crcNat h)

/-- Key of a blob (R432, R469). -/
def blobKey (d : Dev) (i src dst seq : Nat) : Option Bytes :=
  let dom := d.getF (R.INS_I_DOMAIN_DOMAIN i)
  domainKey d 3 dom (d.domain dom).epoch (i + src * 2 ^ 16 + dst * 2 ^ 24) seq 256

/-- MIGRATION_DRAIN_END (R428): once everything is durable the source builds and seals the blob and sends it; a balance migration moves the
home too. -/
def migrationDrainEnd (d : Dev) : Dev :=
  match d.nvm.mig with
  | none => d
  | some m =>
    if !m.outbound ∨ m.phase ≠ 2 ∨ !drained d m.inst then d
    else
      let i := m.inst
      let seq := (d.nvm.migSeq + 1) % 2 ^ 32
      let rec' := instRecords (refill i d) i
      let recs := if m.reason = 3 then overlay rec' 6 (leBytes 1 (otherHead d)) else rec'
      let body := recs ++ leBytes 4 (crcNat recs) ++ zeros 12
      let h := blobHeader d i seq body.length
      match blobKey d i d.headNum (otherHead d) seq with
      | none => d
      | some k =>
        let r := gcmSeal k (slice h 20 12) h body
        let d1 : Dev := { refill i d with nvm := { (refill i d).nvm with migSeq := seq } }
        sendPeer 0x40 0 [i] (h ++ r.1 ++ r.2) (putMig (some { m with phase := 4 }) d1)

/-- End a migration on this head: counters, event, the longest pause (R428, R437). -/
def endMig (m : Migration) (ok : Bool) (d : Dev) : Dev :=
  let d1 := (d.postAt 0x0D01 (ownPage 0x0D) [m.inst, m.reason, b2n !ok])
  let d2 : Dev := { d1 with nvm := { d1.nvm with lastMig := some d.now } }
  putMig none (if ok then
    let pause := d.now - m.start
    let d3 := (d2.stat (R.INS_I_MIGRATIONS m.inst) 1).stat R.INS_MIGRATIONS 1
    (if pause > d3.getF R.INS_PAUSE_MAX_NS then d3.setF R.INS_PAUSE_MAX_NS pause else d3).modInst m.inst fun x => { x with migFails := 0 }
  else (d2.err R.E_INS_MIG_ABORTS).modInst m.inst fun x => { x with migFails := x.migFails + 1 })

/-- Abort the migration before its switch point (R428, R435): the instance thaws where it was served. -/
def abortMig (tell : Bool) (d : Dev) : Dev :=
  match d.nvm.mig with
  | none => d
  | some m =>
    if m.phase ≥ 6 then d
    else
      let d1 := if tell && d.peerUp then sendPeer 0x42 0 [m.inst] [] d else d
      thawInst m.inst (anaChange m.inst ((endMig m false d1).setF (R.INS_I_STATE_STATE m.inst) (if m.outbound then 1 else 2)))

/-- MIGRATION_PHASE_TIMEOUT (R428). -/
def migrationPhaseTimeout (d : Dev) : Dev := abortMig true d

/-- MIG_ABORT (R428): the peer has aborted it. -/
def migAbort (i : Nat) (d : Dev) : Dev :=
  match d.nvm.mig with
  | some m => if m.inst = i then abortMig false d else d
  | none => d

/-- What keeps a blob from being accepted (R434): its body where nothing does. -/
def openBlob (i : Nat) (b : Bytes) (d : Dev) : Option Bytes :=
  let h := slice b 0 64
  let len := fieldAt h 16 4
  let seq := fieldAt h 12 4
  if fieldAt h 60 4 ≠ crcNat (slice h 0 60) ∨ fieldAt h 0 4 ≠ 0x42534E49 ∨ fieldAt h 6 1 ≠ d.headNum ∨ fieldAt h 8 2 ≠ i ∨
      fieldAt h 10 2 ≠ d.instGen i ∨ seq ≠ d.nvm.migExpect ∨ b.length ≠ 64 + len + 16 then none
  else match blobKey d i (fieldAt h 5 1) d.headNum seq with
    | none => none
    | some k => match gcmOpen k (slice h 20 12) h (slice b 64 len) (slice b (64 + len) 16) with
      | none => none
      | some body => if fieldAt body (len - 16) 4 = crcNat (slice body 0 (len - 16)) then some (slice body 0 (len - 16)) else none

/-- Deletion walks of snapshots in DELETING go on at the new owner, from their start (R448). -/
def walksOf (n : Ns) : List DelWalk := (n.snaps.filter fun s => s.state == 3).map fun s => ⟨n.nsg, s.epoch, false, [], none, [], false⟩

/-- Install one namespace of a blob (R430, R433). -/
def installNs (i : Nat) (b : Bytes) (d : Dev) : Dev :=
  let r := readNs i b
  let old := d.ns r.1.nsg
  let n : Ns := match old with
    | some o => { r.1 with epoch := o.epoch, snaps := o.snaps }
    | none => r.1
  let d1 : Dev := { d with
    nvm := { d.nvm with namespaces := tabPut d.nvm.namespaces n.nsg n, walks := d.nvm.walks ++ walksOf n }
    map := { d.map with
      roots := tabPut (tabPut d.map.roots (n.nsg * 8 + logicalRoot n.chunks) r.2.1) (n.nsg * 8 + 6) r.2.2
      handIn := (d.map.handIn.filter fun e => e.1 != n.nsg) ++ [(n.nsg, d.now + 50000000)]
      asked := d.map.asked.filter fun k => keyTree k != n.nsg
      answered := d.map.answered.filter fun k => keyTree k != n.nsg } }
  if n.deleting then startNsDealloc n d1 else d1

/-- Install a blob (R428, R430, R433): the instance record, bucket levels, root pointers; this head serves the instance. -/
def installBlob (i : Nat) (body : Bytes) (d : Dev) : Dev :=
  let d1 := (takeInst i body d).modInst i fun x => { x with
    bucketCmds := fieldAt body 24 4 * 1000000, bucketBytes := fieldAt body 32 8 * 1000, rateTime := d.now }
  let d2 := (d1.setF (R.INS_I_STATE_SERVER i) d.headNum).setF (R.INS_I_STATE_STATE i) 3
  syncInst i (forEach (List.range (fieldAt body 12 2)) (fun k d => installNs i (slice body (256 + 128 * k) 128) d) d2)

/-- MIG_BLOB (R434): the destination installs the blob and confirms, or refuses it. -/
def migBlob (i : Nat) (b : Bytes) (d : Dev) : Dev :=
  let m := match d.nvm.mig with
    | some m => if m.inst = i ∧ !m.outbound then some m else none
    | none => if d.getF (R.INS_I_STATE_STATE i) = 2 then some ⟨i, false, 1, 0, d.now⟩ else none
  match m with
  | none => sendPeer 0x41 0 [i, 1] [] d
  | some m =>
    let d0 : Dev := { d with nvm := { d.nvm with migExpect := (fieldAt b 12 4 + 1) % 2 ^ 32 } }
    match openBlob i b d with
    | none => sendPeer 0x41 0 [i, 1] [] (abortMig false ((putMig (some m) d0).err R.E_INS_BLOB_FAIL))
    | some body => sendPeer 0x41 0 [i, 0] [] (putMig (some { m with phase := 6 }) (installBlob i body d0))

/-- The source's lines of trees that it has handed over are marked HANDOFF, those on their way to flash among them (R430). -/
def handOver (trees : List Nat) (d : Dev) : Dev :=
  let mine := fun (k : Nat) => trees.contains (keyTree k)
  let slots := (d.map.evb.filter fun e => mine e.2.key).map fun e => (⟨e.2.key, e.2.data, true, e.2.firstJsn, e.2.epoch⟩ : HandLine)
  let lines := (d.map.lines.filter fun e => mine e.2.key).map fun e => (⟨e.2.key, e.2.data, e.2.dirty, e.2.firstJsn, e.2.epoch⟩ : HandLine)
  let fresh := slots.filter fun s => !lines.any fun l => l.key == s.key && l.dirty
  let kept := lines.filter fun l => !fresh.any fun s => s.key == l.key
  syncMap { d with map := { d.map with
    handLines := d.map.handLines ++ kept ++ fresh
    lines := d.map.lines.filter fun e => !mine e.2.key
    evb := d.map.evb.filter fun e => !mine e.2.key
    fifo := d.map.fifo.filter fun e => !mine e.1
    pageIns := d.map.pageIns.filter fun p => !mine p.key
    roots := d.map.roots.filter fun e => !trees.contains (e.1 / 8)
    handIn := d.map.handIn.filter fun e => !trees.contains e.1 } }

/-- The switch point at the source (R430, R435): the peer serves; streams halt, lines become HANDOFF, jobs and walks of its namespaces are the
destination's. -/
def switchSource (m : Migration) (d : Dev) : Dev :=
  let i := m.inst
  let trees := (instNamespaces d i).map (·.nsg)
  let d1 := forEach trees (haltStreams 4) d
  let d2 : Dev := { d1 with nvm := { d1.nvm with
    handoff := d1.nvm.handoff.filter (· != i)
    cmds := d1.nvm.cmds.filter fun c => !(c.h.inst == i && c.h.origin == .internal 0)
    walks := d1.nvm.walks.filter fun w => !trees.contains w.nsg } }
  let d3 := (handOver trees d2).setF (R.INS_I_STATE_SERVER i) (otherHead d)
  putMig (some { m with phase := 6 }) (if m.reason = 3 then d3.setF (R.INS_I_STATE_HOME i) (otherHead d) else d3)

/-- MIG_ACK (R434, R435). -/
def migAck (i code : Nat) (d : Dev) : Dev :=
  match d.nvm.mig with
  | none => d
  | some m =>
    if m.inst ≠ i ∨ !m.outbound ∨ m.phase ≠ 4 then d
    else if code = 0 then switchSource m d else abortMig false d

/-- Send a HANDOFF line and drop it (R430); a dirty one keeps REDO until it is written back. -/
def sendLine (l : HandLine) (d : Dev) : Dev :=
  sendPeer 0x44 0 [l.key, b2n l.dirty + l.jsn * 2 ^ 32] (pageBytes l.data) { d with map := { d.map with
    handLines := d.map.handLines.filter fun x => x.key != l.key
    handed := if l.dirty then d.map.handed ++ [(l.key, l.jsn)] else d.map.handed } }

/-- MIGRATION_THAW_END (R428 to R430): the pause is over on this head; the source pushes its HANDOFF lines, held and restarted commands are
accepted again. -/
def migrationThawEnd (d : Dev) : Dev :=
  match d.nvm.mig with
  | none => d
  | some m =>
    if m.phase ≠ 6 then d
    else
      let home := d.getF (R.INS_I_STATE_HOME m.inst) == d.headNum
      let d1 := (endMig m true d).setF (R.INS_I_STATE_STATE m.inst) (if m.outbound then 2 else 1)
      let d2 := if m.outbound then forEach d1.map.handLines sendLine d1
        else if m.reason == 1 && home then
          ({ d1 with per := { d1.per with reclaim := d1.per.reclaim.filter (· != m.inst) } }).stat R.PER_RETURNS 1
        else d1
      thawInst m.inst (anaChange m.inst d2)

/-- LINE_REQ (R430): the line, or an empty LINE where this head holds none (log entry 22). -/
def lineReq (key : Nat) (d : Dev) : Dev :=
  match d.map.handLines.find? fun l => l.key == key with
  | some l => sendLine l d
  | none => sendPeer 0x44 0 [key, 0] [] d

/-- LINE (R430): installed with its dirty state; one the peer did not hold is followed by its pointer. -/
def lineMsg (key : Nat) (dirty : Bool) (jsn : Nat) (b : Bytes) (d : Dev) : Dev :=
  let d1 : Dev := { d with map := { d.map with asked := d.map.asked.filter (· != key) } }
  if b.length < 4096 then { d1 with map := { d1.map with answered := d1.map.answered ++ [key] } }
  else if (d1.line key).isSome ∨ (slotOfKey d1 key).isSome ∨ !ownsPage d1 key then d1
  else
    let e := match d1.ns (keyTree key) with
      | some n => n.epoch
      | none => 0
    match fillPage key (pageOf4k b) dirty e d1.nextJsn true d1 with
    | none => d
    | some d2 =>
      if dirty then notePeerJsn key jsn { d2 with map := { d2.map with wbDue := d2.map.wbDue ++ [key] } } else d2

/-- LINE_WB (R430): the source's REDO may pass the handed line. -/
def lineWb (key : Nat) (d : Dev) : Dev :=
  { d with map := { d.map with handed := d.map.handed.filter fun e => e.1 != key } }

/-- Report handed lines that have been written back (R430). -/
def pumpLineWb (d : Dev) : Dev :=
  forEach (d.map.wbDue.filter fun k => (slotOfKey d k).isNone && match d.line k with
    | some l => !l.dirty
    | none => true)
    (fun k d => sendPeer 0x45 0 [k] [] { d with map := { d.map with wbDue := d.map.wbDue.filter (· != k) } }) d

/-- Write a root pointer that came with its instance into this head's namespace-root tree, once that page is there. -/
def pumpArrived (d : Dev) : Dev :=
  forEach (d.map.roots.filter fun e => isLogical (e.1 / 8) && ownsPage d (e.1 * 2 ^ 33) && (arrivedRoot d (e.1 * 2 ^ 33)).isSome)
    (fun e d =>
      let t := e.1 / 8
      let pk := mkKey (nsTree d t) 0 (t / 128)
      match ensurePage mapFuel .apply pk d with
      | (.ready, d1) =>
        let was := match d1.line pk with
          | some l => ptrAt l.data (t % 128)
          | none => ptrNull
        if was = e.2 then dropArrived (e.1 * 2 ^ 33) d1
        else match changeLine pk d1.nextJsn (fun p => setPtr p (t % 128) e.2) d1 with
          | some d2 => dropArrived (e.1 * 2 ^ 33) d2
          | none => d1
      | (_, d1) => d1) d

end Sys2Proof.Machine
end

