-- ==== Sys2Proof/Machine/HepOps.lean ====
section
/-! DEFINITION. The host endpoint: slice queues, MSI-X, AER, Bus Master Enable and the endpoint's resets (17_host_endpoint). -/

namespace Sys2Proof.Machine

/-! ## Slice queues (R416, R417, R533) -/

/-- A queue of a slice. -/
def sliceQ (d : Dev) (s q : Nat) : SliceQ := tabGet sliceQFresh (d.slice s).queues q

/-- Change a queue of a slice. -/
def modSliceQ (s q : Nat) (f : SliceQ → SliceQ) (d : Dev) : Dev :=
  d.modSlice s fun z => { z with queues := tabMod sliceQFresh z.queues q f }

/-- Fetch the next submission entry of a queue that has one, with the slice's PASID (R417); one at a time. -/
def fetchSq (s q : Nat) (d : Dev) : Dev :=
  let x := d.slice s
  let y := sliceQ d s q
  if !x.bound || decide (q ≥ x.nq) || y.fetching || y.sqHead == y.sqTail || !d.dmaOn then d
  else (modSliceQ s q (fun y => { y with fetching := true }) d).hostRead (.sqFetch s q) (y.sqBase + 64 * y.sqHead) 64 (some x.pasid)

/-- SQ_TAIL_DOORBELL (R416, R520): ignored for an unbound slice, and beyond its queues. A tail outside the queue names no entry and is
taken modulo DEPTH. -/
def sqTailDoorbell (s q v : Nat) (d : Dev) : Dev :=
  let x := d.slice s
  if !x.bound ∨ q ≥ x.nq then d
  else fetchSq s q (modSliceQ s q (fun y => { y with sqTail := v % x.depth }) d)

/-- Write the completions that waited for a free entry, while there is one. -/
def flushCq (s q : Nat) (d : Dev) : Dev :=
  let w := (sliceQ d s q).cqWait
  if w.isEmpty || !d.dmaOn then d
  else forEach w (fun e d => writeCqe s q e.1 e.2.1 e.2.2 d) (modSliceQ s q (fun y => { y with cqWait := [] }) d)

/-- CQ_HEAD_DOORBELL (R416): entries are free again. -/
def cqHeadDoorbell (s q v : Nat) (d : Dev) : Dev :=
  let x := d.slice s
  if !x.bound ∨ q ≥ x.nq then d
  else flushCq s q (modSliceQ s q (fun y => { y with cqHead := v % x.depth }) d)

/-- A slice's command with its descriptor list, where it has one, is accepted; then the next entry is fetched. -/
def sliceAccept (s q : Nat) (e : Sqe) (cap : Bytes) (d : Dev) : Dev :=
  let d1 := if knownOpc false e.opc then acceptIo (.slice s q e.cid) e cap d else unsupportedCommand (.slice s q e.cid) e cap d
  fetchSq s q (modSliceQ s q (fun y => { y with fetching := false }) d1)

/-- A submission entry has arrived, or its fetch has failed (R417, R533). A Last Segment of 2 to 16 descriptors is read before the command is
accepted. -/
def sqData (s q : Nat) (b : Option Bytes) (d : Dev) : Dev :=
  match b with
  | none => (modSliceQ s q (fun y => { y with fetching := false }) d).err R.E_HEP_ACCESS_ERR
  | some b =>
    let e := sqeOf b
    let x := d.slice s
    let d1 := modSliceQ s q (fun y => { y with sqHead := if y.sqHead + 1 ≥ x.depth then 0 else y.sqHead + 1 }) d
    let p := leBytes 16 e.dptr
    let len := fieldAt p 8 4
    if fieldAt p 15 1 = 0x30 ∧ e.psdt = 1 ∧ (e.opc = 2 ∨ landsData e.opc = true) ∧ len % 16 = 0 ∧ 2 ≤ len / 16 ∧ len / 16 ≤ 16 then
      d1.hostRead (.sliceSgl s q e) (fieldAt p 0 8) len (some x.pasid)
    else sliceAccept s q e [] d1

/-- The head of a slice's command that ends before its accept. -/
def sliceHead (d : Dev) (s q : Nat) (e : Sqe) : CHead := mkHead d false (.slice s q e.cid) e [] (d.slice s).inst (d.slice s).gen

/-- A descriptor list has arrived, or its read has failed: Data Transfer Error (R403, R533). -/
def sglData (s q : Nat) (e : Sqe) (b : Option Bytes) (d : Dev) : Dev :=
  match b with
  | some c => sliceAccept s q e c d
  | none =>
    let d1 := sendCompletion (sliceHead d s q e) stTransfer 0 (slbaOf e) (newId d).2
    fetchSq s q (modSliceQ s q (fun y => { y with fetching := false }) d1)

/-! ## MSI-X (R530, R531) -/

/-- PASID of a message that a vector's pending bit stands for: that of a bound slice naming the vector, the lowest where several do
(log entry 24). -/
def vectorPasid (d : Dev) (v : Nat) : Option Nat := (d.nvm.slices.find? fun e => e.2.bound && e.2.vector == v).map (·.2.pasid)

/-- Send the message of a pending bit once the vector is enabled and unmasked (R530). -/
def sendPending (v : Nat) (d : Dev) : Dev :=
  if !tabGet false d.hep.pba v || !d.getB R.HEP_FUNC_MSIX_EN || d.hep.funcMask || (d.vector v).masked || !d.dmaOn then d
  else ({ d with hep := { d.hep with pba := tabSet false d.hep.pba v false } } : Dev).msix v (vectorPasid d v)

/-- Send every pending message that may go. -/
def sendAllPending (d : Dev) : Dev := forEach (d.hep.pba.map (·.1)) sendPending d

/-- Change an entry of the MSI-X table. -/
def modVector (v : Nat) (f : MsixEnt → MsixEnt) (d : Dev) : Dev :=
  { d with hep := { d.hep with vectors := tabMod ⟨0, 0, true⟩ d.hep.vectors v f } }

/-- MSIX_UNMASK (R530): the host unmasks a vector. -/
def msixUnmask (v : Nat) (d : Dev) : Dev :=
  if v ≥ 2048 then d else sendPending v (modVector v (fun e => { e with masked := false }) d)

/-- MSIX_HOLDOFF_EXPIRY (R531): one more message where entries remain, which starts the hold-off again. -/
def msixHoldoffExpiry (s : Nat) (d : Dev) : Dev :=
  let m := tabGet ⟨false, 0⟩ d.hep.slices s
  if !m.holdoff then d
  else
    let d1 : Dev := { d with hep := { d.hep with slices := tabPut d.hep.slices s ⟨false, 0⟩ } }
    if m.entries = 0 then d1 else sliceMessage s d1

/-! ## AER (R532) -/

/-- Default class of an AER error. -/
def aerDefault (e : AerErr) : AerClass :=
  match e with
  | .receiverError | .replay | .correctedInternal | .advisoryNonFatal | .headerLogOverflow => .correctable
  | .poisonedTlp | .completionTimeout | .unexpectedCompletion | .unsupportedRequest | .tlpPrefixBlocked => .nonFatal
  | .linkProtocol | .malformedTlp | .uncorrectableInternal => .fatal

/-- Class that an error is reported in: an uncorrectable one in the class the host has set. -/
def aerClass (d : Dev) (e : AerErr) : AerClass :=
  match aerDefault e with
  | .correctable => .correctable
  | c => if d.hep.fatalMade.contains e then .fatal else if d.hep.nonFatalMade.contains e then .nonFatal else c

/-- Number of an error in the table's order. -/
def aerNumber (e : AerErr) : Nat :=
  match e with
  | .receiverError => 0 | .replay => 1 | .correctedInternal => 2 | .advisoryNonFatal => 3 | .headerLogOverflow => 4
  | .poisonedTlp => 5 | .completionTimeout => 6 | .unexpectedCompletion => 7 | .unsupportedRequest => 8 | .tlpPrefixBlocked => 9
  | .linkProtocol => 10 | .malformedTlp => 11 | .uncorrectableInternal => 12

/-- Errors whose header is logged. -/
def aerLogs (e : AerErr) : Bool :=
  [AerErr.advisoryNonFatal, .poisonedTlp, .unexpectedCompletion, .unsupportedRequest, .tlpPrefixBlocked, .malformedTlp].contains e

/-- Report an error in its class, unless it is masked (R532). -/
def aerSignal (e : AerErr) (d : Dev) : Dev :=
  let d1 : Dev := { d with hep := { d.hep with aerStatus := if d.hep.aerStatus.contains e then d.hep.aerStatus else d.hep.aerStatus ++ [e] } }
  if d1.hep.aerMask.contains e then d1
  else match aerClass d1 e with
    | .correctable => (d1.emit (.pcieError 0 (aerNumber e))).err R.E_HEP_COR_ERR
    | .nonFatal => (d1.emit (.pcieError 1 (aerNumber e))).err R.E_HEP_NONFATAL_ERR
    | .fatal => (d1.emit (.pcieError 2 (aerNumber e))).err R.E_HEP_FATAL_ERR

/-- Report an error, logging its header; one that finds the log full is Header Log Overflow too (R532). -/
def aerReport (e : AerErr) (hdr : Bytes) (d : Dev) : Dev :=
  let d1 := aerSignal e d
  if !aerLogs e || d1.hep.aerMask.contains e then d1
  else match d1.hep.hdrLog with
    | none => { d1 with hep := { d1.hep with hdrLog := some (e, hdr) } }
    | some _ => aerSignal .headerLogOverflow d1

/-! ## Host DMA stops and goes on (R535, R536) -/

/-- A slice command is completed with Host Pathing Error (R535). -/
def countHostAbort (d : Dev) : Dev :=
  hepInterrupt R.HEP_INT_EN_HOST_ABORT ((d.setB R.HEP_INT_STATUS_HOST_ABORT true).err R.E_HEP_HOST_ABORTS)

/-- Whether a command came from a slice. -/
def fromSlice (h : CHead) : Bool := match h.origin with
  | .slice _ _ _ => true
  | _ => false

/-- The work of one DMA read ends or waits as host DMA stops (R535, R533): an image push fails, a ring entry and a submission entry are fetched
again later; a slice command whose descriptor list was being read ends. -/
def stopWork (w : DmaWork) (d : Dev) : Dev :=
  match w with
  | .imagePush => (refuseImg 0x16 d).err R.E_IMG_REJECTS
  | .downRing => modRings (fun r => { r with fetching := false }) d
  | .sqFetch s q => modSliceQ s q (fun y => { y with fetching := false }) d
  | .sliceSgl s q e =>
    countHostAbort (sendCompletion (sliceHead d s q e) stPathing 0 (slbaOf e)
      (modSliceQ s q (fun y => { y with fetching := false }) (newId d).2))
  | _ => d

/-- A command of a slice in the command table still needs host DMA: its ranges or data have not landed, or it is a read sent to the peer. -/
def needsDma (d : Dev) (c : NCmd) : Bool :=
  fromSlice c.h && (c.h.sqe.opc == 2 || (landsData c.h.sqe.opc && !c.landed && ((d.landing c.h.id).isSome || c.prog < 2)))

/-- Every slice command that still needs DMA completes with Host Pathing Error (R535). -/
def abortSlices (d : Dev) : Dev :=
  let ws := (d.write.cmds.filter fun c => fromSlice c.h && !c.gated && !c.zero).map (·.h.id)
  let d1 := forEach ws (fun id d => countHostAbort (abandonWrite id (some stPathing) d)) d
  let rs := (d1.read.cmds.filter fun c => c.purpose == .client && fromSlice c.h && c.chunks.any fun x => !x.sent).map (·.h.id)
  let d2 := forEach rs (fun id d => countHostAbort (failRead id stPathing d)) d1
  let ns := d2.nvm.cmds.filter (needsDma d2)
  let d3 := forEach ns (fun c d => countHostAbort (flushRelease c.h.id (finishN c.h.id stPathing 0 (dropLanding c.h.id d)))) d2
  let frozen := fun (f : Frozen) => match f.origin with
    | .slice _ _ _ => f.sqe.opc == 2 || (landsData f.sqe.opc && f.data.isNone)
    | _ => false
  forEach (d3.nvm.frozen.filter frozen) (fun f d => countHostAbort
      (sendCompletion ⟨d.nvm.nextCmd, f.origin, f.sqe, f.cap, false, 0, f.inst, d.instGen f.inst,
        match f.origin with
        | .slice s _ _ => (d.slice s).gen
        | _ => 0, d.now⟩ stPathing 0 (slbaOf f.sqe) (newId d).2))
    { d3 with nvm := { d3.nvm with frozen := d3.nvm.frozen.filter fun f => !frozen f } }

/-- Host DMA has stopped (R535): outstanding reads are discarded as they arrive, and the work that waited for them ends or waits. -/
def stopDma (d : Dev) : Dev :=
  let live := (d.hep.reads.filter fun r => !r.discard).map (·.work) ++ d.hep.waiting.map (·.1)
  let d1 : Dev := { d with hep := { d.hep with
    reads := d.hep.reads.map fun r => { r with discard := true }, waiting := [] } }
  stopCiphers false (abortSlices (forEach live stopWork d1))

/-- BUS_MASTER_DISABLE: Bus Master Enable cleared, or with `d3` the function put in D3hot (R517, R535). -/
def busMasterDisable (d3 : Bool) (d : Dev) : Dev :=
  let on := d.dmaOn
  let d1 := if d3 then d.setB R.HEP_FUNC_D3HOT true else d.setB R.HEP_FUNC_BME false
  if on then stopDma d1 else d1

/-- Signal a slice's vector once, whatever its hold-off (R536); the hold-off starts again. -/
def signalSlice (s : Nat) (d : Dev) : Dev :=
  sliceMessage s { d with hep := { d.hep with slices := tabPut d.hep.slices s ⟨false, 0⟩ } }

/-- Write one held entry, or discard it where the slice's generation has changed (R425, R536). -/
def releaseHeld (e : HeldCqe) (d : Dev) : Dev :=
  if (d.slice e.slice).gen ≠ e.gen then
    ((d.stat (R.INS_I_DISCARDS (d.slice e.slice).inst) 1).stat R.INS_DISCARDS 1).stat R.HEP_DISCARDED_CPL 1
  else
    let st := fieldAt e.cqe 6 2
    let dw0 := fieldAt e.cqe 0 4
    let cid := fieldAt e.cqe 4 2
    if cqFull d e.slice e.queue then modSliceQ e.slice e.queue (fun y => { y with cqWait := y.cqWait ++ [(st, dw0, cid)] }) d
    else putCqe e.slice e.queue st dw0 cid d

/-- Host DMA goes on (R536): held entries in their order, one message for each slice, then the rings and fetches from their pointers. -/
def resumeDma (d : Dev) : Dev :=
  if !d.dmaOn then d
  else
    let l := d.hep.held
    let d1 : Dev := { d with hep := { d.hep with held := [] } }
    let d2 := (forEach l releaseHeld ((d1.setF R.HEP_HELD_CPL_ENTRIES 0).setB R.HEP_FUNC_HOLDING false))
    let ss := (l.filter fun e => (d.slice e.slice).gen == e.gen).foldl (fun (r : List Nat) e => if r.contains e.slice then r else r ++ [e.slice]) []
    let d3 := sendAllPending (forEach ss signalSlice d2)
    let qs := d3.nvm.slices.foldl (fun (r : List (Nat × Nat)) e => r ++ e.2.queues.map fun q => (e.1, q.1)) []
    fetchDown (pumpUp (forEach qs (fun p d => fetchSq p.1 p.2 (flushCq p.1 p.2 d)) d3))

/-- BUS_MASTER_ENABLE (R536). -/
def busMasterEnable (d : Dev) : Dev := if d.getB R.HEP_FUNC_BME then d else resumeDma (d.setB R.HEP_FUNC_BME true)

/-- D3HOT_EXIT (R517, R535). -/
def d3hotExit (d : Dev) : Dev := if d.getB R.HEP_FUNC_D3HOT then resumeDma (d.setB R.HEP_FUNC_D3HOT false) else d

/-! ## Resets of the endpoint (R518, R534, R537, R538) -/

/-- PCIe configuration space, the MSI-X table and PBA, and the HEP_ registers of step 5 of R537 at their reset values. AER status, mask and
severity bits and the header log are sticky in the PCIe standard and keep (R532; log entry 25). -/
def resetConfig (d : Dev) : Dev :=
  let d1 : Dev := { d with hep := { d.hep with
    memEn := false, romEn := false, funcMask := false, bar := [], romBar := 0, vectors := [], pba := [], slices := [] } }
  let d2 := (((d1.setB R.HEP_FUNC_BME false).setB R.HEP_FUNC_MSIX_EN false).setB R.HEP_FUNC_ATS_EN false).setB R.HEP_FUNC_D3HOT false
  ((d2.wr R.HEP_INT_STATUS 0).wr R.HEP_INT_EN 0).wr R.HEP_INT_VEC 0 |>.wr R.HEP_MSIX_HOLDOFF 0

/-- The effects of a Function Level Reset in the order of R537. -/
def endpointReset (d : Dev) : Dev :=
  let on := d.dmaOn
  let d0 := d.setB R.HEP_FUNC_RESETTING true
  let d1 := if on then stopDma d0 else d0
  let d2 := forEach ((d1.nvm.slices.filter fun e => e.2.bound).map (·.1)) freeSlice d1
  let held := d2.hep.held
  let d3 : Dev := { d2 with hep := { d2.hep with held := [] } }
  let d4 := forEach held releaseHeld ((d3.setF R.HEP_HELD_CPL_ENTRIES 0).setB R.HEP_FUNC_HOLDING false)
  let d5 := modRings (fun r => { r with fetching := false }) (d4.setB R.INS_MQ_CTL_EN false)
  let d6 := stopCiphers true d5
  let d7 : Dev := { d6 with sec := { d6.sec with digests := [] } }
  (regionDrainEnd (resetConfig d7)).stat R.HEP_FLRS 1

/-- FUNCTION_LEVEL_RESET (R537). -/
def functionLevelReset (d : Dev) : Dev := endpointReset d

/-- Start-up has not yet passed its step 3, before whose end the PCIe link does not train (R594). -/
def beforeLink (d : Dev) : Bool := d.getF R.HTH_STATE_STATE == stReset || (d.getF R.HTH_STATE_STATE == stStarting && decide (d.getF R.HTH_STATE_STEP ≤ 3))

/-- ENDPOINT_READY (R537, R534): 10 ms after a reset of the endpoint; a link held in training goes on. -/
def endpointReady (d : Dev) : Dev :=
  if !d.getB R.HEP_FUNC_RESETTING then d
  else
    let d1 := d.setB R.HEP_FUNC_RESETTING false
    if d1.hep.linkFailed || beforeLink d1 then d1 else { d1 with hep := { d1.hep with linkHeld := false } }

/-- The PCIe link is not up. -/
def pcieDown (d : Dev) : Dev := d.wr R.HEP_LINK 0

/-- PERST (R538): kind 0 the assertion of PCIE_PERST_L, 1 a hot reset, 2 a link-down. The link trains again; after PCIE_PERST_L from its
release on (R594). -/
def perst (kind : Nat) (d : Dev) : Dev :=
  let d1 := endpointReset (pcieDown d)
  if kind = 0 then
    { d1 with hth := { d1.hth with perstL := false }, hep := { d1.hep with
      training := false, linkHeld := beforeLink d1, linkFailed := false, ieTimes := [] } }
  else { d1 with hep := { d1.hep with training := !d1.hep.linkFailed && d1.hth.perstL } }

/-- PERST_RELEASE (R594): the link trains, from the end of start-up step 3 at the earliest. -/
def perstRelease (d : Dev) : Dev :=
  if d.hth.perstL then d
  else { d with hth := { d.hth with perstL := true }, hep := { d.hep with training := true } }

/-- PCIE_LINK_UP (R517, R538): training ends at a speed (1 to 6), a width and FLIT mode, which 64 GT/s always has. -/
def pcieLinkUp (speed width : Nat) (flit : Bool) (d : Dev) : Dev :=
  if !d.hep.training || d.hep.linkHeld || speed < 1 || speed > 6 || !([1, 2, 4, 8].contains width) then d
  else
    let d1 := (((d.setF R.HEP_LINK_SPEED speed).setF R.HEP_LINK_WIDTH width).setB R.HEP_LINK_FLIT (flit || speed == 6)).setB R.HEP_LINK_UP true
    { d1 with hep := { d1.hep with training := false } }

/-- UNCORRECTABLE_INTERNAL_ERROR (R534): reported, then the endpoint is reset with the link held in training; the third within 1 s leaves the
link down until PCIE_PERST_L. -/
def uncorrectableInternalError (d : Dev) : Dev :=
  let times := (d.hep.ieTimes.filter fun t => d.now - t < 1000000000) ++ [d.now]
  let d1 := endpointReset (pcieDown (aerReport .uncorrectableInternal [] d))
  if times.length ≥ 3 then
    ({ d1 with hep := { d1.hep with ieTimes := times, linkFailed := true, training := false, linkHeld := true } } : Dev).post 0x0502 []
  else { d1 with hep := { d1.hep with ieTimes := times, training := d1.hth.perstL, linkHeld := true } }

end Sys2Proof.Machine
end

