-- ==== Sys2Proof/Machine/RecoverOps.lean ====
section
/-! DEFINITION. Recovery: groups of a journal, their replay, anchors, the power-loss area (R147, R206, R249, R273, R310, R506, R512). -/

namespace Sys2Proof.Machine

/-- A journal record read back with the fields of its group (R145). -/
structure RecAt where
  jsn : Nat
  group : Nat
  count : Nat
  last : Bool
  inst : Nat
  time : Nat
  rec' : JRec
  bytes : Bytes
  deriving DecidableEq, Repr

/-- What stands at a JSN of a writer's sequence (R147): nothing, a damaged record, a record. -/
inductive JPlace where
  | missing | damaged | sound (r : RecAt)
  deriving DecidableEq, Repr

/-- A record from its 64 bytes. -/
def recAt (b : Bytes) : Option RecAt :=
  (parseRec b).map fun r => ⟨r.1, fieldAt b 8 4, fieldAt b 3 1, bitAt (fieldAt b 2 1) 2, fieldAt b 56 2 % 1024, r.2.2, r.2.1, b⟩

/-- The groups of a writer that take effect (R147), among `n` JSNs from `j` on, the first `skip` of which belong to a group taken already. A damaged
record ends the sequence; an incomplete group is passed over. -/
def wholeGroups (get : Nat → JPlace) : Nat → Nat → Nat → List (List RecAt)
  | 0, _, _ => []
  | n + 1, j, skip + 1 => wholeGroups get n ((j + 1) % 2 ^ 32) skip
  | n + 1, j, 0 =>
    match get j with
    | .damaged => []
    | .missing => wholeGroups get n ((j + 1) % 2 ^ 32) 0
    | .sound r =>
      let ps := (List.range r.count).map fun i => get ((j + i) % 2 ^ 32)
      let rs := ps.filterMap fun p => match p with
        | .sound x => some x
        | _ => none
      if ps.contains JPlace.damaged then []
      else if r.group = j ∧ 0 < r.count ∧ r.count ≤ n + 1 ∧ rs.length = r.count ∧
          rs.all (fun x => x.group == j && x.count == r.count) = true ∧ ((rs.getLast?.map (·.last)).getD false) = true then
        rs :: wholeGroups get n ((j + 1) % 2 ^ 32) (r.count - 1)
      else wholeGroups get n ((j + 1) % 2 ^ 32) 0

/-- What a table of records by JSN holds at a JSN. -/
def placeIn (t : Tab Bytes) (j : Nat) : JPlace :=
  match tabFind t j with
  | none => .missing
  | some b => match recAt b with
    | some r => if r.jsn = j then .sound r else .damaged
    | none => .damaged

/-- What the mirror of the peer's journal holds at a JSN (R498): a record of another JSN is a stale one. -/
def placeInMirror (d : Dev) (j : Nat) : JPlace :=
  match tabFind d.per.journal (j % 1048576) with
  | none => .missing
  | some b => match recAt b with
    | some r => if r.jsn = j then .sound r else .missing
    | none => .damaged

/-- Add a record read from a container at its position: a sound copy comes before a damaged one. -/
def addRec (j : Nat) (b : Bytes) (t : Tab Bytes) : Tab Bytes :=
  match tabFind t j with
  | none => tabPut t j b
  | some o => if (recAt o).isNone then tabPut t j b else t

/-- Records of a container that begins at a JSN, up to the first slot that is all zero (R145). -/
def addRun (first : Nat) (b : Bytes) (n : Nat) (t : Tab Bytes) : Tab Bytes :=
  let used := (List.range n).takeWhile fun k => slice b (64 * k) 64 != zeros 64
  used.foldl (fun t k => addRec ((first + k) % 2 ^ 32) (slice b (64 * k) 64) t) t

/-- Records of a section of a power-loss area: sound ones at their JSN, a damaged one at the place after the sound one before it (R147). -/
def addSection (b : Bytes) (n : Nat) (t : Tab Bytes) : Tab Bytes :=
  let slot := fun (k : Nat) => slice b (64 * k) 64
  let first := ((List.range n).findSome? fun k => (recAt (slot k)).map fun r => (r.jsn + 2 ^ 32 - k) % 2 ^ 32).getD 0
  ((List.range n).foldl (fun (s : Nat × Tab Bytes) k => match recAt (slot k) with
    | some r => ((r.jsn + 1) % 2 ^ 32, addRec r.jsn (slot k) s.2)
    | none => ((s.1 + 1) % 2 ^ 32, addRec s.1 (slot k) s.2)) (first, t)).2

/-! ## What the start reads -/

/-- CRC-32C over a page's first 4,092 bytes stands in its last four. -/
def pageOk (b : Bytes) : Bool := b.length ≥ 4096 && fieldAt b 4092 4 == crcNat (slice b 0 4092)

/-- A map anchor of a head that verifies (R247). -/
def mapAnchorOk (h : Nat) (b : Bytes) : Bool := pageOk b && fieldAt b 0 4 == 0x4150414D && fieldAt b 4 1 == 1 && fieldAt b 5 1 == h
/-- A media anchor of a head that verifies (R272). -/
def mediaAnchorOk (h : Nat) (b : Bytes) : Bool := pageOk b && fieldAt b 0 4 == 0x4144454D && fieldAt b 4 1 == 1 && fieldAt b 5 1 == h
/-- A copy of a head's power-loss area that is valid (R310): header, trailer, and the trailer's FLUSH_SEQ and header CRC. -/
def areaOk (h : Nat) (b : Bytes) : Bool :=
  let t := slice b (4096 * fieldAt b 64 4) 4096
  pageOk b && fieldAt b 0 4 == 0x52414C50 && fieldAt b 5 1 == h && pageOk t && fieldAt t 0 4 == 0x54414C50 &&
    fieldAt t 8 4 == fieldAt b 8 4 && fieldAt t 16 4 == fieldAt b 4092 4

/-- The newest of some pages by a sequence at an offset, compared modulo 2^32. -/
def newestBy (off : Nat) (l : List Bytes) : Option Bytes :=
  l.foldl (fun o b => match o with
    | none => some b
    | some a => if newerW 32 (fieldAt b off 4) (fieldAt a off 4) then some b else some a) none

/-- Map anchors found. -/
def foundMaps (h : Nat) (l : List Found) : List Bytes := l.filterMap fun f => match f with
  | .mapAnchor b => if mapAnchorOk h b then some b else none
  | _ => none
/-- Media anchors found. -/
def foundMedia (h : Nat) (l : List Found) : List Bytes := l.filterMap fun f => match f with
  | .mediaAnchor b => if mediaAnchorOk h b then some b else none
  | _ => none
/-- Valid area copies found, with their modules. -/
def foundAreas (h : Nat) (l : List Found) : List (Nat × Bytes) := l.filterMap fun f => match f with
  | .area m b => if areaOk h b then some (m, b) else none
  | _ => none

/-- The copies of the valid area with the highest FLUSH_SEQ (R310). -/
def newestArea (h : Nat) (l : List Found) : List (Nat × Bytes) :=
  match newestBy 8 ((foundAreas h l).map (·.2)) with
  | none => []
  | some a => (foundAreas h l).filter fun e => fieldAt e.2 8 4 == fieldAt a 8 4

/-- A section of the first copy whose item passes a check, else of the others. -/
def fromCopies {α : Type} (copies : List Bytes) (get : Bytes → Option α) : Option α := copies.findSome? get

/-- The records of a head among everything found: journal pages, batches, its own area, and the peer section of the other head's area. -/
def foundRecs (h : Nat) (l : List Found) : Tab Bytes :=
  let t1 := l.foldl (fun t f => match f with
    | .journal w first b => if w = h then addRun first b 64 t else t
    | .batch _ _ b => if pageOk b && fieldAt b 0 4 == 0x424C4F53 && fieldAt b 5 1 == h then
        addRun (fieldAt b 12 4) (slice b 4096 12288) (fieldAt b 20 2) t else t
    | _ => t) ([] : Tab Bytes)
  let t2 := (newestArea h l).foldl (fun t e => addSection (slice e.2 (4096 * fieldAt e.2 48 4) (64 * fieldAt e.2 32 4)) (fieldAt e.2 32 4) t) t1
  (newestArea (1 - h) l).foldl (fun t e =>
    addSection (slice e.2 (4096 * fieldAt e.2 48 4 + 64 * fieldAt e.2 32 4) (64 * fieldAt e.2 36 4)) (fieldAt e.2 36 4) t) t2

/-- The highest JSN of a table at or after another. -/
def highestJsn (from' : Nat) (t : Tab Bytes) : Nat := t.foldl (fun j e => if jsnLt j e.1 then e.1 else j) from'

/-! ## Replay -/

/-- A block-table entry after a BLOCK record (R274). -/
def applyBlockRec (jsn time : Nat) (r : JRec) (d : Dev) : Dev :=
  if r.type ≠ 0x23 then d
  else (markLeaf (blkKey (r.subject / 2 ^ 40 % 32) (r.subject % 2 ^ 24)) d).modBlock (blkKey (r.subject / 2 ^ 40 % 32) (r.subject % 2 ^ 24)) fun o =>
    let st := r.a % 256
    let b := if st = 0 ∨ (st = 1 ∧ o.openJsn ≠ jsn) then { blockFresh with disturb := o.disturb } else o
    { b with
      state := st, stream := r.a / 256 % 256, dieMask := r.a / 65536 % 65536, erases := r.a / 2 ^ 32, sumA := r.b, sumB := r.c,
      sealTime := time, openJsn := if st = 1 then jsn else b.openJsn }

/-- Make a group of a writer visible again: the block table, then the pages this head owns. -/
def replayGroup (peer : Bool) (g : List RecAt) (d : Dev) : Dev :=
  match g with
  | [] => d
  | r :: _ => makeVisible peer r.jsn r.time (g.map (·.rec')) (forEach g (fun x d => applyBlockRec x.jsn x.time x.rec' d) d)

/-- Time of a group. -/
def groupTime (g : List RecAt) : Nat := (g.head?.map (·.time)).getD 0

/-- Merge the groups of two writers for replay (R249): at each turn the one with the lower TIME, on equal TIME head 0's. The flag tells the
peer's. -/
def mergeGroups (ownFirst : Bool) : Nat → List (List RecAt) → List (List RecAt) → List (Bool × List RecAt)
  | 0, _, _ => []
  | _ + 1, [], ps => ps.map fun g => (true, g)
  | _ + 1, os, [] => os.map fun g => (false, g)
  | n + 1, o :: os, p :: ps =>
    if groupTime o < groupTime p ∨ (groupTime o = groupTime p ∧ ownFirst = true) then (false, o) :: mergeGroups ownFirst n os (p :: ps)
    else (true, p) :: mergeGroups ownFirst n (o :: os) ps

/-- Replay both journals as one (R249). -/
def replay (own peer : List (List RecAt)) (d : Dev) : Dev :=
  forEach (mergeGroups (d.headNum == 0) (own.length + peer.length + 1) own peer) (fun e d => replayGroup e.1 e.2 d) d

/-! ## Trees and blocks -/

/-- Root the trees of a head in a map anchor (R247). -/
def rootTrees (h : Nat) (b : Bytes) (d : Dev) : Dev :=
  let put := fun (t off : Nat) (d : Dev) => { d with map := { d.map with
    roots := tabSet ptrNull d.map.roots (t * 8 + rootLevel d t) (ptrOf (slice b off 32)) } }
  put (rootTree h) 96 (put (indexTree h) 64 (put (contentTree h) 32 d))

/-- Root this head's block tables in its media anchor (R272). -/
def rootBlocks (b : Bytes) (d : Dev) : Dev :=
  forEach (List.range moduleCount) (fun m d =>
    let p := ptrOf (slice b (32 + 32 * m) 32)
    { d with med := { d.med with btPtrs := tabSet ptrNull d.med.btPtrs (btKey m (btRoot (d.module m)) 0) p } }) d

/-- One entry of a block-table leaf, where its CRC holds (R271). -/
def blockOfEntry (e : Bytes) (b : EBlock) : EBlock :=
  if fieldAt e 60 4 ≠ crcNat (slice e 0 60) then b
  else { b with
    state := fieldAt e 0 1, stream := fieldAt e 1 1, dieMask := fieldAt e 2 2, erases := fieldAt e 4 4, fill := fieldAt e 8 4,
    valid := fieldAt e 12 4, sealTime := fieldAt e 16 8, sumA := fieldAt e 24 8, sumB := fieldAt e 32 8, sumPages := fieldAt e 40 2,
    openJsn := fieldAt e 44 4, domains := fieldAt e 48 8 }

/-- Load the block-table leaves found of a head. -/
def loadBlocks (h : Nat) (l : List Found) (d : Dev) : Dev :=
  forEach l (fun f d => match f with
    | .blockLeaf w m leaf b =>
      if w ≠ h then d
      else
        let x := d.module m
        let half := Nat.max 1 (groupsOf x / 2)
        forEach (List.range 64) (fun k d =>
          let o := 64 * leaf + k
          d.modBlock (blkKey m (o / half * 2 ^ groupBits x + 2 * (o % half) + h)) (blockOfEntry (slice b (64 * k) 64))) d
    | _ => d) d

/-! ## The start's restore (R249, R310, R551 step 8) -/

/-- Step the time base to 1 ms past the highest TIME that the anchors, media anchors and area headers carry, where that lies ahead (R542). -/
def stepPast (l : List Found) (d : Dev) : Dev :=
  let ts := l.filterMap fun f => match f with
    | .mapAnchor b => if pageOk b then some (fieldAt b 24 8) else none
    | .mediaAnchor b => if pageOk b then some (fieldAt b 16 8) else none
    | .area _ b => if pageOk b then some (fieldAt b 16 8) else none
    | _ => none
  let t := ts.foldl Nat.max 0 + 1000000
  if ts.isEmpty || t ≤ d.now then d else stepTime t d

/-- A staging page from its descriptor and image (R140). -/
def stageOf (desc img : Bytes) (st : Nat) : StagePage :=
  ⟨st, fieldAt desc 5 1, fieldAt desc 6 1, fieldAt desc 7 1, fieldAt desc 8 8, fieldAt desc 16 4, fieldAt desc 20 4,
    (List.range (fieldAt desc 7 1)).map (fun c => (c, slice img (256 * c) 256)), 0, false⟩

/-- A staging descriptor verifies. -/
def descOk (b : Bytes) : Bool := fieldAt b 28 4 == crcNat (slice b 0 28)

/-- A mirror page from its descriptor and image. -/
def mirrorOf (desc img : Bytes) : MirrorPage := ⟨desc, (List.range 64).map fun c => (c, slice img (256 * c) 256)⟩

/-- Load this head's staging and its mirror of the peer's from the area (R310): an item that fails its check in one copy comes from the other.
Pages are loaded full, so that they are programmed next. -/
def loadStages (cs : List Bytes) (d : Dev) : Dev :=
  match cs with
  | [] => d
  | a :: _ =>
    let own := fieldAt a 24 4
    let all := own + fieldAt a 28 4
    forEach (List.range all) (fun i d =>
      match fromCopies cs fun b =>
          let e := slice b (4096 * fieldAt b 44 4 + 32 * i) 32
          if descOk e then some (e, slice b (4096 * fieldAt b 60 4 + 16384 * i) 16384) else none with
      | none => d
      | some (e, img) =>
        let p := fieldAt e 0 4
        if i < own then { d with write := { d.write with pages := tabPut d.write.pages p (stageOf e img 2) } }
        else
          { d with per := { d.per with mirror := tabPut d.per.mirror p (mirrorOf e img) } }) d

/-- Staging pages of a head in its solo batches, with their BATCH_SEQ: a later image supersedes an earlier one (R306). -/
def batchPages (h : Nat) (l : List Found) : Tab (Nat × Bytes × Bytes) := l.foldl (fun t f => match f with
  | .batch _ _ b =>
    if fieldAt b 0 4 ≠ 0x424C4F53 ∨ fieldAt b 5 1 ≠ h ∨ !pageOk (slice b 0 4096) then t
    else (List.range (fieldAt b 22 2)).foldl (fun t i =>
      let e := slice b (32 + 32 * i) 32
      let p := fieldAt e 0 4
      let later := match tabFind t p with
        | some o => newerW 32 (fieldAt b 8 4) o.1
        | none => true
      if descOk e && later then tabPut t p (fieldAt b 8 4, e, slice b (16384 * (i + 1)) 16384) else t) t
  | _ => t) ([] : Tab (Nat × Bytes × Bytes))

/-- Put staging pages of solo batches into this head's staging where the area did not bring them. -/
def loadBatches (h : Nat) (l : List Found) (d : Dev) : Dev :=
  forEach (batchPages h l) (fun e d =>
    if (tabFind d.write.pages e.1).isSome then d
    else { d with write := { d.write with pages := tabPut d.write.pages e.1 (stageOf e.2.2.1 e.2.2.2 2) } }) d

/-- Load the dirty lines of the area (R249 step 2): a page bad in one copy comes from the other; one bad in both is rebuilt (R263). -/
def loadLines (cs : List Bytes) (d : Dev) : Dev :=
  match cs with
  | [] => d
  | a :: _ => forEach (List.range (fieldAt a 40 4)) (fun i d =>
      let keyAt := fun (b : Bytes) => slice b (4096 * fieldAt b 52 4 + 16 * i) 16
      match fromCopies cs fun b =>
          let k := keyAt b
          let img := slice b (4096 * (fieldAt b 56 4 + i)) 4096
          if fieldAt k 12 4 = crcNat img then some (k, img) else none with
      | some (k, img) =>
        let key := fieldAt k 0 8
        match fillPage key (pageOf4k img) true 0 (fieldAt k 8 4) true d with
        | some d1 => dirtyLine key (fieldAt k 8 4) d1
        | none => d
      | none => markRebuild (fieldAt (keyAt a) 0 8) d) d

/-- Put recovered records of this head into its journal ring: those of journal pages are on two modules already, the others are written
again. -/
def loadRing (gs : List (List RecAt)) (paged : Nat → Bool) (d : Dev) : Dev :=
  forEach gs.flatten (fun r d => { d with write := { d.write with
    ring := tabPut d.write.ring r.jsn ⟨r.bytes, r.rec', paged r.jsn, if paged r.jsn then 2 else 0, false⟩ } }) d

/-- JSNs that journal pages hold. -/
def pagedJsns (h : Nat) (l : List Found) : Tab Bytes := l.foldl (fun t f => match f with
  | .journal w first b => if w = h then addRun first b 64 t else t
  | _ => t) ([] : Tab Bytes)

/-- The groups of a writer in their sequence from a JSN on. -/
def groupsFrom (redo : Nat) (t : Tab Bytes) : List (List RecAt) :=
  wholeGroups (placeIn t) ((highestJsn redo t + 2 ^ 32 - redo) % 2 ^ 32 + 1) redo 0

/-- Entries of a block's summary as the journal tells them (R273): every CONTENT_NEW and RELOCATE from OPEN_JSN on whose new location falls in
the block, by offset. A RELOCATE carries no domain; it has that of the slot's CONTENT_NEW where the journal still holds it, else 0. -/
def journalSummary (rs : List RecAt) (k : Nat) (d : Dev) : List SumEnt :=
  let b := d.eblock k
  let m := blkModule k
  let domOf := fun (r : RecAt) => match d.ns r.rec'.nsg with
    | some n => d.getF (R.INS_I_DOMAIN_DOMAIN n.inst)
    | none => 0
  let news := rs.filter fun r => r.rec'.type == 2
  let ents := (rs.filter fun r => (r.rec'.type == 2 || r.rec'.type == 0x20) && !jsnLt r.jsn b.openJsn && recModule r.rec'.a == m &&
      recCrumb r.rec'.a != lostMark && d.blkOf m (recCrumb r.rec'.a) == k).map fun r =>
    let dom := if r.rec'.type = 2 then domOf r else ((news.find? fun n => n.rec'.subject == r.rec'.subject).map domOf).getD 0
    (⟨r.rec'.subject, offOf (d.module m) (recCrumb r.rec'.a), recLen r.rec'.a, dom⟩ : SumEnt)
  ents.foldl (fun l e => (l.filter fun x => decide (x.off ≤ e.off)) ++ [e] ++ l.filter fun x => decide (e.off < x.off)) []

/-- An own block left OPEN or SEALED by the last start: its summary is rebuilt where DRAM held it, its parity is gone, what it was given counts
as programmed but for the pages restored to staging, and it takes no more pages. -/
def sealRestored (rs : List RecAt) (k : Nat) (d : Dev) : Dev :=
  let b := d.eblock k
  let x := d.module (blkModule k)
  let es := if b.sumPages = 0 ∧ b.sumA = 0 ∧ b.stream ≠ sM then journalSummary rs k d else b.summary
  let base := blkBase x (blkEbn k) / 64
  let staged := (d.write.pages.filter fun e => d.blkOf e.2.module e.2.flash == k && e.2.state != 0).map fun e => e.2.flash / 64 - base
  let top := es.foldl (fun n e => Nat.max n (e.off + e.len)) b.fill
  let fill := staged.foldl (fun n p => Nat.max n (64 * p + 64)) top
  let doms := es.foldl (fun n e => if bitAt n (e.dom % 64) then n else n + 2 ^ (e.dom % 64)) b.domains
  sealBlock k (d.modBlock k fun b => { b with
    summary := es, bare := true, fill := fill, domains := doms
    written := (List.range ((fill + 63) / 64)).filter fun p => !staged.contains p })

/-- Own blocks that the last start left on their way (R270): OPEN and SEALED ones are sealed and read back without parity, victims are VERIFIED
again, as a take-over does it (R291); an erase is issued again. -/
def settleBlocks (rs : List RecAt) (d : Dev) : Dev :=
  let own := d.med.blocks.filter fun e => ownPool d (d.module (blkModule e.1)) (blkEbn e.1)
  let open' := own.filter fun e => e.2.state == 1 || e.2.state == 2
  let d1 : Dev := { d with med := { d.med with parityUsed := (open'.filter fun e => e.2.stream != sM).length } }
  let d2 := forEach open' (fun e d => sealRestored rs e.1 d) d1
  let d3 := forEach (own.filter fun e => e.2.state == 4) (fun e d =>
    journalBlock e.1 (d.modBlock e.1 fun b => { b with state := 3 })) d2
  forEach (own.filter fun e => e.2.state == 5) (fun e d =>
    let m := blkModule e.1
    mediaCmd m 5 0 (blkBase (d.module m) (blkEbn e.1)) (0xFFFF - e.2.dieMask) [] (.erase e.1) d) d3

/-- Own solo batches found, with the SLC erase-block ordinal each lies in: (module, ordinal, BATCH_SEQ, LAST_JSN). -/
def foundSolo (d : Dev) (l : List Found) : List (Nat × Nat × Nat × Nat) := l.filterMap fun f => match f with
  | .batch m crumb b =>
    let x := d.module m
    let ebn := ebnOf x crumb
    if fieldAt b 0 4 = 0x424C4F53 ∧ pageOk (slice b 0 4096) = true ∧ groupOf x ebn % 2 = d.headNum ∧ blockOf x ebn < 2 then
      some (m, blockOf x ebn * Nat.max 1 (groupsOf x / 2) + groupOf x ebn / 2, fieldAt b 8 4, fieldAt b 16 4)
    else none
  | _ => none

/-- The solo log goes on after what the last start left in it (R306, R307): the blocks with batches hold records up to their last; on each module
the log continues in the block after the newest batch's, erased first, and BATCH_SEQ after the newest. -/
def noteBatches (l : List Found) (d : Dev) : Dev :=
  let bs := foundSolo d l
  let newest := fun (b : List (Nat × Nat × Nat × Nat)) => b.foldl (fun (o : Option (Nat × Nat × Nat × Nat)) e => match o with
    | none => some e
    | some a => if newerW 32 e.2.2.1 a.2.2.1 then some e else some a) none
  let d1 := match newest bs with
    | some e => { d with med := { d.med with batchSeq := e.2.2.1 } }
    | none => d
  let d2 := bs.foldl (fun d e =>
    let k := slcKey d e.1 0 e.2.1
    if jsnLt e.2.2.2 (tabGet e.2.2.2 d.med.slcUsed k) then d else noteSlc k e.2.2.2 d) d1
  (dedup (bs.map (·.1))).foldl (fun d m =>
    match newest (bs.filter fun e => e.1 == m) with
    | none => d
    | some e =>
      let nxt := slcKey d m 0 ((e.2.1 + 1) % slcBlocks (d.module m))
      let d3 := setSoloPos m (e.2.1 * 2 ^ 32 + slcBlkPages (d.module m)) d
      if (tabFind d3.med.slcUsed nxt).isSome then d3 else noteSlc nxt 0 d3) d2

/-- Restore this head from media (R249, R310): the trees of its anchor, the area where one is valid and the fence word lets it be
restored, and the replay. -/
def restore (live : Bool) (l : List Found) (d : Dev) : Dev :=
  let h := d.headNum
  let d0 := noteBatches l (stepPast l d)
  let areas := if live then newestArea h l else []
  let cs := areas.map (·.2)
  let a := newestBy 8 (foundMaps h l)
  let redo := (a.map fun b => fieldAt b 12 4).getD 1
  let next := (a.map fun b => fieldAt b 16 4).getD 1
  let pRedo := (a.map fun b => fieldAt b 20 4).getD 1
  let d1 := match a with
    | some b => ((rootTrees h b { d0 with map := { d0.map with anchorSeq := fieldAt b 8 4 } }).setF R.MAP_ANCHOR_SEQ (fieldAt b 8 4)).setF
        R.MAP_ANCHOR_REDO_JSN redo
    | none => d0
  let d2 := match newestBy 8 (foundMedia h l) with
    | some b => rootBlocks b d1
    | none => d1
  let d3 := loadLines cs (loadBatches h (if live then l else []) (loadStages cs (loadBlocks h l d2)))
  let own := foundRecs h (if live then l else l.filter fun f => match f with
    | .area _ _ => false
    | _ => true)
  let peer := foundRecs (1 - h) l
  let og := groupsFrom redo own
  let pg := groupsFrom pRedo peer
  let paged := pagedJsns h l
  let d4 := loadRing og (fun j => (tabFind paged j).isSome) d3
  let top := (og.getLast?.bind (·.getLast?)).map fun r => (r.jsn + 1) % 2 ^ 32
  let high := (highestJsn redo own + 1) % 2 ^ 32
  let nx := [top.getD next, next, if own.isEmpty then next else high].foldl (fun j k => if jsnLt j k then k else j) next
  let d5 := replay og pg ((d4.setF R.CMQ_JSN_NEXT nx).setF R.CMQ_JSN_DURABLE ((nx + 2 ^ 32 - 1) % 2 ^ 32))
  let d6 := if cs.isEmpty then d5
    else
      let s := fieldAt (cs.headD []) 8 4
      { d5.setB R.MED_PLA_RESTORED true with
        med := { d5.med with pla := { d5.med.pla with seq := s, mods := areas.map (·.1) } }
        hth := { d5.hth with restore := 1 } }
  let d6 := if live then settleBlocks og.flatten d6 else d6
  let d7 := d6.setF R.PAN_STATE_STATE 1
  forEach (d7.write.pages.map (·.1)) programStage d7

/-- Both copies of the area are erased (R310, R510). -/
def eraseArea (d : Dev) : Dev :=
  forEach d.med.pla.mods (fun m d => forEach (List.range (slcBlocks (d.module m))) (fun b d => eraseSlc (slcKey d m 2 b) d) d) d

/-- The restore of an area goes on (R310 steps 3 to 5): the staging pages are programmed, an anchor is cut, both copies are erased. -/
def pumpRestore (d : Dev) : Dev :=
  if d.hth.restore = 1 then
    if d.write.pages.any fun e => decide (1 ≤ e.2.state ∧ e.2.state ≤ 3) then d
    else if d.map.cut.isSome then d
    else (cutAnchor { d with hth := { d.hth with restore := 2 } })
  else if d.hth.restore = 2 then
    if d.map.cut.isSome then d
    else
      eraseArea { d with hth := { d.hth with restore := 3 } }
  else if d.hth.restore = 3 then
    let out := d.links.any fun l => (l.2.tags ++ l.2.queue).any fun c => match c.work with
      | .slcErase _ => true
      | _ => false
    if out then d else { d with hth := { d.hth with restore := 0 }, med := { d.med with pla := { d.med.pla with mods := [] } } }
  else d

end Sys2Proof.Machine
end

