-- ==== Sys2Proof/Machine/PairOps.lean ====
section
/-! DEFINITION. Pairing, replacement and the key store's transfer (R26, R459 to R466, R496). -/

namespace Sys2Proof.Machine

/-- Change the pairing. -/
def modPairing (f : Pairing → Pairing) (d : Dev) : Dev := { d with sec := { d.sec with pairing := f d.sec.pairing } }

/-- ARG1 and ARG2 of this head's HELLO (R497). -/
def helloArgs (d : Dev) : List Nat :=
  let ks := if d.sec.root.isSome then d.sec.store else none
  [d.sec.fuses.deviceId, (ks.map (·.arrayId)).getD 0, (ks.map (·.kseq)).getD 0 + lcState d * 2 ^ 32 + d.per.head.getD 3 * 2 ^ 40]

/-- A pairing fails (R466, R496): the peer is told, the failure counted, an event posted; it is tried again after 1 s. -/
def failPairing (tell : Bool) (cause : Nat) (d : Dev) : Dev :=
  let d1 := if tell then sendPeer 0x05 0 [cause] [] d else d
  (modPairing (fun _ => ⟨9, [], [], [], [], 0, [], none⟩) (d1.err R.E_SEC_AUTH_FAIL)).post 0x0402 [cause, d.per.peerDevice]

/-- Pairing begins (R499): the link's queue pairs start afresh (R493), and the certificate is read by DMA (R460). A HELLO that has come already
is kept. -/
def startPairing (d : Dev) : Dev :=
  let d1 := resetPeerQps ((modPairing (fun p => ⟨1, [], p.peerHello, [], [], 0, [], none⟩) d).setF R.PER_STATE_STATE 1)
  if lcState d ≠ 1 ∧ lcState d ≠ 2 then failPairing true 5 d1
  else if !d1.dmaOn then failPairing true 1 d1
  else d1.hostRead .cert (d1.getF R.SEC_CERT_ADDR_ADDR * 4096) 384 none

/-- PAIRING_RETRY (R496): every 1 s after a failed pairing. -/
def pairingRetry (d : Dev) : Dev := if d.sec.pairing.phase = 9 ∧ d.getF R.PER_STATE_STATE = 1 then startPairing d else d

/-- A device certificate is valid (R460): its CRC, its issuer's hash, its signature. -/
def certOk (d : Dev) (c : Bytes) : Bool :=
  fieldAt c 0 4 == 0x43445856 && fieldAt c 4 1 == 1 && fieldAt c 380 4 == crcNat (slice c 0 380) &&
    sha sha384P (slice c 120 97) == d.sec.fuses.certHash && ecdsaVerify (slice c 120 97) (slice c 0 224) (slice c 224 48) (slice c 272 48)

/-- The certificate a HELLO carries. -/
def helloCert (m : Bytes) : Bytes := slice m 96 384

/-- Both sides' messages of a kind, those of the head with the lower DEVICE_ID first (log entry 27). -/
def inOrder (d : Dev) (own peer : Bytes) : Bytes := if d.sec.fuses.deviceId < d.per.peerDevice then own ++ peer else peer ++ own

/-- Both HELLOs. -/
def hellos (d : Dev) : Bytes := inOrder d d.sec.pairing.ownHello d.sec.pairing.peerHello

/-- Every message up to the CONFIRMs (log entry 27). -/
def transcript (d : Dev) : Bytes := hellos d ++ inOrder d d.sec.pairing.ownKex d.sec.pairing.peerKex

/-- ARRAY_ID and KSEQ that a HELLO carries. -/
def helloArray (m : Bytes) : Nat := fieldAt m 24 8
/-- KSEQ of a HELLO. -/
def helloKseq (m : Bytes) : Nat := fieldAt m 32 4
/-- Life-cycle state of a HELLO. -/
def helloLc (m : Bytes) : Nat := fieldAt m 36 1 % 4
/-- Head number of a HELLO; 3 when none is held. -/
def helloHead (m : Bytes) : Nat := fieldAt m 37 1 % 4

/-- Kinds of pairing by the two HELLOs (R464, R465): 0 it fails, 1 first pairing, 2 rejoin with equal KSEQ, 3 rejoin with different ones, 4 this
head admits a replacement, 5 this head is a replacement. -/
def pairKind (d : Dev) : Nat :=
  let own := helloArray d.sec.pairing.ownHello
  let peer := helloArray d.sec.pairing.peerHello
  if own = 0 ∧ peer = 0 then 1
  else if own = peer then if helloKseq d.sec.pairing.ownHello = helloKseq d.sec.pairing.peerHello then 2 else 3
  else if peer = 0 then if d.getF R.SEC_PAIR_ALLOW_DEVICE_ID = d.per.peerDevice then 4 else 0
  else if own = 0 then 5
  else 0

/-- CONFIRM over every message so far (R464). -/
def confirmTag (d : Dev) : Bytes := aesCmac d.sec.pairing.confirmKey (sha sha384P (transcript d))

/-- Send this head's CONFIRM. -/
def sendConfirm (d : Dev) : Dev := sendPeer 0x03 0 [] (confirmTag d) (modPairing (fun p => { p with phase := 4 }) d)

/-- Send this head's KEX (R464): an ephemeral key drawn from the TRNG, and the identity key's signature over both HELLOs and it. -/
def sendKex (d : Dev) : Dev :=
  let a := d.drawNat (p384N - 1)
  let k := a.2.drawNat (p384N - 1)
  let pub := ecPublic (a.1 + 1)
  let priv := identityScalar (d.sec.fuses.root.getD [])
  let sig := (ecdsaSign priv (k.1 + 1) (hellos d ++ pub)).getD (zeros 48, zeros 48)
  let body := pub ++ zeros 7 ++ sig.1 ++ sig.2
  sendPeer 0x02 0 [] body (modPairing (fun p => { p with phase := 3, priv := a.1 + 1, ownKex := msgBytes 2 0 [] body }) k.2)

/-- Both HELLOs are there (R464 to R466): the checks, then KEX, or CONFIRM where both heads hold the same store. -/
def bothHellos (d : Dev) : Dev :=
  let p := d.sec.pairing
  if p.phase ≠ 2 ∨ p.peerHello.isEmpty then d
  else
    let c := helloCert p.peerHello
    if helloLc p.peerHello ≠ 1 ∧ helloLc p.peerHello ≠ 2 then failPairing true 5 d
    else if !certOk d c || fieldAt c 8 8 != d.per.peerDevice then failPairing true 1 d
    else match pairKind d with
      | 0 => failPairing true 4 d
      | 2 =>
        let key := kdf (d.sec.root.getD []) 0x0B (kdfContext 0 0 0 0 0 (sha sha256P (transcript d))) 256
        sendConfirm (modPairing (fun p => { p with confirmKey := key }) (d.stat R.SEC_DERIVES 1))
      | _ => sendKex d

/-- The certificate has been read (R460, R466): HELLO goes out; a read that failed fails the pairing. -/
def certData (b : Option Bytes) (d : Dev) : Dev :=
  if d.sec.pairing.phase ≠ 1 then d
  else match b with
    | none => failPairing true 1 d
    | some c =>
      let n := d.drawBytes 32
      let body := n.1 ++ slice c 0 384
      let args := helloArgs d
      bothHellos (sendPeer 0x01 0 args body (modPairing (fun p => { p with phase := 2, ownHello := msgBytes 1 0 args body }) n.2))

/-- HELLO (R464, R499): kept until this head's own is out; while this head serves alone, the peer returns and pairing begins. -/
def hello (device array info : Nat) (b : Bytes) (d : Dev) : Dev :=
  let m := msgBytes 1 0 [device, array, info] (slice b 0 416)
  let d1 := modPairing (fun p => { p with peerHello := m }) { d with per := { d.per with peerDevice := device } }
  if d1.getF R.PER_STATE_STATE = 6 ∨ (d1.getF R.PER_STATE_STATE = 2 ∧ d1.sec.pairing.phase = 0) then startPairing d1 else bothHellos d1

/-- KEX (R464): the signature, the shared secret, and the keys derived from it; then CONFIRM. -/
def kex (b : Bytes) (d : Dev) : Dev :=
  let p := d.sec.pairing
  if p.phase ≠ 3 then d
  else
    let pub := slice b 0 97
    if !ecdsaVerify (slice (helloCert p.peerHello) 16 97) (hellos d ++ pub) (slice b 104 48) (slice b 152 48) then failPairing true 2 d
    else match ecdh p.priv pub with
      | none => failPairing true 2 d
      | some z =>
        let pk := (sha sha384P z).take 32
        let d1 := modPairing (fun p => { p with peerKex := msgBytes 2 0 [] (slice b 0 200), priv := 0 }) d
        let t := sha sha256P (transcript d1)
        let key := fun (ki : Bytes) (purpose : Nat) => kdf ki purpose (kdfContext 0 0 0 0 0 t) 256
        let k := pairKind d1
        let d2 := modPairing (fun p => { p with
          confirmKey := if k = 3 then key (d1.sec.root.getD []) 0x0B else key pk 0x0B
          newRoot := if k = 1 then some (key pk 9) else none }) d1
        let d3 : Dev := { d2 with sec := { d2.sec with xferKey := key pk 0x0A } }
        sendConfirm (d3.stat R.SEC_DERIVES (if k = 1 then 3 else 2))

/-- Write the array page of every module in service (R26, R329). -/
def writeArrayPages (d : Dev) : Dev :=
  let id := (d.sec.store.map (·.arrayId)).getD 0
  let own := d.sec.fuses.deviceId
  let devs := if d.headNum = 0 then leBytes 8 own ++ leBytes 8 d.per.peerDevice else leBytes 8 d.per.peerDevice ++ leBytes 8 own
  forEach (onModules d) (fun m d =>
    let page := sbPage 1 (zeros 8 ++ leBytes 8 id ++ leBytes 1 m ++ zeros 7 ++ devs ++ leBytes 8 d.now ++ zeros 4036)
    mediaCmd m 8 0 1 0 page (.superblock 1) d) d

/-- The windows this head creates for its peer (R497, R498): three mirrors, forward landing, bulk. -/
def openPeerWindows (d : Dev) : Dev :=
  let d1 := rewriteWindow (peerWindow 0) 0 (8 * 2 ^ 30) 5 (peerQp 2) d
  let d2 := rewriteWindow (peerWindow 2) 0 (64 * 2 ^ 20) 5 (peerQp 2) (rewriteWindow (peerWindow 1) 0 (16 * 2 ^ 20) 5 (peerQp 2) d1)
  rewriteWindow (peerWindow 4) bulkBase (2 ^ 32) 1 (peerQp 4) (rewriteWindow (peerWindow 3) fwdBase (2 ^ 32) 1 (peerQp 3) d2)

/-- A pairing has succeeded (R499): JOINING, with WINDOWS and BUDGET exchanged. -/
def pairingDone (d : Dev) : Dev :=
  let d1 := openPeerWindows (syncSec { d with sec := { d.sec with paired := true, pairing := ⟨0, [], [], [], [], 0, [], none⟩ } })
  let d2 := d1.setF R.PER_STATE_STATE 2
  sendPeer 0x0C 0 [d2.getF R.CMQ_DIRTY_BUDGET_B_MIB] []
    (sendPeer 0x0D 0 ((List.range 5).map (winKey d2)) [] { d2 with per := { d2.per with joinStep := 0, mirrorOpen := true } })

/-- Take the array root and a store as this head's own (R461, R464, R465): its own HEAD, its own wrapping, written at once. -/
def takeStore (head : Nat) (root : Bytes) (ks : KeyStore) (d : Dev) : Dev :=
  let d1 : Dev := { d with per := { d.per with head := some head } }
  let d2 : Dev := { d1 with sec := { d1.sec with
    root := some root, store := some { ks with wrapped := wrapRoot d1 root }, rewrite := true } }
  pumpStore (syncSec (d2.setF R.PER_STATE_HEAD head))

/-- CONFIRM (R464 to R466). A first pairing gives both heads their numbers, the array its identity and each head its store; the head with the
newer store, or the survivor that admits a replacement, sends TRANSFER. -/
def confirm (b : Bytes) (d : Dev) : Dev :=
  let p := d.sec.pairing
  if p.phase ≠ 4 then d
  else if slice b 0 16 ≠ confirmTag d then failPairing true 3 d
  else match pairKind d with
    | 1 =>
      let h := if d.sec.fuses.deviceId < d.per.peerDevice then 0 else 1
      let id := leNat ((sha sha384P (hellos d)).take 8)
      let d1 := takeStore h (p.newRoot.getD []) ⟨1, 0, id, [], [], []⟩ d
      let d2 := if h = 0 then writeArrayPages d1 else d1
      pairingDone (forEach (onModules d2) (fun m d => writeHeadPage m none none d) d2)
    | 3 =>
      if newerW 32 (helloKseq p.ownHello) (helloKseq p.peerHello) then pairingDone (sendTransfer d)
      else modPairing (fun p => { p with phase := 5 }) d
    | 4 => pairingDone (writeArrayPages ((sendTransfer d).setF R.SEC_PAIR_ALLOW_DEVICE_ID 0))
    | 5 => modPairing (fun p => { p with phase := 5 }) d
    | _ => pairingDone d

/-- Domains of a store whose walk is unfinished and that this head does not walk yet: their newer epochs begin a raise here too (R473). -/
def newWalks (old new : Option KeyStore) : List Nat :=
  (((new.map (·.domains)).getD []).filter fun e => e.2.walk &&
    decide ((((old.bind fun k => tabFind k.domains e.1).map (·.epoch)).getD 0) < e.2.epoch)).map (·.1)

/-- TRANSFER (R465): opened under the transfer key and written as this head's own store. While paired it brings a store that the peer has
changed (R473, R489; log entry 17). -/
def transfer (b : Bytes) (d : Dev) : Dev :=
  let n := b.length - 16
  match gcmOpen d.sec.xferKey (zeros 12) [] (b.take n) (b.drop n) with
  | none => d.err R.E_PER_MSG_ERR
  | some plain => match readPlainStore plain with
    | none => d.err R.E_PER_MSG_ERR
    | some (root, ks) =>
      if d.sec.pairing.phase = 5 then
        let head := d.per.head.getD (1 - helloHead d.sec.pairing.peerHello % 2)
        let fresh := d.per.head.isNone
        let d1 := takeStore head root ks d
        pairingDone (if fresh then forEach (onModules d1) (fun m d => writeHeadPage m none none d) d1 else d1)
      else if d.sec.paired ∧ newerW 32 ks.kseq ((d.sec.store.map (·.kseq)).getD 0) then
        let walks := newWalks d.sec.store (some ks)
        forEach walks startRaise (takeStore d.headNum (d.sec.root.getD root) ks d)
      else d

/-- PAIR_FAIL (R466): the peer's pairing has failed, so this one has. -/
def pairFail (cause : Nat) (d : Dev) : Dev :=
  if d.sec.pairing.phase = 0 ∨ d.sec.pairing.phase = 9 then d else failPairing false cause d

/-- A pairing whose certificate read ended with host DMA fails (R466, R533, R535). -/
def pumpPairing (d : Dev) : Dev :=
  if d.sec.pairing.phase = 1 && !(d.hep.reads.any fun r => r.work == .cert && !r.discard) && !(d.hep.waiting.any fun w => w.1 == .cert) then
    failPairing true 1 d
  else d

end Sys2Proof.Machine
end

