-- ==== Sys2Proof/Machine/PeerOps.lean ====
section
/-! DEFINITION. Heartbeats and the messages between the heads: mirror release, drops, reads through the peer, tallies, sweeps and forwarded
commands (R128, R151, R164, R198, R293, R302, R404, R491 to R498, R543, R544). -/

namespace Sys2Proof.Machine

/-! ## Sublinks and heartbeats -/

/-- The sublink's state and its lanes' (R491). -/
def setSublink (j : Nat) (up : Bool) (d : Dev) : Dev :=
  forEach (List.range 4) (fun i d => (d.setB (R.PER_L_STATE_SIGNAL (4 * j + i)) up).setB (R.PER_L_STATE_ALIGNED (4 * j + i)) up)
    (d.setB (if j = 0 then R.PER_STATE_SUB0_UP else R.PER_STATE_SUB1_UP) up)

/-- THAGRAIT_SUBLINK_DOWN (R491, R514): the path of that number is suspended, and everything continues on the other. -/
def sublinkDown (j : Nat) (d : Dev) : Dev :=
  if j ≥ 2 then d
  else forEach [1, 2, 3, 4] (fun k d => d.modQp (peerQp k) fun q => { q with
    paths := tabMod ⟨false, []⟩ q.paths j fun p => { p with suspended := true } }) (setSublink j false d)

/-- Thagrait outputs are live (R81, R550, R551, R560): from start step 9 on while the head serves, starts or flushes, not out of service under
APPLY_OOS, and not while the sublink is calibrated or after two calibrations of it have failed. -/
def sublinkLive (d : Dev) (j : Nat) : Bool :=
  let st := d.getF R.HTH_STATE_STATE
  (st == stServing || st == stFlush || (st == stStarting && decide (d.getF R.HTH_STATE_STEP ≥ 9))) &&
    !(d.img.apply.any fun a => a.oos && (a.oosPhase == 4 || a.oosPhase == 5)) && !d.hth.calDown.contains (128 + j) &&
    !(d.hth.cal.kind == 2 && d.hth.cal.index == j && d.hth.cal.phase == 2)

/-- THAGRAIT_SUBLINK_UP (R491). -/
def sublinkUp (j : Nat) (d : Dev) : Dev :=
  if j ≥ 2 || !sublinkLive d j then d
  else forEach [1, 2, 3, 4] (fun k d => d.modQp (peerQp k) fun q => { q with
    paths := tabMod ⟨false, []⟩ q.paths j fun p => { p with suspended := false } }) (setSublink j true d)

/-- The head sends heartbeats (R494, R495, R554): from start step 9 on, until it is fenced, halted or reset. -/
def beating (d : Dev) : Bool :=
  let st := d.getF R.HTH_STATE_STATE
  st == stServing || st == stFlush || (st == stStarting && decide (d.getF R.HTH_STATE_STEP ≥ 9))

/-- Bit of a fence word that lets a head present it (R500). -/
def liveBit (w h : Nat) : Bool := bitAt w (16 + h)

/-- The body of a HEARTBEAT (R494). -/
def beatBytes (d : Dev) : Bytes :=
  let flags := b2n (d.getF R.PER_STATE_STATE == 6) + 2 * b2n (d.sec.pairing.phase == 9) +
    4 * b2n (d.getF R.HTH_TIME_ADJ_SOURCE == 1) + 8 * b2n (d.getF R.HTH_STATE_STATE == stFlush)
  leBytes 4 d.per.hbSeq ++ leBytes 2 (if liveBit d.per.fenceWord d.headNum then d.per.fenceWord % 65536 else 0) ++
    leBytes 1 (d.getF R.PER_STATE_STATE) ++ leBytes 1 flags ++ leBytes 8 d.now ++ leBytes 4 d.durableJsn ++
    leBytes 4 (d.getF R.PER_JSN_COVERED) ++ leBytes 4 ((d.sec.store.map (·.kseq)).getD 0) ++ leBytes 2 (d.getF R.IMG_GEN_GEN) ++ zeros 22

/-- HEARTBEAT_TIMER (R494): every 10 µs, on every up sublink. -/
def heartbeatTimer (d : Dev) : Dev :=
  if !beating d then d
  else
    let d1 : Dev := { d with per := { d.per with hbSeq := (d.per.hbSeq + 1) % 2 ^ 32 } }
    (sendFrame 1 (beatBytes d1) d1).stat R.PER_HB_TX (upSublinks d1).length

/-- Show the source that disciplines the time base (R543). -/
def syncSource (d : Dev) : Dev :=
  let peerLock := match d.per.last with
    | some b => bitAt b.flags 2
    | none => false
  d.setIf R.HTH_TIME_ADJ_SOURCE
    (if d.getB R.FRT_PTP_LOCKED then 1 else if d.peerUp && (peerLock || d.headNum == 1) then 2 else 0)

/-- The offset from the peer that a heartbeat shows, into the mean of the last 16 (R544); a head that follows the peer corrects by it. -/
def measurePeer (time : Nat) (d : Dev) : Dev :=
  let off : Int := (d.now : Int) - time - (310 + d.getF R.HTH_PARAM2_THAG_FLIGHT_NS : Nat)
  let l := (off :: d.hth.offsets).take 16
  let mean : Int := l.foldl (· + ·) 0 / l.length
  let d1 := ({ d with hth := { d.hth with offsets := l } } : Dev).setF R.HTH_TIME_PEER_OFFSET_NS (mean % 2 ^ 32).toNat
  if d1.getF R.HTH_TIME_ADJ_SOURCE = 2 then steer (-mean) d1 else d1

/-- HEARTBEAT (R494, R516, R544): a frame on a sublink. Periods skipped since the last one were missed. -/
def heartbeat (j : Nat) (b : Bytes) (d : Dev) : Dev :=
  if !(upSublinks d).contains j then d
  else
    let x : Beat := ⟨fieldAt b 0 4, fieldAt b 4 2, fieldAt b 6 1, fieldAt b 7 1, fieldAt b 8 8, fieldAt b 16 4, fieldAt b 24 4⟩
    let missed := match d.per.last with
      | some l => if d.peerUp && newerW 32 x.seq l.seq then (x.seq + 2 ^ 32 - l.seq) % 2 ^ 32 - 1 else 0
      | none => 0
    let d1 := (d.stat R.PER_HB_RX 1).setF R.PER_JSN_PEER_DURABLE x.durable
    let d2 : Dev := { d1 with per := { d1.per with last := some x, lastTime := d1.now } }
    measurePeer x.time (syncSource (forEach (List.range missed) (fun _ d => d.err R.E_PER_HB_MISSED) d2))

/-! ## What the heads tell each other at pairing (R128, R497) -/

/-- BUDGET (R128): the peer's B. -/
def budgetMsg (v : Nat) (d : Dev) : Dev :=
  syncWrite (compareBudgets { d with write := { d.write with peerBudget := some (v % 2 ^ 24) } })

/-- WINDOWS (R497): keys of the peer's windows. -/
def windowsMsg (stg desc jrn fwd bulk : Nat) (d : Dev) : Dev :=
  { d with per := { d.per with windows := [(0, stg), (1, desc), (2, jrn), (3, fwd), (4, bulk)] } }

/-- ANCHOR (R248, R497, R509): the peer's durable anchors. Own records that the peer's pages no longer need may be released. -/
def anchorMsg (b : Bytes) (d : Dev) : Dev :=
  if b.length ≠ 8192 then d
  else releaseJournal { d with per := { d.per with anchor := some b, proxySeq := fieldAt b 8 4 } }

/-! ## Mirror release (R151, R162, R498) -/

/-- Mirror pages whose release was asked go once no read holds them, and the release is answered. -/
def pumpReleases (d : Dev) : Dev :=
  let free := d.per.releasing.filter fun e => tabGet 0 d.read.mirrorHolds e.1 == 0
  forEach free (fun e d =>
    let d1 : Dev := { d with per := { d.per with mirror := tabDel d.per.mirror e.1, releasing := d.per.releasing.filter (· != e) } }
    match e.2 with
    | some j => syncWrite (sendPeer 0x11 0 [e.1, j] [] d1)
    | none => syncWrite d1) d

/-- RELEASE (R498): of a mirror page, or of journal records below a JSN. -/
def releaseMsg (what jsn : Nat) (d : Dev) : Dev :=
  if bitAt what 63 then
    let old := fun (b : Bytes) => match parseRec b with
      | some r => jsnLt r.1 (jsn % 2 ^ 32)
      | none => false
    syncWrite (sendPeer 0x11 0 [what, jsn] [] { d with per := { d.per with journal := d.per.journal.filter fun e => !old e.2 } })
  else pumpReleases { d with per := { d.per with releasing := d.per.releasing ++ [(what % 2 ^ 19, some jsn)] } }

/-- RELEASE_ACK (R151): the page's credits return, or journal records leave the ring. -/
def releaseAck (what jsn : Nat) (d : Dev) : Dev :=
  if bitAt what 63 then journalReleased (jsn % 2 ^ 32) d
  else
    let p := what % 2 ^ 19
    if (d.stage p).releaseSent then freePage p (d.modStage p fun s => { s with releaseSent := false }) else d

/-! ## Drops, reads through the peer, tallies and sweeps -/

/-- DROP (R198): this head's Pantry entry for a handle goes. -/
def dropMsg (h : Nat) (d : Dev) : Dev := sendPeer 0x21 0 [h] [] (removeEntry (bucketOf h) (locOf h) d)

/-- DROP_ACK (R198). -/
def dropAck (h : Nat) (d : Dev) : Dev :=
  finishDrops { d with pan := { d.pan with drops := mapWhere (fun x => x.handle == h) (fun x => { x with peerOk := true }) d.pan.drops } }

/-- READ_REQ (R164, R497): the crumbs are read over this head's link and go to the peer's window. -/
def readReq (tag what key va : Nat) (d : Dev) : Dev :=
  readCrumbs (bitsAt what 48 5) (bitsAt what 0 40) (bitsAt what 40 7) (.peerRead tag what (key % 2 ^ 32) va) d

/-- READ_RESP (R164, R497): the crumbs stand in the forward landing window, before the message. -/
def readResp (tag st : Nat) (d : Dev) : Dev :=
  match takeRequest tag 0x24 d with
  | (none, _) => d
  | (some r, d1) =>
    let s := if st % 256 = 8 then psUnavailable else st / 256 % 256
    let b := d1.memBytes (fwdBase + readSlot tag) (256 * (r.b % 128))
    readGoesOn r.work (recordRead r.work s (if psLost s then [] else b) d1)

/-- TALLY (R293): reads the peer made of an erase block. -/
def tallyMsg (what n : Nat) (d : Dev) : Dev :=
  let m := bitsAt what 24 5
  let k := blkKey m (what % 2 ^ 24)
  if groupOf (d.module m) (what % 2 ^ 24) % 2 = d.headNum then disturb k (n % 2 ^ 32) d else d

/-- SWEEP_REQ (R302): phases 2 to 5 for the peer. -/
def sweepReq (dom : Nat) (d : Dev) : Dev := requestSweep (dom % 4096) true [] d

/-- SWEEP_DONE (R302): the peer's part is over. -/
def sweepDone (dom : Nat) (d : Dev) : Dev :=
  match d.med.sweep with
  | none => d
  | some s =>
    if s.domain ≠ dom % 4096 ∨ s.forPeer then d
    else if s.phase = 6 then endSweep { s with peerDone := true } d
    else modSweep (fun s => { s with peerDone := true }) d

/-! ## Forwarded commands (R404, R497) -/

/-- The forwarded command of this head that an ARG0 names. -/
def fwdOwn (d : Dev) (arg : Nat) : Option NCmd := d.nvm.cmds.find? fun c => c.aux == 1 && c.prog == 3 && fwdArg c.h == arg

/-- FWD_CMD (R404): the serving head admits and runs the command. One that this head had forwarded itself, come back because the instance has moved
here, goes on as its own. -/
def fwdCmd (arg off len : Nat) (b : Bytes) (d : Dev) : Dev :=
  let e := sqeOf b
  let data := d.memBytes (fwdBase + off) len
  match fwdOwn d arg with
  | some c => acceptAgain ⟨c.h.inst, c.h.origin, c.h.sqe, c.h.cap, if landsData e.opc then some data else none⟩ (dropNCmd c.h.id d)
  | none => acceptCmd (bitsAt arg 32 16 == 0) (.peer arg) e data (d.stat R.CMQ_FWD_RX 1)

/-- FWD_CHUNK (R404, R171): the blocks of a forwarded read's chunk that are not lost are placed for the client. -/
def fwdChunk (arg k off lost : Nat) (d : Dev) : Dev :=
  match fwdOwn d arg with
  | none => d
  | some c =>
    let first := slbaOf c.h.sqe
    let data := d.memBytes (fwdBase + off) chunkBytes
    let base := (first / 4 + k) * 4
    forEach (List.range 4) (fun i d =>
      let blk := base + i
      if blk < first ∨ first + nlbOf c.h.sqe ≤ blk ∨ bitAt lost i then d
      else placeData c.h k ((blk - first) * blockBytes) (slice data (i * blockBytes) blockBytes) d) d

/-- FWD_CPL (R404): the completion goes to the client. -/
def fwdCpl (arg : Nat) (b : Bytes) (d : Dev) : Dev :=
  match fwdOwn d arg with
  | none => d
  | some c => finishN c.h.id (fieldAt b 14 2 / 2 % 2048) (fieldAt b 0 8) d

end Sys2Proof.Machine
end

