-- ==== Sys2Proof/Machine/TakeOps.lean ====
section
/-! DEFINITION. Fence words, contests and take-over (R499 to R509, R512): witness and FENCE answers, votes, the adoption of the failed head's share,
what its securing takes. -/

namespace Sys2Proof.Machine

/-! ## Fence words and voters (R500, R501, R503) -/

/-- The number of the other head. -/
def peerNum (d : Dev) : Nat := 1 - d.headNum

/-- GEN of the joint word that a word is, or was built from (R502, R503). -/
def jointGen (w : Nat) : Nat := if bitAt w 18 then (w % 65536 + 65535 - b2n (bitAt w 19)) % 65536 else w % 65536

/-- This head holds a claim over the other (R500, R502). -/
def holdsClaim (d : Dev) : Bool := bitAt d.per.fenceWord 18 && liveBit d.per.fenceWord d.headNum

/-- Keep a fence word as the one this head presents (R516). -/
def takeWord (w : Nat) (d : Dev) : Dev := ({ d with per := { d.per with fenceWord := w } } : Dev).setF R.PER_FENCE_WORD w

/-- Note what witness 0 of a module holds (R338). -/
def noteWord (m w : Nat) (d : Dev) : Dev :=
  (d.modLink m fun l => { l with witness := tabPut l.witness 0 w }).setF (R.MED_L_FENCE_MODULE_GEN m) (w % 65536)

/-- Present a word's GEN on a link, and send again what was answered FENCED there (R501). -/
def presentOn (m w : Nat) (d : Dev) : Dev :=
  pumpLink m (((noteWord m w d).setF (R.MED_L_FENCE_PRESENTED m) (w % 65536)).modLink m fun l => { l with
    queue := l.fenced ++ l.queue, fenced := [] })

/-- Send FENCE with a word and the word it expects (R321, R502). -/
def fenceCmd (m word expected : Nat) (d : Dev) : Dev := mediaCmd m 0x0B 0 0 expected (leBytes 8 word ++ zeros 24) (.claim word) d

/-- The fence word a module was last known to hold. -/
def wordOf (d : Dev) (m : Nat) : Nat := tabGet 0 (d.link m).witness 0

/-- Send FENCE with a word, expecting what the module was last known to hold. -/
def fenceKnown (word m : Nat) (d : Dev) : Dev := fenceCmd m word (wordOf d m) d

/-- Read a witness register of a module. -/
def readWitness (i m : Nat) (d : Dev) : Dev := mediaCmd m 9 0 i 0 [] (.witness i) d

/-- The set of modules as a mask. -/
def maskOf (l : List Nat) : Nat := l.foldl (fun s m => s + 2 ^ m) 0

/-- A voter record read from witness 1: taken where it belongs to the joint word this head presents (R503). -/
def takeVoters (v : Nat) (d : Dev) : Dev :=
  if bitsAt v 32 16 = jointGen d.per.fenceWord ∧ d.per.fenceWord ≠ 0 then
    { d with per := { d.per with voters := v % 2 ^ 32 } }
  else d

/-! ## Writing a joint word (R500, R503) -/

/-- Start to write a joint word of a GEN: first the voter record to every module in service, then the word. -/
def startJoint (voters gen : Nat) (d : Dev) : Dev :=
  let ms := onModules d
  let g := gen % 65536
  forEach ms (fun m d => casWitness m 1 (voters + g * 2 ^ 32) d)
    { d with per := { d.per with joint := some ⟨g + 2 ^ 16 + 2 ^ 17, voters, ms, ms⟩ } }

/-- The modules of a joint write that are still to be waited for; a module that leaves service is not. -/
def jointLeft (d : Dev) (l : List Nat) : List Nat := l.filter d.modOn

/-- A joint word stands on every module: this head presents it, with its voters (R503). What follows belongs to the join (R510, R512). -/
def jointDone (j : JointWrite) (d : Dev) : Dev :=
  let d1 : Dev := { d with per := { d.per with
    joint := none, propose := none, voters := j.voters
    joinStep := if d.per.joinStep = 3 then 4 else if d.per.joinStep = 21 then 23 else d.per.joinStep } }
  takeWord j.word d1

/-- The joint write goes on: once every voter record stands, the word goes out; once every word stands, it is done. -/
def pumpJoint (d : Dev) : Dev :=
  match d.per.joint with
  | none => d
  | some j =>
    let rs := jointLeft d j.records
    let ws := jointLeft d j.words
    let d1 : Dev := { d with per := { d.per with joint := some { j with records := rs, words := ws } } }
    if !rs.isEmpty then d1 else if ws.isEmpty then jointDone { j with records := [], words := [] } d1 else d1

/-- A voter record stands on a module; with the last one the joint word goes out. -/
def recordWritten (m : Nat) (d : Dev) : Dev :=
  match d.per.joint with
  | none => d
  | some j =>
    if !j.records.contains m then d
    else
      let rs := jointLeft d (j.records.filter (· != m))
      let d1 : Dev := { d with per := { d.per with joint := some { j with records := rs } } }
      if rs.isEmpty then pumpJoint (forEach (jointLeft d1 j.words) (fenceKnown j.word) d1) else d1

/-- A joint word stands on a module. -/
def wordWritten (m : Nat) (d : Dev) : Dev :=
  match d.per.joint with
  | none => d
  | some j => pumpJoint { d with per := { d.per with joint := some { j with words := j.words.filter (· != m) } } }

/-- Head 0 proposes another set of voters when a module has failed or come into service (R503). -/
def pumpVoters (d : Dev) : Dev :=
  let want := maskOf ((List.range moduleCount).filter fun m =>
    (bitAt d.per.voters m || d.modOn m) && !d.getB (R.MED_M_STATE_FAILED m))
  if !d.peerUp || d.headNum != 0 || d.per.propose.isSome || d.per.joint.isSome || want == d.per.voters then d
  else
    let gen := (d.per.fenceWord + 1) % 65536
    sendPeer 0x0E 0 [want, gen, 0] [] { d with per := { d.per with propose := some (want, gen) } }

/-- VOTERS (R503): head 1 accepts a proposal; the acceptance lets head 0 write the record and the word. -/
def votersMsg (voters gen kind : Nat) (d : Dev) : Dev :=
  let v := voters % 2 ^ 32
  let g := gen % 65536
  if !d.peerUp then d
  else if !bitAt kind 0 then
    if d.headNum = 1 then sendPeer 0x0E 0 [v, g, 1] [] { d with per := { d.per with propose := some (v, g) } } else d
  else if d.headNum = 0 ∧ d.per.propose = some (v, g) ∧ d.per.joint.isNone then startJoint v g d
  else d

/-! ## Contests (R502) -/

/-- Modules of a voter set. -/
def votersOf (mask : Nat) : List Nat := (List.range moduleCount).filter (bitAt mask)

/-- Votes that some modules cast: the lowest voter casts two where the number of voters is even. -/
def votes (mask : Nat) (l : List Nat) : Nat :=
  let vs := votersOf mask
  let two := match vs.head? with
    | some m => vs.length % 2 == 0 && l.contains m
    | none => false
  (vs.filter l.contains).length + b2n two

/-- V, the number of votes. -/
def allVotes (mask : Nat) : Nat := votes mask (votersOf mask)

/-- A majority of a set is won. -/
def wonSet (c : Contest) (mask : Nat) : Bool := decide (0 < allVotes mask ∧ (allVotes mask + 1) / 2 ≤ votes mask c.won)

/-- A majority of a set can no longer be won. -/
def lostSet (c : Contest) (mask : Nat) : Bool := decide (allVotes mask < votes mask c.lost + (allVotes mask + 1) / 2)

/-- The voter sets a contest needs a majority of (R503). -/
def voterSets (d : Dev) : List Nat := d.per.voters :: (match d.per.propose with
  | some p => [p.1]
  | none => [])

/-- The claim word of this head over the word it presents (R502). -/
def claimWord (d : Dev) : Nat :=
  let h := d.headNum
  (d.per.fenceWord % 65536 + 1 + h) % 65536 + 2 ^ (16 + h) + 2 ^ 18 + h * 2 ^ 19 + d.getF R.PER_JSN_COVERED * 2 ^ 32

/-- Whole microseconds, as wide as a field of `PER_TO_US`. -/
def phaseUs (ns : Nat) : Nat := Nat.min (ns / 1000) 65535

/-- A contest begins (R499, R502, R506): mirror receive is closed, and the claim goes to every module in service. A head that presents no word has
none to build a claim from. -/
def startContest (d : Dev) : Dev :=
  let claims := liveBit d.per.fenceWord d.headNum
  let claim := if claims then claimWord d else 0
  let d1 : Dev := { d with per := { d.per with
    mirrorOpen := false, detectAt := d.now, joint := none, contest := some ⟨claim, [], [], [], [], 1, d.now⟩ } }
  let d2 := forEach (List.range moduleCount) syncPeerReads
    (((d1.setF R.PER_STATE_STATE 4).setF R.PER_TO_US_DETECT (phaseUs (d.now - d.per.lastTime))).stat R.PER_CONTESTS 1)
  if claims then forEach (onModules d2) (fenceKnown claim) d2 else d2

/-- HEARTBEAT_LOSS (R499, R516): 30 µs without a heartbeat on either sublink, three periods missed. -/
def heartbeatLoss (d : Dev) : Dev :=
  if d.peerUp && !d.fenced then startContest (((d.err R.E_PER_HB_MISSED).err R.E_PER_HB_MISSED).err R.E_PER_HB_MISSED) else d

/-- SELF_FENCE (R499): the peer says that it fences itself. -/
def peerSelfFence (d : Dev) : Dev := if d.peerUp && !d.fenced then startContest d else d

/-- PAIRING_TIMEOUT (R499, R512): no heartbeat for 2 s since step 9. -/
def pairingTimeout (d : Dev) : Dev :=
  if d.getF R.PER_STATE_STATE = 1 ∧ d.per.last.isNone ∧ !d.fenced then startContest d else d

/-- The contest is lost, or undecided for too long: this head fences itself (R499, R502). -/
def contestLost (d : Dev) : Dev :=
  selfFence 3 (({ d with per := { d.per with contest := none } } : Dev).err R.E_PER_CONTEST_LOST)

/-! ## The declaration (R505, R507) -/

/-- A migration in flight when the peer is lost (R435): before the switch point the instance stays with the head that served it. -/
def endMigration (d : Dev) : Dev :=
  match d.nvm.mig with
  | none => d
  | some m => if m.phase < 6 then abortMig false d else endMig m m.outbound d

/-- What this head sent the peer and what it held for it (R198, R242, R504, R507): forwarded commands end with Command Interrupted, reads are sent
again directly, releases and drops count as answered, leases and holds of the peer end. -/
def losePeerWork (d : Dev) : Dev :=
  let d1 := forEach ((d.nvm.cmds.filter fun c => c.aux == 1).map (·.h.id)) (fun id d => (finishN id stInterrupted 0 (dropLanding id d)).err R.E_CMQ_INTERRUPTED) d
  let reads := d1.per.reqs.filter fun r => r.mtype == 0x24
  let d2 : Dev := { d1 with
    per := { d1.per with reqs := [] }
    map := { d1.map with leases := d1.map.leases.filter fun l => !l.given }
    pan := { d1.pan with
      holds := d1.pan.holds.filter fun h => h.cmd != peerCmd
      drops := d1.pan.drops.map fun x => { x with peerOk := true } } }
  let d3 := forEach reads (fun r d =>
    let m := r.b / 128 % 32
    if d.linkUp m then readCrumbs m r.a (r.b % 128) r.work d
    else readGoesOn r.work (recordRead r.work psUnavailable [] d)) (syncPan (finishDrops d2))
  let d4 := forEach (d3.write.pages.filter fun e => e.2.state == 4 && e.2.releaseSent) (fun e d =>
    freePage e.1 (d.modStage e.1 fun s => { s with releaseSent := false })) d3
  let d5 : Dev := { d4 with write := { d4.write with ring := d4.write.ring.filter fun e => !e.2.relSent } }
  resumeStalled (syncWrite d5)

/-- Sweeps go on without the peer (R302): what it was to sweep is swept here, what it asked for is still done. -/
def takeSweeps (d : Dev) : Dev :=
  match d.med.sweep with
  | none => d
  | some s => if s.phase = 6 then modSweep (fun s => { s with phase := 2 }) d else d

/-- The contest is won: the peer is declared lost (R502, R505, R507). -/
def declareLost (c : Contest) (d : Dev) : Dev :=
  let h := peerNum d
  let d1 := takeWord c.claim { d with per := { d.per with contest := none, propose := none, phaseAt := d.now, joinStep := 0 } }
  let d2 := forEach c.lost (fenceKnown c.claim) d1
  let d3 := ((d2.setF R.PER_STATE_STATE 5).setF R.PER_LAST_TO_NS d.now).setF R.PER_TO_US_FENCE (phaseUs (d.now - d.per.detectAt))
  let d4 := enterSolo ((d3.setB R.PER_STATE_SECURED false).post 0x1401 [h, d.getF R.PER_JSN_COVERED])
  takeSweeps (losePeerWork (endMigration (stopApply d4)))

/-- A contest as it stands: won, lost, or going on (R502). -/
def decideContest (d : Dev) : Dev :=
  match d.per.contest with
  | none => d
  | some c =>
    if (voterSets d).all (wonSet c) then declareLost c d
    else if (voterSets d).any (lostSet c) then contestLost d
    else d

/-- CONTEST_ROUND_END (R502): decided, or another round for the modules that returned another word. -/
def contestRoundEnd (d : Dev) : Dev :=
  let d1 := decideContest d
  match d1.per.contest with
  | none => d1
  | some c =>
    let c1 := { c with again := [], answered := c.answered.filter fun m => !c.again.contains m, round := c.round + 1 }
    forEach c.again (fenceKnown c.claim) { d1 with per := { d1.per with contest := some c1 } }

/-- CONTEST_TIMEOUT (R502): undecided 410 µs after it began. -/
def contestTimeout (d : Dev) : Dev := if d.per.contest.isSome then contestLost d else d

/-- A module's answer in a contest (R502). -/
def contestVote (m : Nat) (c : Contest) (ok : Bool) (value : Nat) (d : Dev) : Dev :=
  let h := peerNum d
  let peers := bitAt value 18 && b2n (bitAt value 19) == h && value % 65536 == (d.per.fenceWord % 65536 + 1 + h) % 65536
  let won := ok || value == c.claim
  let c0 := { c with won := c.won.filter (· != m), lost := c.lost.filter (· != m), again := c.again.filter (· != m),
                     answered := c.answered.filter (· != m) ++ [m] }
  let c1 := if won then { c0 with won := c0.won ++ [m] } else if peers then { c0 with lost := c0.lost ++ [m] }
    else { c0 with again := c0.again ++ [m] }
  let d1 : Dev := { d with per := { d.per with contest := some c1 } }
  decideContest (if won then presentOn m c.claim d1 else d1)

/-! ## Answers of witness commands (R330, R501) -/

/-- What FENCE, or the read that follows an unknown outcome, shows of a module's fence word. -/
def fenceAnswer (m word : Nat) (ok : Bool) (value : Nat) (d : Dev) : Dev :=
  let d1 := noteWord m (if ok then word else value) d
  let stands := ok || value == word
  match d1.per.contest with
  | some c => if c.claim = word then contestVote m c ok value d1 else d1
  | none =>
    match d1.per.joint with
    | some j =>
      if j.word ≠ word then d1
      else if stands then wordWritten m (presentOn m word d1) else fenceCmd m word value d1
    | none =>
      if d1.per.fenceWord ≠ word then d1
      else if stands then presentOn m word d1 else fenceCmd m word value d1

/-- Witness 0 of a module has been read (R501, R502, R510): this head presents a word that lets it, claims the module where it holds the array
alone, and fences itself where a module that refused it is held by the peer. A returning head reads again until the joint word stands. -/
def fenceWordRead (m w : Nat) (d : Dev) : Dev :=
  let d1 := noteWord m w d
  let newer := d1.per.fenceWord == 0 || newerW 16 (w % 65536) (d1.per.fenceWord % 65536)
  if d1.per.contest.isSome || d1.per.joint.any fun j => j.words.contains m then d1
  else if liveBit w d1.headNum then
    if holdsClaim d1 && w != d1.per.fenceWord && !newer then fenceCmd m d1.per.fenceWord w d1
    else if newer then
      let d2 := readWitness 1 m (takeWord w d1)
      let joint := !bitAt w 18 && liveBit w (peerNum d2) && d2.getF R.PER_STATE_STATE == 2
      let step := if joint && d2.per.joinStep == 12 then 13 else if joint && d2.per.joinStep == 22 then 24 else d2.per.joinStep
      presentOn m w { d2 with per := { d2.per with joinStep := step } }
    else presentOn m w d1
  else if d1.per.joinStep = 12 then readWitness 0 m d1
  else if !(d1.link m).fenced.isEmpty then selfFence 3 d1
  else if newer && w != 0 then takeWord w d1
  else d1

/-- A witness other than 0 has been read, or its WITNESS_CAS answered: what this head wants there is written until it stands. -/
def witnessShows (m i v : Nat) (d : Dev) : Dev :=
  let d1 := d.modLink m fun l => { l with witness := tabPut l.witness i v }
  let d2 := if i = 1 then takeVoters v d1 else d1
  match d2.per.wanted.find? fun w => w.1 == m && w.2.1 == i with
  | none => d2
  | some w =>
    let out := ((d2.link m).tags ++ (d2.link m).queue).any fun c => c.opcode == 0x0A && c.arg0 == i
    if w.2.2 = v then
      let d3 : Dev := { d2 with per := { d2.per with wanted := d2.per.wanted.filter (· != w) } }
      if i = 1 then recordWritten m d3 else d3
    else if out then d2 else casWitness m i w.2.2 d2

/-- WITNESS_READ_RESPONSE (R330, R336, R337, R501). -/
def witnessReadResponse (m : Nat) (r : MedResp) (d : Dev) : Dev :=
  onResponse m [9] r (fun c d =>
    if r.status ≠ 0 then d
    else match c.work with
      | .ksCas _ _ => storeCasDone m false r.arg1 d
      | .claim word => fenceAnswer m word false r.arg1 d
      | .witness i => if i = 0 then fenceWordRead m r.arg1 d else witnessShows m i r.arg1 d
      | _ => d) d

/-- WITNESS_CAS_RESPONSE (R330). -/
def witnessCasResponse (m : Nat) (r : MedResp) (d : Dev) : Dev :=
  onResponse m [0x0A] r (fun c d => match c.work with
    | .ksCas _ _ => storeCasDone m (r.status == 0) r.arg1 d
    | .witness i => witnessShows m i (if r.status = 0 then fieldAt c.payload 0 8 else r.arg1) d
    | _ => d) d

/-- FENCE_RESPONSE (R330, R502). -/
def fenceResponse (m : Nat) (r : MedResp) (d : Dev) : Dev :=
  onResponse m [0x0B] r (fun c d => match c.work with
    | .claim word => fenceAnswer m word (r.status == 0) r.arg1 d
    | _ => d) d

/-! ## Adoption (R506, R512) -/

/-- Show the overlay's level (R516): adopted records not yet applied. -/
def syncOverlay (d : Dev) : Dev :=
  let js := dedup ((d.map.deferred.filter (·.peer)).map (·.jsn))
  d.setIf R.PER_OVERLAY_RECORDS (if d.per.adopted then Nat.min js.length (2 ^ 21 - 1) else 0)

/-- Groups that the mirror of the failed head's journal holds, from its last anchor's REDO up to COVERED (R506). -/
def coveredGroups (d : Dev) : List (List RecAt) :=
  let redo := (d.per.anchor.map fun b => fieldAt b 12 4).getD 1
  let top := d.getF R.PER_JSN_COVERED
  if jsnLt top redo then [] else wholeGroups (placeInMirror d) ((top + 2 ^ 32 - redo) % 2 ^ 32 + 1) redo 0

/-- A group of the overlay: its records wait for the pages that this head has come to own, in JSN order (R506). -/
def overlayGroup (owned : Nat → Bool) (g : List RecAt) (d : Dev) : Dev :=
  let ms := g.flatMap fun r => ((recKeys r.rec').filter fun k => ownsPage d k && !owned k).map fun k =>
    (⟨r.jsn, k, r.rec', r.time, true⟩ : Mutation)
  let d1 := forEach g (fun x d => applyBlockRec x.jsn x.time x.rec' d) d
  { d1 with map := { d1.map with deferred := d1.map.deferred ++ ms } }

/-- Instances that the failed head served. -/
def peerServed (d : Dev) : List Nat := (List.range 1024).filter fun i => d.hasInst i && !d.serves i

/-- Root pages of a head's block table in a media anchor, to be read in (R271, R272). -/
def tableRoots (d : Dev) (h : Nat) (b : Bytes) : List (Nat × Nat × PagePtr) :=
  (List.range moduleCount).filterMap fun m =>
    let p := ptrOf (slice b (32 + 32 * m) 32)
    if p = ptrNull ∨ !(d.module m).known then none else some (h, btKey m (btRoot (d.module m)) 0, p)

/-- Take the failed head's trees, instances and groups (R241, R506): the trees as its anchors root them, its share of the block tables, the groups as
the overlay. -/
def adoptFrom (anchors : Bytes) (groups : List (List RecAt)) (d : Dev) : Dev :=
  let h := peerNum d
  let owned := ownsPage d
  let is := peerServed d
  let nsgs := (is.flatMap fun i => instNamespaces d i).map (·.nsg)
  let tables := tableRoots d h (slice anchors 4096 4096)
  let d1 := rootTrees h (slice anchors 0 4096) { d with
    per := { d.per with adopted := true, adoptedNs := nsgs, anchor := some anchors, proxySeq := fieldAt anchors 8 4, tables := d.per.tables ++ tables }
    med := { d.med with btPtrs := tables.foldl (fun t e => tabPut t (btFor d h + e.2.1) e.2.2) d.med.btPtrs } }
  let d2 := forEach is (fun i d => ((raiseInstGen i d).setF (R.INS_I_STATE_SERVER i) d.headNum).setF (R.INS_I_STATE_STATE i) 3) d1
  let d3 : Dev := { d2 with map := { d2.map with handIn := [], asked := [], answered := [], handLines := [], handed := [] } }
  let d4 := forEach d2.map.handLines (fun l d => if l.dirty then match fillPage l.key l.data true l.epoch l.jsn true d with
      | some x => dirtyLine l.key l.jsn x
      | none => d
    else d) d3
  let d5 := forEach groups (overlayGroup owned) d4
  learnJournal (groups.flatten.map fun r => (r.jsn, r.rec')) (syncOverlay (applyDeferred (resumeStalled d5)))

/-- Staging pages of the absent head on media (R309, R512): of its own area where that is valid, and of its batches. -/
def peerStages (d : Dev) : Tab MirrorPage :=
  let h := peerNum d
  let cs := (newestArea h d.per.found).map (·.2)
  let fromArea := match cs with
    | [] => ([] : Tab MirrorPage)
    | a :: _ => (List.range (fieldAt a 24 4)).filterMap fun i =>
        (fromCopies cs fun b =>
          let e := slice b (4096 * fieldAt b 44 4 + 32 * i) 32
          if descOk e then some (e, slice b (4096 * fieldAt b 60 4 + 16384 * i) 16384) else none).map fun x =>
            (fieldAt x.1 0 4, mirrorOf x.1 x.2)
  (batchPages h d.per.found).foldl (fun t e =>
    if (tabFind t e.1).isSome then t else tabPut t e.1 (mirrorOf e.2.2.1 e.2.2.2)) fromArea

/-- Adopt the absent head from media (R512): its newest anchor, its area or the peer section of this head's own, its batches, its journal. -/
def adoptMedia (d : Dev) : Dev :=
  let h := peerNum d
  let a := (newestBy 8 (foundMaps h d.per.found)).getD (zeros 4096)
  let e := (newestBy 8 (foundMedia h d.per.found)).getD (zeros 4096)
  let recs := foundRecs h d.per.found
  let redo := fieldAt a 12 4
  let d1 := loadBlocks h d.per.found { d with per := { d.per with
    mirror := (peerStages d).foldl (fun t x => tabPut t x.1 x.2) d.per.mirror } }
  let d2 := d1.setF R.PER_JSN_COVERED (highestJsn redo recs)
  adoptFrom (a ++ e) (groupsFrom redo recs) { d2 with per := { d2.per with found := [] } }

/-- ADOPT_END (R506): the overlay, ownership, staging and instances of the failed head. -/
def adoptEnd (d : Dev) : Dev :=
  if d.getF R.PER_STATE_STATE ≠ 5 ∨ d.per.adopted then d
  else
    let d1 := if d.per.found.isEmpty then adoptFrom (d.per.anchor.getD (zeros 8192)) (coveredGroups d) d else adoptMedia d
    { d1.setF R.PER_TO_US_ADOPT (phaseUs (d.now - d.per.phaseAt)) with per := { d1.per with phaseAt := d.now } }

/-- A page of a block table that has been read: a leaf's entries where the block's state is not known yet, with the read-disturb start value; a
directory's pages come next (R271, R272, R292). -/
def tablePage (h key : Nat) (data : PageData) (d : Dev) : Dev :=
  let m := key / 2 ^ 40
  let level := key / 2 ^ 32 % 256
  let page := key % 2 ^ 32
  if level = 0 then
    let b := pageBytes data
    let x := d.module m
    let half := Nat.max 1 (groupsOf x / 2)
    forEach (List.range 64) (fun k d =>
      let o := 64 * page + k
      let blk := blkKey m (o / half * 2 ^ groupBits x + 2 * (o % half) + h)
      let was := d.eblock blk
      let e := blockOfEntry (slice b (64 * k) 64) blockFresh
      if (tabFind d.med.blocks blk).isSome then
        d.modBlock blk fun y => { y with fill := e.fill, valid := e.valid, domains := e.domains, sumA := if was.sumA = 0 then e.sumA else was.sumA }
      else if e = blockFresh then d
      else d.modBlock blk fun _ => { e with disturb := x.readLimit / 4 }) d
  else
    let kids := (List.range 128).filterMap fun k =>
      let p := ptrAt data k
      if p = ptrNull then none else some (h, btKey m (level - 1) (128 * page + k), p)
    let put := fun (t : Tab PagePtr) (e : Nat × Nat × PagePtr) => tabPut t (btFor d h + e.2.1) e.2.2
    { d with per := { d.per with tables := d.per.tables ++ kids }, med := { d.med with btPtrs := kids.foldl put d.med.btPtrs } }

/-- Block-table pages that are to be read in, once this head may read media (R501). -/
def pumpTables (d : Dev) : Dev :=
  if !liveBit d.per.fenceWord d.headNum then d
  else forEach d.per.tables (fun t d =>
    match fetchPtr t.2.2 d with
    | (none, d1) => d1
    | (some r, d1) =>
      let d2 : Dev := { d1 with per := { d1.per with tables := d1.per.tables.filter (· != t) } }
      match r with
      | some data => tablePage t.1 t.2.1 data d2
      | none => d2) d

/-! ## Publish and securing (R508, R509) -/

/-- Records of the overlay with the pages they need, as batches of at most 192 records and 96 images that carry the failed head's number. -/
def secureBatches (d : Dev) : List SoloBatch × Dev :=
  let h := peerNum d
  let recs := (coveredGroups d).flatten
  let pages := (d.per.mirror.filter fun e => decide (1 ≤ fieldAt e.2.desc 4 1 ∧ fieldAt e.2.desc 4 1 ≤ 3)).map fun e =>
    (slice e.2.desc 0 32, slice (tabCrumbs e.2.crumbs 0 64) 0 16384)
  let n := Nat.max ((recs.length + 191) / 192) ((pages.length + 95) / 96)
  (List.range n).foldl (fun (s : List SoloBatch × Dev) i =>
    let rs := (recs.drop (192 * i)).take 192
    let ps := (pages.drop (96 * i)).take 96
    let seq := (s.2.med.batchSeq + 1) % 2 ^ 32
    let first := (rs.head?.map (·.jsn)).getD 0
    let last := (rs.getLast?.map (·.jsn)).getD 0
    let body := batchBody s.2 h seq first last (rs.map (·.bytes)) ps
    (s.1 ++ [⟨h, seq, first, last, body, (0, 0), 0, true⟩], { s.2 with med := { s.2.med with batchSeq := seq } })) (([] : List SoloBatch), d)

/-- The adopted staging pages go to their bound flash pages, unassigned crumbs zero (R142, R509). -/
def programAdopted (d : Dev) : Dev :=
  forEach (d.per.mirror.filter fun e => decide (1 ≤ fieldAt e.2.desc 4 1 ∧ fieldAt e.2.desc 4 1 ≤ 3)) (fun e d =>
    mediaCmd (fieldAt e.2.desc 6 1) 3 0 (fieldAt e.2.desc 8 8) 0 (slice (tabCrumbs e.2.crumbs 0 64) 0 16384) (.adopted e.1) d) d

/-- PUBLISH_END (R405, R506, R508): this head serves every instance, the held commands are admitted, and securing begins. -/
def publishEnd (d : Dev) : Dev :=
  if d.getF R.PER_STATE_STATE ≠ 5 ∨ !d.per.adopted then d
  else
    let is := (List.range 1024).filter fun i => d.hasInst i && d.serves i && d.getF (R.INS_I_STATE_STATE i) == 3
    let d1 := ((d.setF R.PER_STATE_STATE 6).setF R.PER_TO_US_PUBLISH (phaseUs (d.now - d.per.phaseAt))).stat R.PER_TAKEOVERS 1
    let d2 := forEach is (fun i d => thawInst i (anaChange i (showServer i d.headNum d))) d1
    let b := secureBatches d2
    programAdopted (pumpSolo { b.2 with write := { b.2.write with batches := b.2.write.batches ++ b.1 } })

/-- SECURED (R509): the overlay's batches are durable. -/
def secured (d : Dev) : Dev :=
  if d.getF R.PER_STATE_STATE = 6 ∧ d.per.adopted ∧ d.write.batches.all (fun b => b.head == d.headNum) then
    d.setB R.PER_STATE_SECURED true
  else d

/-- Erase blocks of the failed head whose adopted pages are all programmed are sealed; its victims are good again (R291, R509). -/
def pumpAdopted (d : Dev) : Dev :=
  if !d.per.adopted || !d.getB R.PER_STATE_SECURED then d
  else
    let foreign := fun (k : Nat) => groupOf (d.module (blkModule k)) (blkEbn k) % 2 != d.headNum
    let busy := fun (k : Nat) => d.per.mirror.any fun e => d.blkOf (fieldAt e.2.desc 6 1) (fieldAt e.2.desc 8 8) == k
    let bs := d.med.blocks.filter fun e => foreign e.1 && (e.2.state == 4 || (e.2.state == 1 && !busy e.1))
    forEach bs (fun e d => if e.2.state = 1 then sealBlock e.1 (d.modBlock e.1 fun b => { b with bare := true })
      else journalBlock e.1 (d.modBlock e.1 fun b => { b with state := 3 })) d

end Sys2Proof.Machine
end

