-- ==== Sys2Proof/Machine/ReturnOps.lean ====
section
/-! DEFINITION. How two heads come together: the joint join of R512, the return of a failed head (R510), the reclaim of its instances (R511). The
step of a join: 1 the survivor secures and writes back, 2 its proxy anchor is cut, 3 the joint word is being written, 4 it stands, 6 the
returned head's mirror is being filled, 7 it is filled; 11 a returning head has sent JOIN, 12 it has the hand-back and waits for the joint
word, 13 it has read it; 21 head 0 writes the joint word of R512, 22 head 1 waits for it, 23 and 24 it stands. -/

namespace Sys2Proof.Machine

/-! ## Paired -/

/-- The heads are paired (R154, R499): later groups follow the paired rule, this head's controllers forward to the peer (R405), the voter set and
the mirror are those of the pair. -/
def setPaired (returning : Bool) (d : Dev) : Dev :=
  let d0 := if returning then eraseArea d else d
  let d1 : Dev := { d0 with med := { d0.med with pla := { d0.med.pla with mods := [] } }, per := { d0.per with joinStep := 0, mirrorOpen := true, found := [], adopted := false, adoptedNs := [] } }
  let d2 := leaveSolo ((d1.setF R.PER_STATE_STATE 3).setB R.PER_STATE_SECURED false)
  let d3 := forEach ((List.range 1024).filter fun i => d2.hasInst i && !d2.serves i) anaChange d2
  let d4 := forEach (List.range moduleCount) syncPeerReads d3
  if returning then
    ({ d4 with per := { d4.per with holdoff := true } } : Dev).setF R.PER_HOLDOFF_REMAINING_S (d4.getF R.HTH_PARAM0_STABLE_S)
  else d4

/-- The newest JSN this head has recovered (R497). -/
def lastJsnUsed (d : Dev) : Nat := (d.nextJsn + 2 ^ 32 - 1) % 2 ^ 32

/-- The start has come to step 10, or is over: the heads may join (R551). -/
def joinDue (d : Dev) : Bool :=
  let st := d.getF R.HTH_STATE_STATE
  st == stServing || (st == stStarting && decide (d.getF R.HTH_STATE_STEP ≥ 10))

/-- Nothing in this head's mirror belongs to a peer that starts anew. -/
def freshMirror (d : Dev) : Dev :=
  { d with
    per := { d.per with mirror := [], journal := [], releasing := [], anchor := none }
    read := { d.read with mirrorHolds := [] } }

/-- A join begins once pairing has succeeded (R510, R512): a returning head sends JOIN, a survivor waits for it, and two heads that start together
have head 0 write a new joint word. -/
def startJoin (d : Dev) : Dev :=
  let w := d.per.fenceWord
  if d.getF R.PER_STATE_STATE ≠ 2 ∨ d.per.joinStep ≠ 0 ∨ !joinDue d then d
  else if bitAt w 18 then
    if liveBit w d.headNum then d
    else sendPeer 0x08 0 [w, lastJsnUsed d] [] { d with per := { d.per with joinStep := 11 } }
  else if d.hth.restore ≠ 0 then d
  else
    let d1 := freshMirror d
    if d1.headNum = 0 then startJoint (maskOf (onModules d1)) (w + 1) { d1 with per := { d1.per with joinStep := 21 } }
    else { d1 with per := { d1.per with joinStep := 22 } }

/-! ## The survivor's part (R510) -/

/-- JOIN (R510): the hand-back starts. A survivor that has started anew adopts from media first (R512). -/
def joinMsg (_word _jsn : Nat) (d : Dev) : Dev :=
  if d.getF R.PER_STATE_STATE ≠ 2 ∨ !holdsClaim d ∨ d.per.joinStep ≠ 0 then d
  else
    let d1 := if d.per.adopted then d else
      let is := peerServed d
      forEach is (fun i d => thawInst i (anaChange i (showServer i d.headNum d))) (adoptMedia d)
    { d1 with per := { d1.per with joinStep := 1 } }

/-- A tree of the other head's own (R241). -/
def peerTree (d : Dev) (t : Nat) : Bool :=
  let h := peerNum d
  t == contentTree h || t == indexTree h || t == rootTree h

/-- Roots of the adopted logical maps move from the returning head's namespace-root tree into this head's own (R241, R510). -/
def moveRoots (d : Dev) : Dev :=
  forEach d.per.adoptedNs (fun t d =>
    match ensurePage mapFuel .apply (mkKey (nsTree d t) 0 (t / 128)) d with
    | (.ready, d1) =>
      let p := match d1.line (mkKey (nsTree d1 t) 0 (t / 128)) with
        | some l => ptrAt l.data (t % 128)
        | none => ptrNull
      let d2 : Dev := { d1 with per := { d1.per with adoptedNs := d1.per.adoptedNs.filter (· != t) } }
      { d2 with map := { d2.map with roots := tabPut d2.map.roots (t * 8 + rootLevel d2 t) p } }
    | (.unavailable, d1) => { d1 with per := { d1.per with adoptedNs := d1.per.adoptedNs.filter (· != t) } }
    | (.wait, d1) => d1) d

/-- The returning head's trees are wholly on flash below their directories (R510 step 2): overlay applied, no dirty leaf, no write-back. -/
def peerTreesClean (d : Dev) : Bool :=
  !tablesLeft d (peerNum d) && d.per.adoptedNs.isEmpty && !(d.map.deferred.any (·.peer)) &&
    !(d.map.lines.any fun l => l.2.dirty && peerTree d (keyTree l.2.key) && keyLevel l.2.key == 0) &&
    !(d.map.evb.any fun e => peerTree d (keyTree e.2.key))

/-- Dirty leaves of the returning head's trees go to flash. -/
def cleanPeerTrees (d : Dev) : Dev :=
  let d1 := moveRoots d
  forEach (d1.map.lines.filter fun l => l.2.dirty && peerTree d1 (keyTree l.2.key) && keyLevel l.2.key == 0) (fun l d =>
    (copyOut l.2.key d).getD d) d1

/-- Give the returning head's share back (R510 step 4): its trees, stripe groups and mirrored state are no longer held here. -/
def giveBack (d : Dev) : Dev :=
  let keep := fun (k : Nat) => !peerTree d (keyTree k)
  let own := fun (e : Nat × EBlock) => groupOf (d.module (blkModule e.1)) (blkEbn e.1) % 2 == d.headNum
  let d1 := freshMirror d
  syncOverlay { d1 with
    per := { d1.per with adopted := false, adoptedNs := [], tables := d1.per.tables.filter fun t => t.1 == d.headNum }
    map := { d1.map with
      lines := d1.map.lines.filter fun l => keep l.2.key
      fifo := d1.map.fifo.filter fun e => keep e.1
      evb := d1.map.evb.filter fun e => keep e.2.key
      pageIns := d1.map.pageIns.filter fun p => keep p.key
      deferred := d1.map.deferred.filter fun m => keep m.key
      peerFirst := d1.map.peerFirst.filter fun e => keep e.1
      roots := d1.map.roots.filter fun e => !peerTree d (e.1 / 8) }
    med := { d1.med with
      blocks := d1.med.blocks.filter own
      btPtrs := d1.med.btPtrs.filter fun e => decide (e.1 < 2 ^ 48), btDirty := d1.med.btDirty.filter (· < 2 ^ 48) } }

/-- Write journal records of the ring into the returned head's mirror (R498, R510 step 6). -/
def fillRecords (above : Option Nat) (d : Dev) : Dev :=
  forEach (d.write.ring.filter fun e => match above with
    | some j => jsnLt j e.1
    | none => true) (fun e d => mirrorWrite 2 (64 * (e.1 % 1048576)) e.2.bytes d) d

/-- Fill the returned head's mirror (R510 step 6): unreleased staging pages, their descriptors, journal records, then a mirror FLUSH. -/
def fillMirror (d : Dev) : Dev :=
  let d1 := forEach (d.write.pages.filter fun e => e.2.state != 0) (fun e d =>
    mirrorWrite 0 (16384 * e.1) (stageBytes e.2) (mirrorDesc e.1 d)) { d with per := { d.per with joinStep := 6 } }
  let d2 := fillRecords none d1
  postMsg (peerQp 2) .flush (.mirrorFlush d2.durableJsn) [] 0 0 d2.durableJsn { d2 with per := { d2.per with filled := d2.durableJsn } }

/-- RESYNC_DONE goes out, and the heads are paired (R510 step 7, R512; log entry 26). -/
def sendResyncDone (d : Dev) : Dev := setPaired false (sendPeer 0x0A 0 [d.nextJsn, d.per.fenceWord] [] d)

/-- The steps of a join that wait for this head's own work (R510, R512). -/
def pumpJoin (d : Dev) : Dev :=
  if d.getF R.PER_STATE_STATE ≠ 2 then d
  else match d.per.joinStep with
    | 0 => startJoin d
    | 1 =>
      let d1 := cleanPeerTrees (if d.write.batches.all (fun b => b.head == d.headNum) then d.setB R.PER_STATE_SECURED true else d)
      if d1.getB R.PER_STATE_SECURED && peerTreesClean d1 && d1.map.cut.isNone then
        cutAnchor { d1 with per := { d1.per with joinStep := 2 } }
      else d1
    | 2 =>
      if d.map.cut.isSome || !d.per.wanted.isEmpty then d
      else
        let d1 := sendPeer 0x09 0 [d.per.proxySeq] (d.per.anchor.getD []) { d with per := { d.per with joinStep := 3 } }
        startJoint (maskOf (onModules d1)) (d1.per.fenceWord + 1) d1
    | 4 =>
      let d1 := giveBack d
      fillMirror (forEach ((List.range 1024).filter (d1.hasInst ·)) (fun i d => sendPeer 0x3A 0 [i, 0] (instRecords d i) d) d1)
    | 7 => sendResyncDone (fillRecords (some d.per.filled) d)
    | 23 => sendResyncDone d
    | 24 => setPaired false d
    | _ => d

/-! ## The returning head's part (R510) -/

/-- Forget what this head rebuilt by itself: the survivor has its share (R510). -/
def dropShare (d : Dev) : Dev :=
  { d with
    map := { d.map with
      lines := [], plru := [], evb := [], fifo := [], repoints := [], pageIns := [], roots := [], cut := none, stalled := [], rebuild := []
      deferred := [], leases := [], remote := [], holds := [], peerFirst := [], replaced := [], handLines := [], handed := [], handIn := []
      asked := [], answered := [], wbDue := [] }
    write := { d.write with ring := [], pages := [], groups := [], batches := [] }
    med := { d.med with blocks := [], btPtrs := [], btDirty := [], refresh := [], dead := [], superseded := [] }
    pan := { d.pan with buckets := [], appends := [], learned := [], drops := [], unindex := [], warmAt := 0 } }

/-- HANDBACK (R509, R510 step 4): the proxy anchors. The trees and block tables are rebuilt from them, the Pantry starts empty and learns (R205,
R206), and the joint word is looked for on every link. -/
def handback (seq : Nat) (b : Bytes) (d : Dev) : Dev :=
  let ma := slice b 0 4096
  if d.per.joinStep ≠ 11 ∨ b.length ≠ 8192 ∨ !mapAnchorOk d.headNum ma ∨ !mediaAnchorOk d.headNum (slice b 4096 4096) then d
  else
    let next := fieldAt ma 16 4
    let j := if jsnLt d.nextJsn next then next else d.nextJsn
    let d1 := rootTrees d.headNum ma (freshMirror (dropShare d))
    let d2 := (((d1.setF R.CMQ_JSN_NEXT j).setF R.CMQ_JSN_DURABLE ((j + 2 ^ 32 - 1) % 2 ^ 32)).setF R.MAP_ANCHOR_SEQ (seq % 2 ^ 32)).setF
      R.MAP_ANCHOR_REDO_JSN (fieldAt ma 12 4)
    let d3 := (d2.setF R.PER_JSN_COVERED ((fieldAt ma 20 4 + 2 ^ 32 - 1) % 2 ^ 32)).setF R.PAN_STATE_STATE 1
    let d4 : Dev := { d3 with
      map := { d3.map with anchorSeq := seq % 2 ^ 32 }
      per := { d3.per with joinStep := 12, tables := tableRoots d3 d3.headNum (slice b 4096 4096) } }
    let d5 := forEach (tableRoots d4 d4.headNum (slice b 4096 4096)) (fun t d =>
      { d with med := { d.med with btPtrs := tabPut d.med.btPtrs t.2.1 t.2.2 } }) d4
    forEach (onModules d5) (readWitness 0) d5

/-- RESYNC_DONE (R499, R510 step 7, R512): the joint word is presented on every link, and the heads are paired from the named JSN on. -/
def resyncDone (first word : Nat) (d : Dev) : Dev :=
  if d.getF R.PER_STATE_STATE ≠ 2 ∨ !liveBit word d.headNum then d
  else
    let returning := decide (11 ≤ d.per.joinStep ∧ d.per.joinStep ≤ 13)
    let d1 := if returning then d else d.setF R.PER_JSN_COVERED ((first + 2 ^ 32 - 1) % 2 ^ 32)
    let d2 := takeWord word d1
    setPaired returning (forEach (onModules d2) (fun m d => readWitness 1 m (presentOn m word d)) d2)

/-! ## Reclaiming (R511) -/

/-- Home instances that the peer serves, in ascending number. -/
def toReclaim (d : Dev) : List Nat :=
  (List.range 1024).filter fun i => d.hasInst i && d.getF (R.INS_I_STATE_HOME i) == d.headNum && !d.serves i

/-- Show what is still to be reclaimed (R516). -/
def syncReclaim (d : Dev) : Dev := d.setIf R.PER_HOLDOFF_TO_RECLAIM (Nat.min d.per.reclaim.length 2047)

/-- RETURN_HOLDOFF_EXPIRY (R511): paired without interruption for the hold-off, this head reclaims its home instances, one at a time. -/
def returnHoldoffExpiry (d : Dev) : Dev :=
  if !d.peerUp || !d.per.holdoff then d
  else syncReclaim (({ d with per := { d.per with holdoff := false, reclaim := toReclaim d } } : Dev).setF R.PER_HOLDOFF_REMAINING_S 0)

/-- A contest or a loss of pairing restarts the hold-off (R511). -/
def syncHoldoff (d : Dev) : Dev :=
  if d.per.reclaim.isEmpty || d.peerUp then syncReclaim d
  else syncReclaim { d with per := { d.per with reclaim := [], holdoff := true } }

end Sys2Proof.Machine
end

