-- ==== Sys2Proof/Machine/DmaOps.lean ====
section
/-! DEFINITION. Completions of the head's own reads of host memory (R517, R533, R535). -/

namespace Sys2Proof.Machine

/-- A read's data, or its end without data, goes to the work that needed it (R533). -/
def dmaData (w : DmaWork) (len : Nat) (b : Option Bytes) (d : Dev) : Dev :=
  match w with
  | .imagePush => match b with
    | some x => imageFetchDone x d
    | none => (refuseImg 0x16 d).err R.E_IMG_REJECTS
  | .sqFetch s q => sqData s q b d
  | .sliceData cmd off => match b with
    | some x => landBytes cmd off (if x.length = len then 0 else stTransfer) x d
    | none => landBytes cmd off stTransfer [] d
  | .sliceSgl s q e => sglData s q e b d
  | .downRing => downEntry b d
  | .cipher n => cipherData n b d
  | .cert => certData b d

/-- A freed tag takes the first read that waits for one (R517). -/
def nextRead (d : Dev) : Dev :=
  match d.hep.waiting with
  | [] => d
  | (w, a, l, p) :: rest => ({ d with hep := { d.hep with waiting := rest } } : Dev).hostRead w a l p

/-- Take a read off its tag. -/
def freeTag (tag : Nat) (d : Dev) : Dev :=
  nextRead { d with hep := { d.hep with reads := d.hep.reads.filter fun r => r.tag != tag } }

/-- DMA_READ_COMPLETION (R532, R533, R535): status 0 with data, 1 UR or CA or a failed translation, 2 poisoned; a tag that is not outstanding is an
Unexpected Completion, a read from before a clear of Bus Master Enable is discarded. -/
def dmaReadCompletion (tag status : Nat) (hdr b : Bytes) (d : Dev) : Dev :=
  match d.hep.reads.find? fun r => r.tag == tag with
  | none => aerReport .unexpectedCompletion hdr d
  | some r =>
    let d1 := freeTag tag (if status = 2 then aerReport .poisonedTlp hdr d else d)
    let good := status == 0 && b.length == r.len
    let d2 := if status = 0 then d1.stat R.HEP_DMA_RD_BYTES b.length else d1
    if r.discard then d2.stat R.HEP_DISCARDED_CPL 1
    else dmaData r.work r.len (if good then some b else none) d2

/-- COMPLETION_TIMEOUT (R532, R533). -/
def completionTimeout (tag : Nat) (d : Dev) : Dev :=
  match d.hep.reads.find? fun r => r.tag == tag with
  | none => d
  | some r =>
    let d1 := freeTag tag (aerReport .completionTimeout [] (d.err R.E_HEP_CPL_TIMEOUT))
    if r.discard then d1 else dmaData r.work r.len none d1

end Sys2Proof.Machine
end

