-- ==== Sys2Proof/Machine/Recorder.lean ====
section
/-! DEFINITION. The event recorder, SMBus access and the JTAG port (R563 to R578, R592, R593). -/

namespace Sys2Proof.Machine

/-- The 64 bytes of an event record with its CRC field zero (R563). -/
def evRecBody (r : EvRec) (crc : Nat) : Bytes :=
  leBytes 4 r.seq ++ leBytes 2 r.ev.code ++
    leBytes 1 ((evMeta r.ev.code).1 + 8 * (evMeta r.ev.code).2) ++
    leBytes 1 (b2n r.repeatSat + 2 * b2n r.deltaSat) ++ leBytes 8 r.ev.time ++
    leBytes 8 (r.delta + r.repeats * 2 ^ 48) ++ leBytes 4 r.ev.src ++ leBytes 4 crc ++
    leBytes 8 r.ev.p0 ++ leBytes 8 r.ev.p1 ++ leBytes 8 r.ev.p2 ++ leBytes 8 r.ev.p3

/-- The 64 bytes of an event record (R563). -/
def evRecBytes (r : EvRec) : Bytes := evRecBody r (crcNat (evRecBody r 0))

/-- Slots of the ring (R564). -/
def evtSlots : Nat := 4096

/-- The bytes of a ring slot; an empty slot is all zero (R571: SEQ 0 marks an empty slot). -/
def evtSlotBytes (d : Dev) (slot : Nat) : Bytes :=
  match tabFind d.evt.ring slot with
  | some r => evRecBytes r
  | none => zeros 64

/-- The sequence number after `s`, skipping 0 when it wraps (R564, R571). -/
def nextRingSeq (s : Nat) : Nat := if (s + 1) % 2 ^ 32 = 0 then 1 else (s + 1) % 2 ^ 32

/-- The sequence number of the oldest record held once `s` is the newest (R564). -/
def oldestAfter (d : Dev) (s : Nat) : Nat :=
  let slot := s % evtSlots
  let old := d.rd R.EVT_OLDEST
  if old = 0 then s
  else match tabFind d.evt.ring slot with
    | some r => if r.seq = old then nextRingSeq old else old
    | none => old

/-- An event repeats the newest record: same code, source and parameters (R568). -/
def sameEvent (a b : Ev) : Bool :=
  a.code == b.code && a.src == b.src && a.p0 == b.p0 && a.p1 == b.p1 && a.p2 == b.p2 && a.p3 == b.p3

/-- Merge a repeat into a record (R568). -/
def mergeRepeat (r : EvRec) (e : Ev) : EvRec :=
  let gap := e.time - r.ev.time
  { r with repeats := Nat.min (r.repeats + 1) 0xFFFF,
           repeatSat := r.repeatSat || decide (r.repeats + 1 ≥ 0xFFFF),
           delta := Nat.min (Nat.max r.delta gap) 0xFFFFFFFFFFFF,
           deltaSat := r.deltaSat || decide (gap > 0xFFFFFFFFFFFF) }

/-- Take one event out of the queue and, now that there is room, queue event 0301h for events dropped before (R566). -/
def popEvent (d : Dev) : Option (Ev × Dev) :=
  match d.evt.queue with
  | [] => none
  | e :: rest =>
    let d1 := { d with evt := { d.evt with queue := rest } }
    let d2 := if d.evt.dropped = 0 then d1 else
      { d1 with evt := { d1.evt with
          dropped := 0
          queue := rest ++ [⟨0x0301, d.now, ownPage 3, d.evt.dropped, 0, 0, 0⟩] } }
    some (e, d2)

/-- Write a new record: next SEQ, its slot, NEWEST and OLDEST, and the interrupt of R575. -/
def writeRecord (d : Dev) (e : Ev) : Dev :=
  let s := nextRingSeq (d.rd R.EVT_NEWEST)
  let old := oldestAfter d s
  let d1 := { d with evt := { d.evt with ring := tabPut d.evt.ring (s % evtSlots) ⟨s, e, 0, false, 0, false⟩ } }
  let d2 := ((d1.wr R.EVT_NEWEST s).wr R.EVT_OLDEST old).stat R.EVT_RECORDED 1
  if (evMeta e.code).1 ≥ d2.getF R.EVT_INT_MIN_SEV then
    let was := d2.getB R.EVT_INT_STATUS_NEW
    let d3 := d2.setB R.EVT_INT_STATUS_NEW true
    if !was && d3.getB R.EVT_INT_EN then d3.msix (d3.getF R.EVT_INT_VECTOR) none else d3
  else d2

/-- Record one event: merge it into the newest record or write a new one (R568). -/
def recordEvent (d : Dev) (e : Ev) : Dev :=
  let slot := d.rd R.EVT_NEWEST % evtSlots
  match tabFind d.evt.ring slot with
  | some r =>
    if d.rd R.EVT_NEWEST ≠ 0 ∧ sameEvent r.ev e then
      let d1 := { d with evt := { d.evt with ring := tabPut d.evt.ring slot (mergeRepeat r e) } }
      d1.stat R.EVT_REPEATS 1
    else writeRecord d e
  | none => writeRecord d e

/-- EVENT_POST (R566, R567). -/
def eventPost (e : Ev) (d : Dev) : Dev := d.postEv e

/-- EVENT_WRITE (R566): one event of the queue becomes a record or a repeat. -/
def eventWrite (d : Dev) : Dev :=
  match popEvent d with
  | none => d
  | some (e, d') => recordEvent d' e

/-- An SMBus transaction the Graold refuses (R577). -/
def smbRefuse (d : Dev) : Dev := (d.emit .smbusNack).err R.E_EVT_SMB_ERR

/-- INFO (R577). -/
def smbInfo (pecBad : Bool) (d : Dev) : Dev :=
  if pecBad then smbRefuse d
  else d.emit (.smbus (leBytes 4 (d.rd R.EVT_NEWEST) ++ leBytes 4 (d.rd R.EVT_OLDEST) ++
    leBytes 1 (d.getF R.HTH_STATE_STATE) ++ leBytes 1 (d.getF R.SEC_LC_STATE) ++
    leBytes 1 (d.getF R.HTH_TEMP_CUR_C) ++ leBytes 1 (d.getF R.PER_STATE_STATE) ++ zeros 4))

/-- SET_PTR (R577): a block of any other size than 4 bytes is refused. -/
def smbSetPtr (pecBad : Bool) (block : Bytes) (d : Dev) : Dev :=
  if pecBad || block.length != 4 then smbRefuse d
  else { d with evt := { d.evt with ptr := leNat block } }

/-- READ_REC (R577): the slot as it stands; the pointer then rises by one. -/
def smbReadRec (pecBad : Bool) (d : Dev) : Dev :=
  if pecBad then smbRefuse d
  else { d.emit (.smbus (evtSlotBytes d (d.evt.ptr % evtSlots))) with
    evt := { d.evt with ptr := (d.evt.ptr + 1) % 2 ^ 32 } }

/-- SMBUS_TIMEOUT (R592): the interface is reset and the event counted. -/
def smbusTimeout (d : Dev) : Dev := d.err R.E_EVT_SMB_ERR

/-- A byte of the event window (R576): subunit 10h to 1Fh, offset within the page. -/
def evtWindowByte (d : Dev) (sub off : Nat) : Byte :=
  (evtSlotBytes d (128 * d.getF R.EVT_WIN_WINDOW + 8 * (sub - 16) + off / 64)).getD (off % 64) 0#8

/-- Select a JTAG instruction with what it makes the balls do. -/
def jtagSelect (d : Dev) (i : JtagInstr) (b : BallDrive) (serdes : Bool) : Dev :=
  { d with jtag := { d.jtag with instr := i, drive := b, serdesTest := serdes } }

/-- Instructions that take balls act only while SYS_RESET_L is low, and as BYPASS otherwise (R593). -/
def jtagGuarded (i : JtagInstr) (b : BallDrive) (serdes : Bool) (d : Dev) : Dev :=
  if !d.hth.pwrGood then d
  else if d.hth.sysResetL then jtagSelect d .bypass .mission false
  else jtagSelect d i b serdes

/-- JTAG_TRST (R593): the TAP is reset; IDCODE is then in force (IEEE 1149.1, PRESUMED, log entry 3). -/
def jtagTrst (d : Dev) : Dev := jtagSelect d .idcode .mission false

/-- BYPASS (R593). -/
def jtagBypass (d : Dev) : Dev := if d.hth.pwrGood then jtagSelect d .bypass .mission false else d

/-- SAMPLE/PRELOAD (R593): the balls' values are captured and shifted out, and the cells shifted in are held for a later
test instruction. -/
def jtagSample (pins cells : List (Nat × Bool)) (d : Dev) : Dev :=
  if !d.hth.pwrGood then d
  else
    let d1 := jtagSelect d .samplePreload .mission false
    { d1.emit (.jtag (pins.foldl (fun n p => n + b2n p.2 * 2 ^ p.1) 0)) with
      jtag := { d1.jtag with shift := pins, update := cells } }

/-- The identification register (R593). -/
def idcodeValue (d : Dev) : Nat :=
  d.sec.fuses.stepping / 16 % 16 * 2 ^ 28 + 0x8100 * 2 ^ 12 + Config.jep106 % 2 ^ 11 * 2 + 1

/-- IDCODE (R593). -/
def jtagIdcode (d : Dev) : Dev :=
  if d.hth.pwrGood then (jtagSelect d .idcode .mission false).emit (.jtag (idcodeValue d)) else d

/-- EXTEST (R593). -/
def jtagExtest (d : Dev) : Dev := jtagGuarded .extest .boundary false d
/-- EXTEST_PULSE (R593). -/
def jtagExtestPulse (d : Dev) : Dev := jtagGuarded .extestPulse .boundary true d
/-- EXTEST_TRAIN (R593). -/
def jtagExtestTrain (d : Dev) : Dev := jtagGuarded .extestTrain .boundary true d
/-- CLAMP (R593): the boundary register's values hold the outputs while BYPASS is selected. -/
def jtagClamp (d : Dev) : Dev := jtagGuarded .clamp .held false d
/-- HIGHZ (R593). -/
def jtagHighz (d : Dev) : Dev := jtagGuarded .highz .floating false d

/-- SYS_RESET_L has risen: the guarded instructions act as BYPASS from now on (R593). -/
def jtagAfterReset (d : Dev) : Dev :=
  if d.jtag.drive = .mission then d else jtagSelect d .bypass .mission false

end Sys2Proof.Machine
end

