-- ==== Sys2Proof/Machine/Reset.lean ====
section
/-! DEFINITION. The head right after the power came on, with no supply sequence run yet: every register at its reset value and nothing in flight. -/

namespace Sys2Proof.Machine

/-- The boundary of the event recorder at reset. -/
def EvtState.reset : EvtState := ⟨[], [], 0, 0⟩
/-- The JTAG port at reset. -/
def JtagState.reset : JtagState := ⟨.idcode, [], [], .mission, false⟩
/-- AER errors masked at reset, as the PCIe standard has them (R532; PRESUMED, log entry 23). -/
def aerMaskReset : List AerErr := [.correctedInternal, .advisoryNonFatal, .headerLogOverflow, .uncorrectableInternal]
/-- The host endpoint at reset. -/
def HepState.reset : HepState :=
  { memEn := false, romEn := false, funcMask := false, fatalMade := [], nonFatalMade := [], aerMask := aerMaskReset, aerStatus := [],
    hdrLog := none, bar := [], romBar := 0, vectors := [], pba := [], slices := [], reads := [], waiting := [], held := [], ieTimes := [],
    linkHeld := true, training := false, linkFailed := false, table := [] }
/-- The image loader at reset: nothing fetched, nothing loaded. -/
def ImgState.reset : ImgState :=
  { pending := none, held := none, damaged := [], loaded := [], reread := none, op := .none, slotWrite := none, apply := none,
    rebake := none, spacing := false, hostSet := [], bankActive := [], bankShadow := [] }
/-- Trays, rolls and issuers at reset. -/
def TrayState.reset : TrayState :=
  { trays := [], rolls := [], groups := [], offers := [], outst := [], cpls := [], steals := [], notices := [],
    cmpTimes := [], seqs := [], buf := 0, test := ⟨0, 0, false, [], 0⟩ }
/-- The write path at reset. -/
def WriteState.reset : WriteState :=
  { cmds := [], queue := [], waitSince := none, interlock := [], groups := [], ring := [], pages := [], flushJsn := none,
    batches := [], peerBudget := none, lands := [] }
/-- The read path at reset. -/
def ReadState.reset : ReadState := ⟨[], [], none, [], []⟩
/-- The Pantry at reset. -/
def PanState.reset : PanState := ⟨[], [], [], [], [], [], [], [], [], [], [], 0⟩
/-- The map at reset. -/
def MapState.reset : MapState :=
  { lines := [], plru := [], evb := [], fifo := [], repoints := [], pageIns := [], roots := [], cut := none, anchorSeq := 0,
    stalled := [], rebuild := [], deferred := [], leases := [], remote := [], walkSince := 0, holds := [], peerFirst := [], replaced := [],
    handLines := [], handed := [], handIn := [], asked := [], answered := [], wbDue := [] }
/-- Media management at reset. -/
def MedState.reset : MedState :=
  { blocks := [], modules := [], moves := [], merges := [], refresh := [], dead := [], lost := [], tallies := [], reserved := 0,
    batchSeq := 0, soloBlk := [], sweep := none, sweepQ := [], pla := ⟨0, 0, 0, [], [], 0, [], []⟩, lossWalk := [],
    parityUsed := 0, results := [], superseded := [], btPtrs := [], btDirty := [], failWalk := [], sweepVictims := [],
    slcUsed := [] }
/-- Ports and transport at reset. -/
def NetState.reset : NetState := ⟨[], none, [], [], [], 0, []⟩
/-- Controllers and instances at reset. -/
def NvmState.reset : NvmState :=
  { cmds := [], nextCmd := 1, ctrls := [], loss := [], lseq := 0, frozen := [], insts := [], namespaces := [], slices := [],
    rings := ⟨[], [], 1, true, false, []⟩, mig := none, migSeq := 0, handoff := [], loads := [], hotPeriods := 0, migExpect := 1, lastMig := none,
    streams := [], walks := [], splits := [], snapAsked := [], given := [] }
/-- Blank fuses. -/
def Fuses.reset : Fuses := ⟨[], 0, 0, 0, none, false, 0, [], [], 0, 0⟩
/-- The Security steward at reset. -/
def SecState.reset : SecState :=
  { fuses := .reset, root := none, store := none, pairing := ⟨0, [], [], [], [], 0, [], none⟩, paired := false, xferKey := [],
    writing := none, rewrite := false, ksLocs := [], raise := none, replBusy := false, ciphers := [], goCount := 0, digests := [],
    lcOp := 0, lcSlot := 0, lcData := [], nonce := none, responds := 0, dbgOpen := false }
/-- The Peer link steward at reset. -/
def PerState.reset : PerState :=
  { head := none, hbSeq := 0, last := none, lastTime := 0, mirror := [], journal := [], mirrorOpen := false, contest := none,
    voters := 0, propose := none, fenceWord := 0, joint := none, detectAt := 0, phaseAt := 0, adopted := false,
    adoptedNs := [], anchor := none, proxySeq := 0, wanted := [], joinStep := 0, holdoff := false, reclaim := [], reqs := [],
    nextTag := 0, windows := [], peerDevice := 0, releasing := [], found := [], tables := [], filled := 0 }
/-- The Hearth at reset. -/
def HthState.reset : HthState :=
  { pwrGood := false, sysResetL := false, pwrFailL := true, perstL := false, dbgReturnL := true, faultL := true, straps := 0,
    strapsSampled := 0, resetHold := false, tripHold := false, stwTimes := [], fenceTimes := [], offsets := [], frac := 0, restore := 0,
    cal := ⟨0, 0, 0, false⟩, calFails := [], calDown := [], calTemp := [], avsBusy := none, flushStart := 0, fenceCause := 0 }

/-- The head with every register at its reset value and nothing in flight. -/
def Dev.reset : Dev :=
  { regs := [], readLatch := none, writeLatch := none, dram := [], freeCtr := 0, out := [], evt := .reset, jtag := .reset,
    hep := .reset, img := .reset, tray := .reset, write := .reset, read := .reset, pan := .reset, map := .reset,
    med := .reset, links := [], net := .reset, nvm := .reset, sec := .reset, per := .reset, hth := .reset }

end Sys2Proof.Machine
end

