-- ==== Sys2Proof/Machine/HearthOps.lean ====
section
/-! DEFINITION. The Hearth: resets, starts, power loss, temperature, steward failures, restarts (R540 to R561), calibration and the core
voltage (R560, R586). -/

namespace Sys2Proof.Machine

/-! ## What a start keeps (R540, R551, R572) -/

/-- Registers of the always-on domain that every start but a power-on keeps (R540, R572): those of the event recorder, and of the Hearth the
time base, the reset-cause latch and the counters. -/
def alwaysOnReg (a : Nat) : Bool :=
  a / 0x400000 == 3 || [R.HTH_TIME, R.HTH_TIME_ADJ, R.HTH_RESET_CAUSE, R.HTH_STW_RESTARTS, R.HTH_HEAD_FAILS, R.HTH_SAT].contains a

/-- Registers that instance records show (R437): they come back with the records at every start (log entry 41). -/
def instReg (a : Nat) : Bool :=
  a / 0x400000 == 0x0D && [0x000, 0x004, 0x008, 0x010].contains (a % 0x200)

/-- Registers of the host endpoint that a warm restart keeps (R550, R572): all but its counters. -/
def endpointReg (a : Nat) : Bool := a / 0x400000 == 5 && !decide (0x20 ≤ a % 0x200 ∧ a % 0x200 ≤ 0x60)

/-- Registers of the Hearth that a warm restart keeps: its parameters and the duration of the last flush (R556, R561). -/
def hearthReg (a : Nat) : Bool := [R.HTH_PARAM0, R.HTH_PARAM1, R.HTH_PARAM2, R.HTH_LAST_FLUSH, R.CLK_CAL_CFG].contains a

/-- An instance record as a start finds it: its buckets filling from time zero, nothing queued (log entry 102). -/
def freshInst (x : Inst) : Inst := { x with bucketCmds := 0, bucketBytes := 0, rateTime := 0, rateQueue := [], rateSince := none, migFails := 0 }

/-- The Hearth after a reset of its state machines (R540): pins and the running time base stay. -/
def freshHearth (h : HthState) : HthState :=
  { HthState.reset with
    pwrGood := h.pwrGood, sysResetL := h.sysResetL, pwrFailL := h.pwrFailL, perstL := h.perstL, dbgReturnL := h.dbgReturnL
    faultL := h.faultL, straps := h.straps, strapsSampled := h.strapsSampled, frac := h.frac, resetHold := h.resetHold, tripHold := h.tripHold }

/-- The host endpoint across a warm restart (R550): its link, configuration and MSI-X table stay; nothing is in flight. -/
def freshEndpoint (h : HepState) : HepState := { h with slices := [], reads := [], waiting := [], held := [] }

/-- Everything but the always-on domain starts afresh (R540, R551, R572). Records of instances and namespaces and the content slots in use
come back from media (log entry 41). -/
def startAfresh (warm : Bool) (d : Dev) : Dev :=
  let z := Dev.reset
  { z with
    regs := d.regs.filter fun e => alwaysOnReg e.1 || instReg e.1 || (warm && (endpointReg e.1 || hearthReg e.1))
    freeCtr := d.freeCtr, out := d.out, evt := d.evt, jtag := d.jtag
    hep := if warm then freshEndpoint d.hep else z.hep
    img := { z.img with bankActive := if warm then d.img.bankActive else [] }
    pan := { z.pan with used := d.pan.used, noAlloc := d.pan.noAlloc }
    nvm := { z.nvm with insts := d.nvm.insts.map fun e => (e.1, freshInst e.2), namespaces := d.nvm.namespaces }
    sec := { z.sec with fuses := d.sec.fuses }
    hth := if warm then { d.hth with restore := 0, cal := ⟨0, 0, 0, false⟩, calTemp := [], avsBusy := none } else freshHearth d.hth }

/-- Drive FAULT_L. -/
def driveFault (level : Bool) (d : Dev) : Dev :=
  if d.hth.faultL = level then d else ({ d with hth := { d.hth with faultL := level } } : Dev).emit (.faultL level)

/-- The built-in defaults of the Hearth bank are in force (R551 step 2): the spec gives no values (log entry 2). -/
def bankDefaults (d : Dev) : Dev := loadFields (regionKey 1 0) [] d

/-- A start begins (R551): the state, the step, the cause, an event (R570). -/
def beginStart (cause step : Nat) (warm : Bool) (d : Dev) : Dev :=
  let d1 := (setHeadState stStarting d).setF R.HTH_STATE_STEP step
  let d2 := (d1.setF R.HTH_RESET_CAUSE_CAUSE cause).setB R.HTH_STATE_PWR_FAIL (!d.hth.pwrFailL)
  let d3 := if warm then d2.setF R.HTH_RESET_CAUSE_WARM (Nat.min 255 (d2.getF R.HTH_RESET_CAUSE_WARM + 1)) else d2
  (driveFault true d3).post 0x0001 [d3.rd R.HTH_RESET_CAUSE, b2n warm]

/-- A cold start from step 2 with the cause already latched (R540, R551): the Hearth's reset and its bank's built-in defaults. -/
def coldStart (cause : Nat) (d : Dev) : Dev :=
  let d1 : Dev := { d with hth := { d.hth with resetHold := false, tripHold := false } }
  syncSec (bankDefaults (beginStart cause 2 false (startAfresh false d1)))

/-- A warm restart from step 3 (R551). -/
def warmRestart (cause : Nat) (d : Dev) : Dev :=
  syncSec (beginStart cause 3 true (startAfresh true { d with hth := { d.hth with fenceCause := 0 } }))

/-- The head goes into RESET with a cause (R547, R549, R550): every domain but the always-on one is reset and the outputs are idle. The bank's
parameters stand until the start that follows. -/
def enterReset (cause : Nat) (d : Dev) : Dev :=
  let ps := d.regs.filter fun e => hearthReg e.1
  let d1 := startAfresh false d
  let d2 : Dev := { d1 with regs := ps.foldl (fun t e => tabPut t e.1 e.2) d1.regs }
  (setHeadState stReset d2).setF R.HTH_RESET_CAUSE_CAUSE cause

/-! ## Pins (R547 to R550) -/

/-- POWER_ON (R549, R551): PWR_GOOD rises; the straps are sampled; reset-cause latch, event ring and time base start afresh. -/
def powerOn (d : Dev) : Dev :=
  if d.hth.pwrGood then d
  else
    let z := Dev.reset
    let cause := d.getF R.HTH_RESET_CAUSE_CAUSE
    let d1 : Dev := { z with
      freeCtr := d.freeCtr, out := d.out, pan := { z.pan with used := d.pan.used, noAlloc := d.pan.noAlloc }
      nvm := { z.nvm with insts := d.nvm.insts.map fun e => (e.1, freshInst e.2), namespaces := d.nvm.namespaces }
      regs := d.regs.filter fun e => instReg e.1
      sec := { z.sec with fuses := d.sec.fuses }
      hth := { freshHearth d.hth with
        pwrGood := true, frac := 0, strapsSampled := d.hth.straps, resetHold := false, tripHold := false, faultL := true } }
    if d1.hth.sysResetL then syncSec (bankDefaults (beginStart (if cause = 2 then 2 else 0) 2 false d1))
    else (setHeadState stReset d1).setF R.HTH_RESET_CAUSE_CAUSE (if cause = 2 then 2 else 0)

/-- PWR_GOOD_FALL (R549): the whole device is held in reset. A fall while the head serves is a power loss without flush, cause 2h, which the
next power-on shows. -/
def pwrGoodFall (d : Dev) : Dev :=
  if !d.hth.pwrGood then d
  else
    let cause := if d.getF R.HTH_STATE_STATE = stServing then 2 else 0
    let d1 := enterReset cause d
    { d1 with evt := .reset, jtag := .reset, hth := { d1.hth with pwrGood := false, resetHold := false, tripHold := false, faultL := true } }

/-- SYS_RESET (R549): SYS_RESET_L falls; every domain except the always-on one is reset at once, with no flush. -/
def sysReset (d : Dev) : Dev :=
  if !d.hth.sysResetL then d
  else
    let d1 : Dev := { d with hth := { d.hth with sysResetL := false } }
    if d.hth.pwrGood then enterReset 1 d1 else d1

/-- SYS_RESET_RELEASE (R547, R593): SYS_RESET_L rises; with PWR_GOOD high and no other hold the head makes a cold start. The cause of a power-on that
waited for it stays. -/
def sysResetRelease (d : Dev) : Dev :=
  if d.hth.sysResetL then d
  else
    let d1 := jtagAfterReset { d with hth := { d.hth with sysResetL := true } }
    if !d1.hth.pwrGood || d1.hth.resetHold || d1.hth.tripHold || d1.getF R.HTH_STATE_STATE ≠ stReset then d1
    else coldStart (d1.getF R.HTH_RESET_CAUSE_CAUSE) d1

/-- HEARTH_FAULT (R541): a lockstep mismatch or a parity error of the Hearth. The device is held in reset for 100 ms, FAULT_L low. -/
def hearthFault (d : Dev) : Dev :=
  if !d.hth.pwrGood then d
  else
    let d1 := enterReset 3 d
    driveFault false { d1 with hth := { d1.hth with resetHold := true } }

/-- RESET_HOLD_END (R541): 100 ms after a Hearth fault. -/
def resetHoldEnd (d : Dev) : Dev :=
  if !d.hth.resetHold || !d.hth.pwrGood then d
  else
    let d1 : Dev := { d with hth := { d.hth with resetHold := false } }
    if d1.hth.sysResetL && !d1.hth.tripHold then coldStart 3 d1 else d1

/-! ## Power loss (R308, R553 to R556) -/

/-- Programs and erases that are queued on links and not yet issued are cancelled (R308, R553). -/
def cancelPrograms (d : Dev) : Dev :=
  { d with links := d.links.map fun e => (e.1, { e.2 with queue := e.2.queue.filter fun c => c.opcode != 3 && c.opcode != 4 }) }

/-- A tray runs a control ticket, which may be past its commit (R554). -/
def runsControl (x : TrayX) : Bool := x.ring.any fun s => match s.st with
  | .running _ p _ => p.isSome
  | _ => false

/-- Trays go Cold for the flush, those that run control tickets once these end (R554). -/
def traysForFlush (d : Dev) : Dev :=
  forEach (List.range trayCount) (fun t d =>
    if d.power t ≠ 2 then d
    else
      let x := d.trayX t
      let d1 := d.modTray t fun x => { x with ring := x.ring.filter fun s => match s.st with
        | .running _ p _ => p.isSome
        | _ => false }
      if runsControl x then d1.setB (R.TRY_TC_STATE_GOING_COLD t) true else toCold t d1) d

/-- A power failure ends an invalidate-all at once (R262). -/
def endInvalidate (d : Dev) : Dev :=
  match d.getF R.MAP_STATE_INV with
  | 0 => d
  | 3 => (d.stat R.MAP_STALL_NS (d.now - d.map.walkSince)).setF R.MAP_STATE_INV 0
  | _ => d.setF R.MAP_STATE_INV 0

/-- The flush begins (R308): the area goes to two modules, with the next FLUSH_SEQ. -/
def plaStart (d0 : Dev) : Dev :=
  let d := endInvalidate d0
  let mods := plaModules d
  let d1 := (d.setF R.MED_PLA_MOD_A (mods.getD 0 0)).setF R.MED_PLA_MOD_B (mods.getD 1 0)
  { d1 with med := { d1.med with pla := ⟨1, (d.med.pla.seq + 1) % 2 ^ 32, d.now, mods, [], 0, [], []⟩ } }

/-- The head reaches HALTED: the Thagrait link goes idle (R555). -/
def halt (d : Dev) : Dev := setSublink 1 false (setSublink 0 false (setHeadState stHalted d))

/-- POWER_FAIL (R156, R553, R554): PWR_FAIL_L has been low for 1 µs. The head flushes from SERVING, and from STARTING once it has reached
PAIRED; before that, it only stops. -/
def powerFail (d : Dev) : Dev :=
  if !d.hth.pwrGood || !d.hth.pwrFailL then d
  else
    let d1 := ({ d with hth := { d.hth with pwrFailL := false, flushStart := d.now } } : Dev).setB R.HTH_STATE_PWR_FAIL true
    let st := d1.getF R.HTH_STATE_STATE
    if st = stServing ∨ (st = stStarting ∧ d1.peerUp) then
      let d2 := traysForFlush (cancelPrograms (stopApply (setHeadState stFlush d1)))
      plaStart { d2 with per := { d2.per with mirrorOpen := false } }
    else if st = stStarting then halt (cancelPrograms d1)
    else d1

/-- PLA_FLUSHED (R308, R547, R556): both trailers are programmed; the head waits for the power to fall, and keeps the duration. -/
def flushDone (d : Dev) : Dev :=
  let was := d.getB R.MED_PLA_FLUSHED
  let d1 := plaFlushed d
  if !was && d1.getB R.MED_PLA_FLUSHED then halt (d1.wr R.HTH_LAST_FLUSH (d1.now - d1.hth.flushStart)) else d1

/-- PORT_HOLD_EXPIRY (R555): PORT_HOLD_US after PWR_FAIL_L the front ports go to electrical idle. -/
def portHoldExpiry (d : Dev) : Dev := if d.getF R.HTH_STATE_STATE = stFlush then allPortsDown 0 d else d

/-- POWER_RESTORED (R547, R556): PWR_FAIL_L has been high for 10 ms. In HALTED the head makes a warm restart; a flush that has begun ends
first, and the 10 ms count again from HALTED. -/
def powerRestored (d : Dev) : Dev :=
  if !d.hth.pwrGood then d
  else
    let d1 := ({ d with hth := { d.hth with pwrFailL := true } } : Dev).setB R.HTH_STATE_PWR_FAIL false
    if d1.getF R.HTH_STATE_STATE = stHalted then warmRestart 5 d1 else d1

/-! ## Restart after a self-fence (R559) -/

/-- FENCE_RESTART (R559): FENCE_RESTART_S after the self-fence, but for RETURN and under the lockout. -/
def fenceRestart (d : Dev) : Dev :=
  if d.fenced && d.hth.fenceCause != 2 && !d.getB R.HTH_STATE_LOCKOUT then warmRestart 4 d else d

/-- RESTART (R559, R562): the host restarts a FENCED head; after RETURN no restart follows. -/
def hostRestart (d : Dev) : Dev := if d.fenced && d.hth.fenceCause != 2 then warmRestart 6 d else d

/-! ## Steward failures (R548) -/

/-- STEWARD_FAILURE (R30, R548): a steward's control checks fail. Its record is loaded again from the held copy and it restarts; a failed restart,
or more than STW_RESTARTS failures within 10 s, fails the head. -/
def stewardFailure (stw : Nat) (restarted : Bool) (d : Dev) : Dev :=
  let st := d.getF R.HTH_STATE_STATE
  if stw = 0 ∨ stw > 0x14 ∨ st = stReset ∨ !d.hth.pwrGood then d
  else
    let times := d.now :: (tabGet [] d.hth.stwTimes stw).filter fun t => decide (d.now - t < 10000000000)
    let d1 : Dev := { d with hth := { d.hth with stwTimes := tabPut d.hth.stwTimes stw times } }
    if !restarted || decide (times.length > d.getF R.HTH_PARAM0_STW_RESTARTS) then headFail 5 d1
    else
      let key := regionKey 2 stw
      let d2 := if d1.img.held.isSome then loadRecord key 0 (imgRecord (heldImage d1) key) d1 else d1
      (d2.stat R.HTH_STW_RESTARTS 1).post 0x0002 [stw]

/-! ## Temperature (R546) and the core voltage (R586) -/

/-- A temperature register's value as a number of °C. -/
def celsius (v : Nat) : Int := if v % 256 < 128 then (v % 256 : Nat) else (v % 256 : Nat) - 256

/-- Send the regulator the lowest voltage that the timing monitors accept, in 5 mV steps from 700 mV to 800 mV (R545, R586): which one that is,
the spec does not say (log entry 1). -/
def setVoltage (d : Dev) : Dev :=
  if d.hth.avsBusy.isSome then d
  else
    let r := d.drawNat 21
    let mv := 700 + 5 * r.1
    ({ r.2 with hth := { r.2.hth with avsBusy := some mv } } : Dev).emit (.avs mv)

/-- The bake clock under the thermal cap or without it (R546). -/
def setBakeClock (d : Dev) : Dev :=
  let top := d.getF R.CLK_BAKE_MAX_MHZ
  d.setF R.CLK_BAKE_CUR_MHZ (if d.getB R.CLK_BAKE_THROTTLED then Nat.min top 1200 else top)

/-- AVS_RESPONSE (R586): the regulator acknowledged the voltage, or did not: then the last one acknowledged stays, and the bake clock keeps within
what it supports, which the spec does not give (log entry 1). -/
def avsResponse (ok : Bool) (d : Dev) : Dev :=
  match d.hth.avsBusy with
  | none => d
  | some mv =>
    let d1 : Dev := { d with hth := { d.hth with avsBusy := none } }
    if ok then setBakeClock (d1.setF R.CLK_VCORE_MV mv)
    else
      let r := d1.drawNat (Nat.min (d1.getF R.CLK_BAKE_MAX_MHZ) (if d1.getB R.CLK_BAKE_THROTTLED then 1200 else 2047) + 1)
      r.2.setF R.CLK_BAKE_CUR_MHZ r.1

/-! ## Calibration (R560) -/

/-- Number of a unit of a kind: 1 front port, 2 Thagrait sublink, 3 media lane. -/
def calUnit (kind index : Nat) : Nat := kind * 64 + index

/-- A unit is there and up. -/
def unitUp (d : Dev) (kind index : Nat) : Bool :=
  match kind with
  | 1 => d.portUp index
  | 2 => (upSublinks d).contains index
  | 3 => decide (index < moduleCount) && d.linkUp index
  | _ => false

/-- The calibration of a unit is refused (R560): a front port that is the head's last up port, a sublink whose other one is down, a media lane
whose link is down, PCIe always. -/
def calRefused (d : Dev) (kind index : Nat) : Bool :=
  match kind with
  | 1 => decide (index ≥ d.portCount) || (d.portUp index && ((List.range 16).filter d.portUp).length == 1)
  | 2 => decide (index ≥ 2) || !(upSublinks d).contains (1 - index)
  | 3 => !unitUp d 3 index
  | _ => true

/-- Show the lanes of a front port or sublink that is drained for calibration (`CALIBRATING`). -/
def calLanes (kind index : Nat) (on : Bool) (d : Dev) : Dev :=
  match kind with
  | 1 => forEach (portLanes d index) (fun j d => d.setB (R.FRT_L_STATE_CALIBRATING index j) on) d
  | 2 => forEach (List.range 4) (fun i d => d.setB (R.PER_L_STATE_CALIBRATING (4 * index + i)) on) d
  | _ => d

/-- A calibration starts: a unit in use is drained first; a media lane only retrains (R560). -/
def startCalibration (kind index : Nat) (host : Bool) (d : Dev) : Dev :=
  let drain := kind != 3 && unitUp d kind index
  let d1 := ((d.setF R.CLK_CAL_STATUS_STATE (if drain then 1 else 2)).setF R.CLK_CAL_STATUS_KIND kind).setF R.CLK_CAL_STATUS_INDEX index
  let d2 : Dev := { calLanes kind index drain d1 with hth := { d1.hth with
    cal := ⟨kind, index, if drain then 1 else 2, host⟩, calDown := d1.hth.calDown.filter (· != calUnit kind index) } }
  if kind = 3 then startRetrain index d2 else d2

/-- CALIBRATION_REQUEST (R560, R562): a write of `CLK_CAL_CMD` with GO. -/
def calibrationRequest (kind index : Nat) (go : Bool) (d : Dev) : Dev :=
  if !go ∨ kind < 1 ∨ kind > 4 then d
  else if kind = 4 then d.setF R.CLK_CAL_STATUS_RESULT 4
  else if d.hth.cal.phase ≠ 0 then d.setF R.CLK_CAL_STATUS_RESULT 3
  else if calRefused d kind index then d.setF R.CLK_CAL_STATUS_RESULT 4
  else startCalibration kind index true (d.setF R.CLK_CAL_STATUS_RESULT 0)

/-- CALIBRATION_DRAIN_END (R78, R514, R560): the unit is out of use and its calibration runs. -/
def calibrationDrainEnd (d : Dev) : Dev :=
  let c := d.hth.cal
  if c.phase ≠ 1 then d
  else
    let d1 := ({ d with hth := { d.hth with cal := { c with phase := 2 } } } : Dev).setF R.CLK_CAL_STATUS_STATE 2
    if c.kind = 1 then portLinkDown c.index 4 d1 else sublinkDown c.index d1

/-- CALIBRATION_DONE (R560): with success, or with failure, which keeps the previous settings. A port or sublink that fails twice in a row stays
down until the host asks again; otherwise the link trains again. -/
def calibrationDone (ok : Bool) (d : Dev) : Dev :=
  let c := d.hth.cal
  if c.phase ≠ 2 then d
  else
    let u := calUnit c.kind c.index
    let d1 := calLanes c.kind c.index false (({ d with hth := { d.hth with cal := ⟨0, 0, 0, false⟩ } } : Dev).setF R.CLK_CAL_STATUS_STATE 0)
    let d2 := if c.host then d1.setF R.CLK_CAL_STATUS_RESULT (if ok then 1 else 2) else d1
    let fails := if ok then 0 else tabGet 0 d2.hth.calFails u + 1
    let d3 : Dev := { d2 with hth := { d2.hth with
      calFails := tabSet 0 d2.hth.calFails u fails
      calTemp := tabPut d2.hth.calTemp u (d2.getF R.HTH_TEMP_CUR_C)
      calDown := if decide (fails ≥ 2) && c.kind != 3 then d2.hth.calDown ++ [u] else d2.hth.calDown } }
    let d4 := if ok then d3.stat R.CLK_CALS 1 else (d3.err R.E_CLK_CAL_FAIL).post 0x0201 [c.kind, c.index]
    if c.kind = 1 then startBringUp c.index d4 else d4

/-- The first unit whose temperature has moved by CAL_DRIFT_C since its last calibration (R560). -/
def driftedUnit (d : Dev) (t : Int) : Option (Nat × Nat) :=
  (d.hth.calTemp.find? fun e =>
    let moved := (celsius e.2 - t).natAbs
    decide (moved ≥ d.getF R.CLK_CAL_CFG_DRIFT_C) && unitUp d (e.1 / 64) (e.1 % 64) && !calRefused d (e.1 / 64) (e.1 % 64)).map fun e =>
      (e.1 / 64, e.1 % 64)

/-- TEMPERATURE_SAMPLE (R546, R560): every 10 µs the hottest sensor, in °C as 8-bit two's complement. -/
def temperatureSample (v : Nat) (d : Dev) : Dev :=
  if !d.hth.pwrGood then d
  else
    let t := celsius v
    let cap : Int := d.getF R.HTH_PARAM1_THERM_CAP_C
    let d1 := d.setF R.HTH_TEMP_CUR_C (v % 256)
    let d2 := if t > celsius (d1.getF R.HTH_TEMP_MAX_C) then d1.setF R.HTH_TEMP_MAX_C (v % 256) else d1
    if d2.getF R.HTH_STATE_STATE = stReset then
      if d2.hth.tripHold && decide (t ≤ cap - 10) then
        let d3 : Dev := { d2 with hth := { d2.hth with tripHold := false } }
        if d3.hth.sysResetL && !d3.hth.resetHold then coldStart 7 d3 else d3
      else d2
    else if t ≥ d2.getF R.HTH_PARAM1_THERM_TRIP_C then
      let d3 := enterReset 7 (headFail 5 d2)
      driveFault false { d3 with hth := { d3.hth with tripHold := true } }
    else
      let on := d2.getB R.CLK_BAKE_THROTTLED
      let d3 := if on then d2.stat R.CLK_THROTTLE_NS 10000 else d2
      let d4 := if !on && decide (t ≥ cap) then (setBakeClock (d3.setB R.CLK_BAKE_THROTTLED true)).post 0x0004 [v % 256]
        else if on && decide (t ≤ cap - 5) then setVoltage (d3.setB R.CLK_BAKE_THROTTLED false)
        else d3
      if d4.hth.cal.phase ≠ 0 then d4
      else match driftedUnit d4 t with
        | some u => startCalibration u.1 u.2 false d4
        | none => d4

/-- TIME_DISAGREEMENT (R544): while both heads follow PTP, the mean offset has exceeded 1 µs for 1 s. -/
def timeDisagreement (d : Dev) : Dev :=
  let off := d.getF R.HTH_TIME_PEER_OFFSET_NS
  let mag := if off < 2 ^ 31 then off else 2 ^ 32 - off
  let both := d.getF R.HTH_TIME_ADJ_SOURCE == 1 && (d.per.last.any fun b => bitAt b.flags 2)
  if d.peerUp && both && decide (mag > 1000) then d.post 0x0006 [off] else d

/-! ## Start-up (R551, R552) -/

/-- The head number that an array page read from a module gives this device (R26, R329). -/
def pageHead (d : Dev) (b : Bytes) : Option (Nat × Nat) :=
  if !sbOk b then none
  else if fieldAt b 24 8 = d.sec.fuses.deviceId then some (0, fieldAt b 32 8)
  else if fieldAt b 32 8 = d.sec.fuses.deviceId then some (1, fieldAt b 24 8)
  else none

/-- Take the head number, and the peer's identity, from the array pages read at step 7. -/
def takeNumber (d : Dev) : Dev :=
  match (onModules d).findSome? fun m => pageHead d (tabGet [] (d.link m).sb 1) with
  | some (h, peer) => ({ d with per := { d.per with head := some h, peerDevice := peer } } : Dev).setF R.PER_STATE_HEAD h
  | none => d

/-- A copy of a key store verifies (R462, R463): header, and every domain record. -/
def storeOk (b : Bytes) : Bool :=
  fieldAt b 0 4 == 0x5254534B && fieldAt b 4 1 == 1 && fieldAt b 4092 4 == crcNat (slice b 0 4092) &&
    (List.range 49).all fun p =>
      let page := slice b (4096 * (p + 1)) 4096
      (List.range 85).all fun r =>
        let x := slice page (16 + 48 * r) 48
        fieldAt x 44 4 == crcNat (slice x 0 44)

/-- The key store among what was found (R463): the copy with the highest KSEQ that verifies. -/
def foundStore (h : Nat) (l : List Found) : Option Bytes :=
  newestBy 8 (l.filterMap fun f => match f with
    | .keyStore b => if storeOk b && fieldAt b 5 1 == h then some b else none
    | _ => none)

/-- The array root and the replication secrets of the store found are unwrapped at step 9 (R461, R469); a root that does not
unwrap leaves none, with an event. Walks that were not finished start again (R473). -/
def unwrapRoot (b : Option Bytes) (d : Dev) : Dev :=
  match b with
  | none => syncSec d
  | some b =>
    let kek := kdf (d.sec.fuses.root.getD []) 5 (kdfContext 0 0 0 0 0 (zeros 32)) 256
    match kwUnwrap kek (slice b 32 40) with
    | none => syncSec (d.post 0x0401 [])
    | some root =>
      let d1 : Dev := { d with sec := { d.sec with root := some root } }
      let repl := (List.range 64).filterMap fun j =>
        if fieldAt b (128 + 48 * j) 1 ≠ 1 then none
        else (kwUnwrap (ksWrapKey d1) (slice b (128 + 48 * j + 8) 40)).map fun s => (j, s)
      let ks : KeyStore := ⟨fieldAt b 8 4, fieldAt b 12 4 % 2 ^ 25, fieldAt b 16 8, slice b 32 40, repl, storeDomains b⟩
      let d2 := syncSec { d1 with sec := { d1.sec with store := some ks } }
      match (ks.domains.filter fun e => e.2.walk).head? with
      | some e => showRaise { d2 with sec := { d2.sec with raise := some ⟨e.1, e.2.epoch - 1, 5, 0, domainNs d2 e.1, 0, []⟩ } }
      | none => d2

/-- The double-fault loss of R512: the word read at start is a claim for the other head, whose journal ends below TAKEN_JSN. -/
def doubleLoss (l : List Found) (d : Dev) : Dev :=
  let w := d.per.fenceWord
  let h := d.headNum
  let o := 1 - h
  let claimed := bitAt w 18 && liveBit w h && !liveBit w o
  match (onModules d).findSome? fun m => tabFind (d.link m).witness (4 + o) with
  | none => d
  | some taken =>
    let recs := foundRecs o l
    let redo := ((newestBy 8 (foundMaps o l)).map fun b => fieldAt b 12 4).getD 1
    let next := (highestJsn redo recs + 1) % 2 ^ 32
    if claimed && jsnLt next (taken % 2 ^ 32) then (d.err R.E_PER_DOUBLE_LOSS).post 0x1403 [o, next, taken % 2 ^ 32] else d

/-- This head's own area may be restored (R310, R510): witness 0 sets its LIVE bit. -/
def ownLive (d : Dev) : Bool := liveBit d.per.fenceWord d.headNum

/-- Instances are served, until a join or an adoption says otherwise, by their home head; by the other head where this one returns. -/
def homeServers (d : Dev) : Dev :=
  forEach ((List.range 1024).filter d.hasInst) (fun i d =>
    let home := d.getF (R.INS_I_STATE_HOME i)
    showServer i (if d.per.fenceWord ≠ 0 && !ownLive d then 1 - d.headNum else home) d) d

/-- Start-up step 8 begins (R551): the time base is set forward, the area restored where this head's LIVE bit is set, anchors and journals
rebuilt. A returning head's area is erased unread once it may write (R510). -/
def startRestore (l : List Found) (d : Dev) : Dev :=
  let d1 := doubleLoss l (homeServers { d with per := { d.per with found := l } })
  let d2 := restore (ownLive d1) l d1
  if ownLive d1 then d2
  else { d2 with med := { d2.med with pla := { d2.med.pla with mods := (newestArea d2.headNum l).map (·.1) } } }

/-- Step 3 ends (R551): fuses are sensed, an unfinished RETURN is completed (R484), the network clock runs, PCIe may train. -/
def fusesSensed (d : Dev) : Dev :=
  let f := d.sec.fuses
  let d1 := if lcState d = 3 ∧ !f.rootDestroyed then destroyRoot d else d
  let en := [0, 1, 2, 3].foldl (fun n k => if (tabFind f.hashes k).isSome then n + 2 ^ k else n) 0
  let d2 := ((d1.setF R.IMG_KEYS_ENROLLED en).setF R.IMG_KEYS_REVOKED f.revoked).setF R.IMG_RUN_SVN_MIN_SVN f.minSvn
  let d3 := syncSec ((d2.setF R.HEP_ID_REVISION f.stepping).setB R.CLK_DOMAINS_NET_ON true)
  { d3 with hep := { d3.hep with linkHeld := false, training := if d3.getB R.HEP_LINK_UP then d3.hep.training else d3.hth.perstL } }

/-- The start ends after step 5 (R552): no image, or a life-cycle state that does not serve. -/
def endsEarly (d : Dev) : Bool := d.noImage || lcState d == 0 || lcState d == 3

/-- Calibration at step 6 (R551, R560): every unit's temperature is noted. -/
def calibrateAll (d : Dev) : Dev :=
  let us := (List.range 16).map (calUnit 1) ++ [calUnit 2 0, calUnit 2 1] ++ (List.range moduleCount).map (calUnit 3)
  { d with hth := { d.hth with calTemp := us.foldl (fun t u => tabPut t u (d.getF R.HTH_TEMP_CUR_C)) d.hth.calTemp } }

/-- The step that follows begins. -/
def nextStep (n : Nat) (d : Dev) : Dev := d.setF R.HTH_STATE_STEP n

/-- STARTUP_STEP_DONE (R551, R552): the current step has ended. The operand holds what steps 7 and 8 have read from media. A step that waits for
something in this head does not end before it: step 5 for the reset walk of the map (R260), step 8 for the area's restore. -/
def startupStepDone (l : List Found) (d : Dev) : Dev :=
  if d.getF R.HTH_STATE_STATE ≠ stStarting ∨ !d.hth.pwrGood then d
  else match d.getF R.HTH_STATE_STEP with
    | 2 => nextStep 3 d
    | 3 => fetchSlot (.boot 0) 0 (nextStep 4 (fusesSensed d))
    | 4 =>
      if d.img.op = .none then nextStep 5 ((d.setB R.CLK_DOMAINS_MAP_ON true).setB R.CLK_DOMAINS_DRAM_ON true) else d
    | 5 => if endsEarly d || d.getB R.MAP_STATE_RESET_WALK then d else setVoltage (setBakeClock (nextStep 6 d))
    | 6 => forEach (List.range moduleCount) (fun m d => if (d.link m).hostDown then d else setPhase m lpDetect d) (nextStep 7 (calibrateAll d))
    | 7 => startRestore l (forEach (List.range 16) startBringUp (nextStep 8 (takeNumber d)))
    | 8 =>
      if d.hth.restore ≠ 0 then d
      else startPairing (unwrapRoot (foundStore d.headNum d.per.found) (nextStep 9 d))
    | 9 => if decide (d.getF R.PER_STATE_STATE ≤ 1) then d else nextStep 10 d
    | 10 => if d.getF R.PER_STATE_STATE = 3 ∨ d.getF R.PER_STATE_STATE = 6 then nextStep 11 d else d
    | 11 => nextStep 12 d
    | 12 =>
      let d1 := (setHeadState stServing d).setB R.HTH_STATE_IO_READY true
      forEach ((List.range 1024).filter d1.hasInst) anaChange d1
    | _ => d

/-! ## Apply out of service (R81) -/

/-- The rebakes of APPLY_OOS are done (R81 steps 5 and 6): map cache and Pantry start afresh, the links may train again, and the head returns to its
peer, which has taken over meanwhile. -/
def oosReturn (d : Dev) : Dev :=
  let d1 := dropShare { d with dram := [] }
  let d2 : Dev := { d1 with per := { d1.per with mirror := [], journal := [], joinStep := 0 } }
  let d3 := forEach (List.range 16) startBringUp (d2.setF R.PAN_STATE_STATE 1)
  forEach (onModules d3) (readWitness 0) (startPairing d3)

/-- OOS_PHASE_DONE (R81): the phase of APPLY_OOS in progress has ended and the next begins: 1 migration of every instance to the peer, 2 write-out of
staging and dirty map pages, 3 mirroring ends, 4 rebake of every changed region with the ports down, 5 rebuild of map cache and Pantry, 6 rejoin
and resynchronisation; 7, the return of home instances, is the automatic return of R511. -/
def oosPhaseDone (d : Dev) : Dev :=
  match d.img.apply with
  | none => d
  | some a =>
    let phaseTo := fun (n : Nat) (d : Dev) => { d with img := { d.img with apply := some { a with oosPhase := n } } }
    if !a.oos || d.getF R.IMG_STATUS_STATE ≠ 5 then d
    else match a.oosPhase with
      | 1 =>
        if !(servedInsts d).isEmpty || migrating d then d
        else cutAnchor (forEach (d.write.pages.map (·.1)) programStage (phaseTo 2 d))
      | 2 =>
        if d.map.cut.isSome || d.write.pages.any (fun e => decide (1 ≤ e.2.state ∧ e.2.state ≤ 3)) then d
        else phaseTo 3 { d with per := { d.per with mirrorOpen := false } }
      | 3 =>
        let d1 := (setSublink 1 false (setSublink 0 false (allPortsDown 4 d))).setF R.PER_STATE_STATE 0
        nextRebake { d1 with img := { d1.img with apply := some { a with oosPhase := 4, waiting := false } } }
      | 5 => oosReturn (phaseTo 6 d)
      | 6 => if !d.peerUp then d else if a.rollingBack then finishRollback a d else finishApply a d
      | _ => d

end Sys2Proof.Machine
end

