-- ==== Sys2Proof/Machine/IssuerOps.lean ====
section
/-! DEFINITION. What an issuer does with the completion of a ticket (R96 to R99, R133 to R139, R143, R144). -/

namespace Sys2Proof.Machine

/-- A data-class ticket of a write before its gate has failed (R138, R139): a stale generation abandons the command without a completion, anything
else ends it with Internal Error. -/
def failPreGate (cmd st : Nat) (d : Dev) : Dev := abandonWrite cmd (if st = tkStale then none else some stInternal) d

/-- CHUNKER has ended (R133, R135): each chunk's 16,384 bytes go on to DIGEST. -/
def chunkerDone (cmd first n st : Nat) (out : Bytes) (d : Dev) : Dev :=
  if st ≠ tkOk then failPreGate cmd st d
  else forEach (List.range n) (fun k d =>
    match d.wChunk cmd (first + k) with
    | none => d
    | some x =>
      if x.stage ≠ .cutting then d
      else
        let d1 := d.modChunk cmd (first + k) fun y => { y with data := slice out (chunkBytes * k) chunkBytes }
        match d1.wCmd cmd, d1.wChunk cmd (first + k) with
        | some c, some y => fingerprintChunk c y d1
        | _, _ => d1) d

/-- DIGEST has ended (R135, R136): a zero chunk is ready for the gate, any other waits for its probe. -/
def digestDone (cmd chunk st : Nat) (out : Bytes) (d : Dev) : Dev :=
  if st ≠ tkOk then failPreGate cmd st d
  else match d.wCmd cmd, d.wChunk cmd chunk with
    | some c, some x =>
      if x.stage ≠ .fingerprint then d
      else if isZeroFp d c out then d.modChunk cmd chunk fun y => { y with fp := out, kind := some .zero, stage := .ready }
      else d.modChunk cmd chunk fun y => { y with fp := out, stage := .probe }
    | _, _ => d

/-- Issue the SQUEEZE of every miss that waits for it (R137): a miss alone is squeezed. -/
def pumpSqueeze (d : Dev) : Dev :=
  forEach d.write.cmds (fun c d => forEach (c.chunks.filter fun x => x.stage == .squeeze) (fun x d =>
    if d.tray.outst.any fun o => o.work == .squeeze c.h.id x.idx then d
    else issueTicket iCmd 0 pSqueeze (preGate c) (c.h.id % 2 ^ 18) x.data 15360 0 (.squeeze c.h.id x.idx) d) d) d

/-- SQUEEZE has ended (R137): the chunk is compressed, or raw in 64 crumbs. -/
def squeezeDone (cmd chunk st result : Nat) (out : Bytes) (d : Dev) : Dev :=
  if st ≠ tkOk ∧ st ≠ tkOverBudget then failPreGate cmd st d
  else match d.wChunk cmd chunk with
    | none => d
    | some x =>
      if x.stage ≠ .squeeze then d
      else if st = tkOk then d.modChunk cmd chunk fun y => { y with comp := out, crumbs := result, raw := false, stage := .ready }
      else d.modChunk cmd chunk fun y => { y with comp := [], crumbs := 64, raw := true, stage := .ready }

/-- SEAL has ended (R143, R149): the crumbs stand in staging, of MIRROR2 in both ranges, and go to the mirror; pages that are whole are programmed. -/
def sealChunkDone (cmd chunk st : Nat) (out : Bytes) (d : Dev) : Dev :=
  match d.wChunk cmd chunk with
  | none => d
  | some x =>
    if chunkOver x then d
    else if st ≠ tkOk then abandonChunk cmd chunk d
    else
      let d1 := forEach x.copies (fun p d => writeRanges p.ranges out d) d
      let d2 := d1.modGrp x.jsn fun g => { g with sealed := true }
      moveOn (forEach (x.copies.flatMap fun p => p.ranges.map (·.page)) programStage d2)

/-- MAPWALK of a chunk has ended (R139, R144): committed, or its control phase runs once more after a failed compare. -/
def mapwalkDone (cmd chunk st : Nat) (d : Dev) : Dev :=
  match d.wChunk cmd chunk with
  | none => d
  | some x =>
    if x.stage ≠ .mapwalk then d
    else if st = tkOk then moveOn (d.modChunk cmd chunk fun y => { y with jcount := 0 })
    else if st = tkCompareFail then retryControl cmd chunk d
    else abandonChunk cmd chunk d

/-- PLACE of a chunk has ended (R121, R139, R144): the chunk's group reaches its control commit. -/
def placeDone (cmd chunk st : Nat) (d : Dev) : Dev :=
  match d.wCmd cmd, d.wChunk cmd chunk with
  | some c, some x =>
    if x.stage ≠ .place then d
    else if st = tkOk then
      match d.grp x.jsn with
      | some g => moveOn (commitChunk g.recs c x d)
      | none => d
    else if st = tkCompareFail then retryControl cmd chunk d
    else abandonChunk cmd chunk d
  | _, _ => d

/-- The control ticket of a group that belongs to no write has ended (R96, R144): the group commits; where the ticket failed, the steward takes the
step up again with a new SEQ (log entry 42). -/
def groupDone (o : Outst) (jsn st : Nat) (d : Dev) : Dev :=
  match d.grp jsn with
  | none => d
  | some g =>
    if g.stage ≠ .reserved then d
    else if st = tkOk then moveOn (forEach g.recs deadQueue (commitGroup jsn g.recs d))
    else issueTicket o.tk.issuer o.tk.plane o.tk.pers none o.tk.job (groupBytes d g) o.tk.outLimit o.tk.args (.group jsn) d

/-- What the completion of a ticket with a status moves on. -/
def workDone (o : Outst) (st result : Nat) (out : Bytes) (d : Dev) : Dev :=
  match o.work with
  | .ext => d
  | .chunker cmd first n => chunkerDone cmd first n st out d
  | .digest cmd chunk => digestDone cmd chunk st out d
  | .squeeze cmd chunk => squeezeDone cmd chunk st result out d
  | .seal cmd chunk => sealChunkDone cmd chunk st out d
  | .mapwalk cmd chunk => mapwalkDone cmd chunk st d
  | .place cmd chunk => placeDone cmd chunk st d
  | .group jsn => groupDone o jsn st d
  | .repoint slot => repointDone slot st d
  | .split nsg leaf => splitDone nsg leaf st d
  | .merge h step => mergeDone h step st out d
  | .unseal rd chunk => unsealDone rd chunk st out d
  | .unsqueeze rd chunk => unsqueezeDone rd chunk st out d
  | .mover _ h => moverDone h st out d
  | .streamSeal u seq => sealDone u seq st out d
  | .streamOpen u seq => openDone u seq st result out d

/-- ISSUER_COMPLETION (R96 to R99): an issuer takes the oldest completion sent to it for a SEQ. Only the first for a SEQ it holds outstanding counts;
one of a past generation counts as STALE; after a CRC failure the ticket is issued once more. -/
def issuerCompletion (issuer seq : Nat) (d : Dev) : Dev :=
  match d.tray.cpls.find? fun c => c.issuer == issuer && c.seq == seq with
  | none => d
  | some c =>
    let d1 : Dev := { d with tray := { d.tray with cpls := d.tray.cpls.erase c } }
    match d1.outst issuer seq with
    | none => d1
    | some o =>
      let st := if ticketStale d1 o.tk then tkStale else c.status
      if st = tkCrcFail ∧ !o.crcReissued then reissueTicket o false d1
      else
        let d2 : Dev := { d1 with tray := { d1.tray with outst := d1.tray.outst.filter fun x => !isOut issuer seq x } }
        workDone o st c.result (d2.memBytes o.tk.outAddr c.outLen) d2

end Sys2Proof.Machine
end

