-- ==== Sys2Proof/Machine/Settle.lean ====
section
/-! DEFINITION. What goes on inside the head after a command, as far as it waits for nothing outside: the pieces of internal work that the command
has made possible, and the level registers that follow from the state. -/

namespace Sys2Proof.Machine

/-- Nothing inside the head waits to go on: no command, write, group or batch in flight, no map, media, snapshot or stream work, no pairing, join,
adoption or restore. -/
def quiet (d : Dev) : Bool :=
  d.write.cmds.isEmpty && d.write.groups.isEmpty && d.write.batches.isEmpty &&
  d.nvm.cmds.isEmpty && d.nvm.ctrls.isEmpty && d.nvm.rings.ents.isEmpty && d.nvm.streams.isEmpty && d.nvm.walks.isEmpty &&
  d.nvm.splits.isEmpty && d.net.erred.isEmpty &&
  d.map.roots.isEmpty && d.map.evb.isEmpty && d.map.pageIns.isEmpty && d.map.stalled.isEmpty && d.map.deferred.isEmpty &&
  d.map.wbDue.isEmpty && d.map.cut.isNone &&
  d.med.moves.isEmpty && d.med.merges.isEmpty && d.med.results.isEmpty && d.med.failWalk.isEmpty && d.med.lost.isEmpty &&
  d.med.lossWalk.isEmpty && d.med.superseded.isEmpty &&
  d.sec.writing.isNone && !d.sec.rewrite && d.sec.raise.isNone && !d.sec.replBusy && d.sec.pairing.phase == 0 &&
  d.per.joint.isNone && d.per.tables.isEmpty && d.per.releasing.isEmpty && !d.per.adopted &&
  (d.getF R.PER_STATE_STATE == 0 || d.getF R.PER_STATE_STATE == 1 || d.getF R.PER_STATE_STATE == 7) && d.hth.restore == 0

/-- Work of the fabric and host queues goes on. -/
def pumpQueues (d : Dev) : Dev := pumpForward (pumpHeld (pumpNsDelete (pumpUp (queueLost (drainErred d)))))

/-- Work of the write path, map and media goes on. -/
def pumpStorage (d : Dev) : Dev :=
  let d1 := pumpSlots (pumpAnchor (pumpPageIns (resumeStalled (pumpSqueeze d))))
  moveOn (pumpMedia (pumpWalks (pumpSplits (pumpJobs (pumpSnapCmds d1)))))

/-- Work between the heads goes on: keys and pairing, joint words, joins, adoption, hand-over of instances. -/
def pumpHeads (d : Dev) : Dev :=
  let d1 := pumpVoters (pumpJoint (pumpPairing (pumpSec d)))
  pumpRestore (pumpReleases (pumpLineWb (pumpArrived (pumpAdopted (pumpTables (pumpJoin d1))))))

/-- One round of internal work. -/
def pumpRound (d : Dev) : Dev := pumpStreams (pumpHeads (pumpStorage (pumpQueues d)))

/-- Level registers that follow from the rest of the state (R308, R511, R516, R543). -/
def syncLevels (d : Dev) : Dev := syncSource (syncHoldoff (syncOverlay (syncPla d)))

/-- After a command: internal work goes on in two rounds, which carry what the first set free a step further; the rest waits for the next
command (log entry 43). -/
def settleDown (d : Dev) : Dev := syncLevels (if quiet d then d else pumpRound (pumpRound d))

end Sys2Proof.Machine
end

