-- ==== Sys2Proof/Machine/State.lean ====
section
/-! DEFINITION. The state of the head: everything it holds and the queue of commands that wait, with the two ways a step can end
without a next state, and the state right after the power came on with no supply sequence run yet. -/

namespace Sys2Proof.Machine

/-- The head and the commands waiting to be taken, first in, first out. -/
structure State where
  dev : Dev
  pending : List Instr
  deriving DecidableEq, Repr

/-- Faults. No command of this hardware ends a run: every error the spec describes is an effect on the head. -/
inductive Fault where
  /-- Raised by no meaning: the spec gives every command an effect, so no command ends in a fault; safe, since it never happens. -/
  | none
  deriving DecidableEq, Repr

/-- Refusals. -/
inductive Refusal where
  /-- What an arm of the dispatch answers for a command without a meaning; no arm does, so it never happens, and that is safe. -/
  | notModelled (mnemonic : String)
  deriving DecidableEq, Repr

/-- The machine right after reset: no command waits. -/
def State.reset : State := ⟨.reset, []⟩

end Sys2Proof.Machine
end

