-- ==== Sys2Proof/Machine/RegAccess.lean ====
section
/-! DEFINITION. Host accesses to the registers through BAR0 (R13 to R20, R44, R573): access codes, latches, the registers that show a selected
item, and what a write sets off. -/

namespace Sys2Proof.Machine

/-! ## Reads -/

/-- A host access that the Graold ignores (R16, R520): event 0501h and the count. -/
def accessError (bar off size : Nat) (d : Dev) : Dev := (d.post 0x0501 [bar, off, size]).err R.E_HEP_ACCESS_ERR

/-- Number of a queue pair's state (`TRN_QP_STATE.STATE`). -/
def qpStateNum (s : QpState) : Nat :=
  match s with
  | .reset => 0 | .init => 1 | .rtr => 2 | .rts => 3 | .err => 4

/-- Spread paths that are not suspended (`TRN_QP_PEER.PATHS_UP`). -/
def pathsUp (d : Dev) (n : Nat) : Nat :=
  let q := d.qp n
  if q.spread then ((List.range (pathCount d n)).filter fun i => !(tabGet pathFresh q.paths i).suspended).length else 0

/-- A register of the view of a queue pair (R380). -/
def qpView (d : Dev) (n o : Nat) : Nat :=
  let q := d.qp n
  match o with
  | 0x00 => qpStateNum q.st + 8 * b2n q.spread + 2 ^ 16 * (q.gen % 2 ^ 16)
  | 0x08 => q.dest % 2 ^ 24 + 2 ^ 24 * (q.pmtu % 4) + 2 ^ 32 * ((if q.spread then 0 else q.port) % 16) + 2 ^ 36 * (pathsUp d n % 128) +
      2 ^ 48 * (q.inst % 1024)
  | 0x10 => q.sendPsn % 2 ^ 24 + 2 ^ 32 * (q.recvPsn % 2 ^ 24)
  | 0x18 => q.ackPsn % 2 ^ 24 + 2 ^ 24 * (Nat.min q.timeouts 7)
  | 0x20 => Nat.min (q.rate / 10 ^ 8) 0x3FFF + 2 ^ 16 * (Nat.min q.calm 255) + 2 ^ 24 * (Nat.min q.cnps 15)
  | 0x28 => if q.spread then (q.nextMsn + 2 ^ 32 - 1) % 2 ^ 32 + 2 ^ 32 * (q.doneRx % 2 ^ 32) else 0
  | 0x30 => q.txBytes % 2 ^ 64
  | 0x38 => q.rxBytes % 2 ^ 64
  | 0x40 => q.retx % 2 ^ 64
  | _ => 0

/-- A register of the view of a memory window (R377, R380). -/
def windowView (d : Dev) (w o : Nat) : Nat :=
  let x := d.win w
  match o with
  | 0x00 => w % 4096 + 4096 * (x.tag % 2 ^ 20)
  | 0x08 => x.base % 2 ^ 36
  | 0x10 => x.len % 2 ^ 36
  | 0x18 => b2n x.valid + 2 * (x.rights % 8) + 256 * (x.qpn % 2 ^ 14)
  | _ => 0

/-- The selected slice (`INS_SLICE_STATE`). -/
def sliceView (d : Dev) : Nat :=
  let x := d.slice (d.getF R.INS_SLICE_SEL_SLICE)
  b2n x.bound + 2 * (x.nq % 8) + 2 ^ 16 * (x.gen % 2 ^ 16) + 2 ^ 32 * (x.pasid % 2 ^ 20) + 2 ^ 52 * (x.inst % 1024)

/-- A register of the selected digest context (R481, R483); the others are registers as usual. -/
def digestView (d : Dev) (a o : Nat) : Nat :=
  let c := d.digest (dgSel d)
  if o = 0x08 then b2n c.busy + 2 * b2n c.done + 4 * (c.errs % 16)
  else if o = 0x18 then c.msg.length % 2 ^ 64
  else if 0x40 ≤ o ∧ o < 0x80 then dgWord c ((o - 0x40) / 4)
  else d.rd a

/-- The whole value of the register at an SA, as a read returns it: write-only fields hold zero (R19), views show their item, `TRY_TC_BAKE_NS`
counts up to now, and `TRY_CMP_WIN` the compare faults of the last second. -/
def regValue (d : Dev) (a : Nat) : Nat :=
  match saParts a with
  | (st, u, b, o) =>
    if st = 0x0B ∧ 1 ≤ b ∧ b ≤ 8 then qpView d (d.getF (R.TRN_QP_SEL_QPN (b - 1))) o
    else if st = 0x0B ∧ b = 9 then windowView d (d.getF R.TRN_MW_SEL_WINDOW) o
    else if st = 0x0D ∧ a = R.INS_SLICE_STATE then sliceView d
    else if st = 0x04 ∧ b = 2 then digestView d a o
    else if st = 0x08 ∧ a = R.TRY_TC_BAKE_NS u then (d.rd a + (if d.power u = 2 then d.now - (d.trayX u).bakeSince else 0)) % 2 ^ 64
    else if a = R.TRY_CMP_WIN then Nat.min (cmpWindow d).length 17
    else d.rd a

/-- Clear the fields of a register that a read clears (R19, R20). -/
def clearRc (r : RegRow) (a : Nat) (d : Dev) : Dev :=
  forEach (r.fields.filter fun f => f.acc == .rc) (fun f d => d.setF ⟨a, f.lo, f.w⟩ 0) d

/-- What a read of a register does besides returning its value: RC fields clear, a result word read early is an error (R483). -/
def readEffect (r : RegRow) (a : Nat) (d : Dev) : Dev :=
  match saParts a with
  | (st, _, b, o) =>
    if st = 0x04 ∧ b = 2 ∧ 0x40 ≤ o ∧ o < 0x80 ∧ !(d.digest (dgSel d)).done then dgErr (dgSel d) 0 d else clearRc r a d

/-- Four bytes of the host's structure table at a table offset (R32). -/
def mirrorWord (d : Dev) (o : Nat) : Nat := fieldAt d.hep.table o 4

/-- Four bytes of the event window (R576). -/
def evtWindowWord (d : Dev) (sub o : Nat) : Nat :=
  leNat ((List.range 4).map fun i => evtWindowByte d sub (o + i))

/-- `CLK_POWER` shows the estimated power of this moment, for which the spec gives no rule: a free value (log entry 1). -/
def refreshPower (a : Nat) (d : Dev) : Dev :=
  if a = R.CLK_POWER then
    let x := d.drawNat 4096
    x.2.setF R.CLK_POWER_DECIWATTS x.1
  else d

/-- A 32-bit read at an SA (R15, R17, R32, R576): its value, and the state after it. -/
def read32 (a : Nat) (d : Dev) : Nat × Dev :=
  let d := refreshPower a d
  let d0 := dropLatches d
  match saParts a with
  | (st, u, b, o) =>
    if st = 0x3F then (mirrorWord d (a % 0x400000), d0)
    else if st = 0x03 ∧ u = 0 ∧ 16 ≤ b then (evtWindowWord d b o, d0)
    else match regRow a with
      | some r =>
        let v := regValue d a
        let d1 := readEffect r a d0
        if r.bits = 64 then (v % 2 ^ 32, { d1 with readLatch := some (a, v / 2 ^ 32) }) else (v % 2 ^ 32, d1)
      | none =>
        if a < 4 then (0, d0)
        else match regRow (a - 4) with
          | some r =>
            if r.bits ≠ 64 then (0, d0)
            else match d.readLatch with
              | some (x, h) => (if x = a - 4 then h else regValue d (a - 4) / 2 ^ 32, d0)
              | none => (regValue d (a - 4) / 2 ^ 32, d0)
          | none => (0, d0)

/-- A 64-bit read (R17, R18): a 64-bit register at once, otherwise two 32-bit reads, the lower address first. -/
def read64 (a : Nat) (d : Dev) : Nat × Dev :=
  match regRow a with
  | some r =>
    if r.bits = 64 then (regValue d a % 2 ^ 64, readEffect r a (dropLatches d))
    else
      let x := read32 a d
      let y := read32 (a + 4) x.2
      (x.1 + 2 ^ 32 * y.1, y.2)
  | none =>
    let x := read32 a d
    let y := read32 (a + 4) x.2
    (x.1 + 2 ^ 32 * y.1, y.2)

/-- An access of a size at an offset is a naturally aligned 32-bit or 64-bit one (R16). -/
def accessOk (a size : Nat) : Bool := (size == 4 && a % 4 == 0) || (size == 8 && a % 8 == 0)

/-- A host read of BAR0 (R15 to R17). -/
def hostReadReg (a size : Nat) (d : Dev) : Dev :=
  if !accessOk a size then (accessError 0 a size (dropLatches d)).emit (.busRead 0)
  else
    let x := if size = 4 then read32 a d else read64 a d
    x.2.emit (.busRead x.1)

/-! ## Writes -/

/-- The value of a register after a write by its access codes (R19): RW fields take the written bits, RW1C bits written 1 clear, the rest
keeps. -/
def writtenValue (r : RegRow) (old v : Nat) : Nat :=
  r.fields.foldl (fun x f => match f.acc with
    | .rw => setBitsAt x f.lo f.w (v / 2 ^ f.lo)
    | .rw1c => if bitAt v f.lo then setBitsAt x f.lo f.w 0 else x
    | _ => x) old

/-- Write a register's bits by their access codes. -/
def plainWrite (r : RegRow) (a v : Nat) (d : Dev) : Dev := hostSetAll a (d.wr a (writtenValue r (d.rd a) v))

/-- A write of 1 to CLR clears the counters of its row and their SAT bits (R573). -/
def clearSat (x : SatRow) (a : Nat) (d : Dev) : Dev :=
  let d1 := forEach x.ctrs (fun o d => d.wr (a - x.off + o) 0) d
  d1.setF ⟨a, 0, x.ctrs.length⟩ 0

/-- The SAT row of a register. -/
def satRow (a : Nat) : Option SatRow :=
  match saParts a with
  | (st, u, b, o) => satRows.find? fun r => r.stw == st && r.off == o && inSpan u r.unit && inSpan b r.sub

/-- `IMG_CMD` (R87). -/
def writeImgCmd (v : Nat) (d : Dev) : Dev :=
  let slot := v / 16 % 2
  match v % 16 with
  | 1 => imgVerify d
  | 2 => imgWriteSlot slot d
  | 3 => imgApply d
  | 4 => imgApplySlot slot d
  | 5 => imgAbort d
  | 6 => raiseSvn d
  | 7 => imgReapply (v / 256 % 256) d
  | 8 => imgRevoke (v / 2 ^ 16 % 4) d
  | 9 => imgApplyOos d
  | _ => d

/-- The media registers with effects (R293, R300, R335, R338). -/
def writeMediaCmd (u b v : Nat) (d : Dev) : Dev :=
  if u = 32 then (d.when (bitAt v 0) scrubAll).when (bitAt v 1) startLossWalk
  else if b = 0 then d.when (bitAt v 0) (moduleFail u)
  else ((d.when (bitAt v 0) (linkRetrain u)).when (bitAt v 1) (mediaLinkDown u)).when (bitAt v 2) (mediaLinkUp u)

/-- `MAP_PIN_KEY` and `MAP_PIN_CTL` (R44, R258): a SPAN above 8 is ignored and the field keeps its value. -/
def writePin (r : RegRow) (a v : Nat) (d : Dev) : Dev :=
  let k := (a % 0x200 - 0x100) / 16
  if a = R.MAP_PIN_CTL k ∧ v / 16 % 16 > 8 then
    let d1 := d.setB (R.MAP_PIN_CTL_VALID k) (bitAt v 0)
    let f := (R.MAP_PIN_CTL k, 0)
    { d1 with img := { d1.img with hostSet := d1.img.hostSet.filter (fun x => x != f) ++ [f] } }
  else plainWrite r a v d

/-- `INS_MQ_CTL` (R423, R437): ring sizes outside 4 to 12 leave their fields; EN from 0 to 1 starts the rings. -/
def writeMqCtl (v : Nat) (d : Dev) : Dev :=
  let up := v / 2 ^ 12 % 16
  let dn := v / 2 ^ 16 % 16
  let okN := fun n => decide (4 ≤ n ∧ n ≤ 12)
  let d1 := d.setF R.INS_MQ_CTL_VECTOR (v / 2)
  let d2 := if okN up then d1.setF R.INS_MQ_CTL_UP_LOG2 up else d1
  let d3 := if okN dn then d2.setF R.INS_MQ_CTL_DN_LOG2 dn else d2
  if bitAt v 0 then mqEnable d3 else d3.setB R.INS_MQ_CTL_EN false

/-- `SEC_LC_CMD` (R486): other OP values are ignored. -/
def writeLcCmd (v : Nat) (d : Dev) : Dev :=
  let c := v / 2 ^ 16 % 2 ^ 16
  match v % 16 with
  | 1 => provision c d
  | 2 => enroll c (v / 16 % 4) d
  | 3 => fieldLock c d
  | 4 => returnCmd c d
  | 5 => challenge d
  | 6 => respondCmd d
  | _ => d

/-- Registers of the digest engine (R481, R482). -/
def writeDigest (r : RegRow) (a o v : Nat) (d : Dev) : Dev :=
  if o = 0x04 ∧ bitAt v 4 then digestInit (v % 8) (bitAt v 3) (v / 256 % 256) d
  else if o = 0x08 then
    d.modDigest (dgSel d) fun c => { c with errs := (List.range 4).foldl (fun e i => if bitAt v (i + 2) then setBitsAt e i 1 0 else e) c.errs }
  else if o = 0x0C then digestDataWrite v d
  else if o = 0x10 then digestKeyWrite v d
  else if o = 0x14 then digestFinal (v % 4) (v / 256) d
  else plainWrite r a v d

/-- Registers of a raw cipher context (R478 to R480): GO acts on the direction, key source and priority of the same write. -/
def writeCipher (n : Nat) (r : RegRow) (a o v : Nat) (d : Dev) : Dev :=
  if 0x20 ≤ o ∧ o < 0x40 then cipherKeyWrite n ((o - 0x20) / 8) false v d
  else if 0x40 ≤ o ∧ o < 0x60 then cipherKeyWrite n ((o - 0x40) / 8) true v d
  else if o = 0 then ((plainWrite r a v d).when (bitAt v 0) (cipherGo n)).when (bitAt v 1) (cipherAbort n)
  else plainWrite r a v d

/-- Registers of the Security steward with effects (R458 and the rules it names). -/
def writeSec (b o v : Nat) (r : RegRow) (a : Nat) (d : Dev) : Dev :=
  if b = 2 then writeDigest r a o v d
  else if b ≥ 16 then writeCipher (b - 16) r a o v d
  else if o = 0x04 then writeLcCmd v d
  else if o = 0x38 then d.when (bitAt v 16) (raiseCmd (v % 4096))
  else if o = 0x44 then (d.when (bitAt v 8) (replWrite (v % 64) true)).when (bitAt v 9) (replWrite (v % 64) false)
  else plainWrite r a v d

/-- A whole register is written (R15, R18, R19): registers whose write sets something off do so, several orders in one write in the order of
their bits; all others take the written value by their access codes. -/
def writeReg (r : RegRow) (a v : Nat) (d : Dev) : Dev :=
  match satRow a with
  | some x => if bitAt v 8 then clearSat x a d else d
  | none =>
    match saParts a with
    | (st, u, b, o) =>
      if a = R.IMG_CMD then writeImgCmd v d
      else if a = R.TRY_TEST_PERIOD then testPeriodWrite v d
      else if a = R.TRY_TEST_CMD then testRequest (v % 32) (v / 256 % 16) (bitAt v 31) d
      else if a = R.CMQ_DIRTY_BUDGET then dirtyBudgetWrite v d
      else if a = R.MAP_CMD then (d.when (bitAt v 0) mapInvalidate).when (bitAt v 1) mapAnchorCmd
      else if st = 0x10 ∧ 0x100 ≤ o then writePin r a v d
      else if a = R.MED_CMD ∨ (st = 0x12 ∧ u < 32 ∧ o = 4) then writeMediaCmd u b v d
      else if st = 0x0A ∧ b = 0 ∧ o = 4 then (d.when (bitAt v 0) (portDown u)).when (bitAt v 1) (portUpCmd u)
      else if a = R.INS_MQ_CTL then writeMqCtl v d
      else if a = R.INS_UP_HEAD then upHeadWrite v d
      else if a = R.INS_DN_TAIL then dnTailWrite v d
      else if st = 0x13 ∧ 1 ≤ u ∧ o = 0x24 then
        ((d.when (bitAt v 0) (streamStart u)).when (bitAt v 1) (streamResume u)).when (bitAt v 2) (streamStop u)
      else if st = 0x04 then writeSec b o v r a d
      else if a = R.PER_CMD then d.when (bitAt v 0) (selfFence 4)
      else if a = R.HTH_CMD then d.when (bitAt v 0) hostRestart
      else if a = R.CLK_CAL_CMD then calibrationRequest (v % 8) (v / 256 % 32) (bitAt v 31) d
      else plainWrite r a v d

/-- A 32-bit write at an SA (R15, R18): a low half goes into the latch, a high half writes both halves at once or is ignored with an access
event. -/
def write32 (a v : Nat) (d : Dev) : Dev :=
  let d0 := dropLatches d
  match regRow a with
  | some r => if r.bits = 64 then { d0 with writeLatch := some (a, v % 2 ^ 32) } else writeReg r a (v % 2 ^ 32) d0
  | none =>
    if a < 4 then d0
    else match regRow (a - 4) with
      | some r =>
        if r.bits ≠ 64 then d0
        else match d.writeLatch with
          | some (x, l) => if x = a - 4 then writeReg r (a - 4) (l + 2 ^ 32 * (v % 2 ^ 32)) d0 else accessError 0 a 4 d0
          | none => accessError 0 a 4 d0
      | none => d0

/-- A 64-bit write (R18): a 64-bit register at once, otherwise two 32-bit writes, the lower address first. -/
def write64 (a v : Nat) (d : Dev) : Dev :=
  match regRow a with
  | some r => if r.bits = 64 then writeReg r a (v % 2 ^ 64) (dropLatches d) else write32 (a + 4) (v / 2 ^ 32) (write32 a v d)
  | none => write32 (a + 4) (v / 2 ^ 32) (write32 a v d)

/-- A host write of BAR0 (R15, R16, R18). -/
def hostWriteReg (a size v : Nat) (d : Dev) : Dev :=
  if !accessOk a size then accessError 0 a size (dropLatches d)
  else if size = 4 then write32 a v d else write64 a v d

/-! ## The commands -/

/-- REGISTER_WRITE (R15): a write of 4 or 8 bytes at an SA. -/
def registerWrite (a size v : Nat) (d : Dev) : Dev := hostWriteReg a size v d

/-- MISALIGNED_ACCESS (R16). -/
def misalignedAccess (wr : Bool) (a size v : Nat) (d : Dev) : Dev := if wr then hostWriteReg a size v d else hostReadReg a size d

/-- LOW_HALF_READ (R17): a 32-bit read at the register's own address. -/
def lowHalfRead (a : Nat) (d : Dev) : Dev := hostReadReg a 4 d

/-- HIGH_HALF_READ (R17): a 32-bit read four bytes above the register's address. -/
def highHalfRead (a : Nat) (d : Dev) : Dev := hostReadReg (a + 4) 4 d

/-- LOW_HALF_WRITE (R18). -/
def lowHalfWrite (a v : Nat) (d : Dev) : Dev := hostWriteReg a 4 v d

/-- HIGH_HALF_WRITE (R18). -/
def highHalfWrite (a v : Nat) (d : Dev) : Dev := hostWriteReg (a + 4) 4 v d

/-- RW1C_WRITE (R19, R20): commands come one at a time, so no bit is set by hardware within the write. -/
def rw1cWrite (a v : Nat) (d : Dev) : Dev := hostWriteReg a 4 v d

/-- RC_READ (R19, R20): a read of 4 or 8 bytes; RC fields clear. -/
def rcRead (a size : Nat) (d : Dev) : Dev := hostReadReg a size d

/-- CLR (R573): a write of 1 to the CLR bit of a SAT register. -/
def clrWrite (a : Nat) (d : Dev) : Dev := hostWriteReg a 4 256 d

end Sys2Proof.Machine
end

