-- ==== Sys2Proof/Machine/TlpOps.lean ====
section
/-! DEFINITION. What the host endpoint does with received TLPs: BAR and ROM decode, BAR2, configuration (R517, R519 to R521, R530, R532). -/

namespace Sys2Proof.Machine

/-! ## BAR2 (R519, R520, R530) -/

/-- One doubleword of an MSI-X table entry: address low and high, data, vector control. -/
def vectorWord (e : MsixEnt) (k : Nat) : Nat :=
  match k with
  | 0 => e.addr % 2 ^ 32
  | 1 => e.addr / 2 ^ 32 % 2 ^ 32
  | 2 => e.data % 2 ^ 32
  | _ => b2n e.masked

/-- Write one doubleword of an MSI-X table entry; clearing the mask sends a pending message (R530). -/
def writeVectorWord (n k v : Nat) (d : Dev) : Dev :=
  match k with
  | 0 => modVector n (fun e => { e with addr := e.addr / 2 ^ 32 * 2 ^ 32 + v % 2 ^ 32 / 4 * 4 }) d
  | 1 => modVector n (fun e => { e with addr := e.addr % 2 ^ 32 + v % 2 ^ 32 * 2 ^ 32 }) d
  | 2 => modVector n (fun e => { e with data := v % 2 ^ 32 }) d
  | _ => if bitAt v 0 then modVector n (fun e => { e with masked := true }) d else msixUnmask n d

/-- Doubleword `i` of the pending bits. -/
def pbaWord (d : Dev) (i : Nat) : Nat :=
  (List.range 32).foldl (fun x k => if tabGet false d.hep.pba (32 * i + k) then x + 2 ^ k else x) 0

/-- A doubleword of the MSI-X table or the PBA. -/
def bar2Word (d : Dev) (off : Nat) : Nat :=
  if off < 0x2008000 then vectorWord (d.vector ((off - 0x2000000) / 16)) (off / 4 % 4) else pbaWord d ((off - 0x2008000) / 4)

/-- A BAR2 read (R520): the MSI-X table and PBA in aligned doublewords and quadwords, zero elsewhere, with the access event. -/
def bar2Read (off size : Nat) (d : Dev) : Dev :=
  if 0x2000000 ≤ off ∧ off < 0x2008100 ∧ accessOk off size then
    d.emit (.busRead (bar2Word d off + (if size = 8 then 2 ^ 32 * bar2Word d (off + 4) else 0)))
  else (accessError 2 off size d).emit (.busRead 0)

/-- A doorbell write (R416, R520): the doorbell of an unbound slice, or beyond its queues, is ignored with the access event. -/
def doorbell (off v : Nat) (d : Dev) : Dev :=
  let s := off / 4096
  let q := off % 4096 / 8
  if !(d.slice s).bound ∨ q ≥ (d.slice s).nq then accessError 2 off 4 d
  else if off % 8 = 0 then sqTailDoorbell s q v d else cqHeadDoorbell s q v d

/-- A BAR2 write (R520): an aligned 32-bit doorbell write, or aligned doublewords and quadwords of the MSI-X table; all else is ignored with
the access event. -/
def bar2Write (off size v : Nat) (d : Dev) : Dev :=
  if off < 0x1000000 ∧ size = 4 ∧ off % 4 = 0 then doorbell off v d
  else if 0x2000000 ≤ off ∧ off < 0x2008000 ∧ accessOk off size then
    let n := (off - 0x2000000) / 16
    let k := off / 4 % 4
    let d1 := writeVectorWord n k v d
    if size = 8 then writeVectorWord n (k + 1) (v / 2 ^ 32) d1 else d1
  else accessError 2 off size d

/-- BAR2_ACCESS (R520). -/
def bar2Access (wr : Bool) (off size v : Nat) (d : Dev) : Dev := if wr then bar2Write off size v d else bar2Read off size d

/-! ## The expansion ROM (R521) -/

/-- The header of the expansion ROM: its bytes below 200h. -/
def romHeader (d : Dev) : Bytes :=
  leBytes 2 0xAA55 ++ zeros 22 ++ leBytes 2 0x20 ++ zeros 6 ++ leBytes 4 0x52494350 ++ leBytes 2 Config.vendorId ++ leBytes 2 0x8100 ++
    leBytes 2 0 ++ leBytes 2 0x18 ++ leBytes 1 3 ++ leBytes 3 0x018000 ++ leBytes 2 0x0800 ++ leBytes 2 (fieldAt d.hep.table 12 2) ++
    leBytes 1 0xFF ++ leBytes 1 0x80 ++ leBytes 2 0 ++ zeros 456

/-- Bytes of the expansion ROM from an offset. -/
def romBytes (d : Dev) (off n : Nat) : Nat := fieldAt (romHeader d ++ d.hep.table) off n

/-! ## Configuration -/

/-- A doubleword of the configuration header (R517, R519; the header's layout is the PCIe standard's, PRESUMED, log entry 44): identity,
command, class and revision, BARs. What the spec does not state there is a free value. -/
def cfgWord (reg : Nat) (d : Dev) : Nat × Dev :=
  match reg with
  | 0x00 => (Config.vendorId % 2 ^ 16 + 2 ^ 16 * 0x8100, d)
  | 0x04 => (2 * b2n d.hep.memEn + 4 * b2n (d.getB R.HEP_FUNC_BME), d)
  | 0x08 => (d.getF R.HEP_ID_REVISION + 256 * 0x018000, d)
  | 0x10 => (tabGet 0 d.hep.bar 0 % 2 ^ 32 + 4, d)
  | 0x14 => (tabGet 0 d.hep.bar 0 / 2 ^ 32, d)
  | 0x18 => (tabGet 0 d.hep.bar 2 % 2 ^ 32 + 4, d)
  | 0x1C => (tabGet 0 d.hep.bar 2 / 2 ^ 32, d)
  | 0x20 => (0, d)
  | 0x24 => (0, d)
  | 0x30 => (d.hep.romBar + b2n d.hep.romEn, d)
  | _ => d.drawNat (2 ^ 32)

/-- Set a BAR's base; the bits below its size stay zero. -/
def setBar (k size v : Nat) (d : Dev) : Dev := { d with hep := { d.hep with bar := tabPut d.hep.bar k (v / size * size) } }

/-- A write of the configuration header: Memory Space Enable and Bus Master Enable, BARs, the expansion ROM's base and enable; other
doublewords take no effect here. -/
def cfgPut (reg v : Nat) (d : Dev) : Dev :=
  let b0 := tabGet 0 d.hep.bar 0
  let b2 := tabGet 0 d.hep.bar 2
  let w := v % 2 ^ 32
  match reg with
  | 0x04 =>
    let d1 : Dev := { d with hep := { d.hep with memEn := bitAt v 1 } }
    if bitAt v 2 then busMasterEnable d1 else busMasterDisable false d1
  | 0x10 => setBar 0 (2 ^ 28) (b0 / 2 ^ 32 * 2 ^ 32 + w) d
  | 0x14 => setBar 0 (2 ^ 28) (b0 % 2 ^ 32 + w * 2 ^ 32) d
  | 0x18 => setBar 2 (2 ^ 26) (b2 / 2 ^ 32 * 2 ^ 32 + w) d
  | 0x1C => setBar 2 (2 ^ 26) (b2 % 2 ^ 32 + w * 2 ^ 32) d
  | 0x30 => { d with hep := { d.hep with romBar := w / 2 ^ 20 * 2 ^ 20, romEn := bitAt v 0 } }
  | _ => d

/-- MSI-X Enable and Function Mask: pending messages go once they may (R530). -/
def msixControl (enable mask : Bool) (d : Dev) : Dev :=
  sendAllPending ({ d with hep := { d.hep with funcMask := mask } }.setB R.HEP_FUNC_MSIX_EN enable)

/-- The host puts an uncorrectable error in the fatal or the non-fatal class (R532). -/
def setSeverity (e : AerErr) (fatal : Bool) (d : Dev) : Dev :=
  let f := d.hep.fatalMade.filter fun x => x != e
  let n := d.hep.nonFatalMade.filter fun x => x != e
  { d with hep := { d.hep with fatalMade := if fatal then f ++ [e] else f, nonFatalMade := if fatal then n else n ++ [e] } }

/-- A status bit is cleared by writing 1; the header log is free again when the bit of the error it holds clears (PCIe, PRESUMED, log entry 44). -/
def clearStatus (e : AerErr) (d : Dev) : Dev :=
  { d with hep := { d.hep with
    aerStatus := d.hep.aerStatus.filter fun x => x != e
    hdrLog := match d.hep.hdrLog with
      | some l => if l.1 = e then none else some l
      | none => none } }

/-! ## Received TLPs -/

/-- Answer Unsupported Request, and report it (R532). -/
def unsupportedTlp (d : Dev) : Dev := aerReport .unsupportedRequest [] (d.emit (.pcieError 3 (aerNumber .unsupportedRequest)))

/-- The window that decodes a memory address (R519, R521, R532): 0 BAR0, 1 BAR2, 2 the ROM, with the offset in it. -/
def decodeMem (d : Dev) (addr : Nat) : Option (Nat × Nat) :=
  let b0 := tabGet 0 d.hep.bar 0
  let b2 := tabGet 0 d.hep.bar 2
  if !d.hep.memEn then none
  else if b0 ≤ addr ∧ addr < b0 + 2 ^ 28 then some (0, addr - b0)
  else if b2 ≤ addr ∧ addr < b2 + 2 ^ 26 then some (1, addr - b2)
  else if d.hep.romEn ∧ d.hep.romBar ≤ addr ∧ addr < d.hep.romBar + 2 ^ 20 then some (2, addr - d.hep.romBar)
  else none

/-- A memory read. -/
def memReadTlp (addr size : Nat) (d : Dev) : Dev :=
  match decodeMem d addr with
  | some (0, off) => hostReadReg off size d
  | some (1, off) => bar2Read off size d
  | some (_, off) => d.emit (.busRead (romBytes d off (Nat.min size 4096)))
  | none => unsupportedTlp d

/-- A memory write; the ROM is read-only and drops it. -/
def memWriteTlp (addr size v : Nat) (d : Dev) : Dev :=
  match decodeMem d addr with
  | some (0, off) => hostWriteReg off size v d
  | some (1, off) => bar2Write off size v d
  | some (_, _) => d
  | none => unsupportedTlp d

/-- TLP_RECEIVE (R532): a received TLP is decoded, or reported through AER. -/
def tlpReceive (t : Tlp) (d : Dev) : Dev :=
  match t with
  | .memRead a n => memReadTlp a n d
  | .memWrite a n v => memWriteTlp a n v d
  | .cfgRead r =>
    let x := cfgWord r d
    x.2.emit (.busRead x.1)
  | .cfgWrite r v => cfgPut r v d
  | .msixControl e m => msixControl e m d
  | .aerSeverity e f => setSeverity e f d
  | .aerMask e m =>
    let l := d.hep.aerMask.filter fun x => x != e
    { d with hep := { d.hep with aerMask := if m then l ++ [e] else l } }
  | .aerClear e => clearStatus e d
  | .atsControl e => d.setB R.HEP_FUNC_ATS_EN e
  | .otherRequest => unsupportedTlp d
  | .translated a n => if d.getB R.HEP_FUNC_ATS_EN then memReadTlp a n d else unsupportedTlp d
  | .prefixed => aerReport .tlpPrefixBlocked [] d
  | .poisonedWrite => aerReport .poisonedTlp [] d
  | .completion tag status hdr b => dmaReadCompletion tag status hdr b d
  | .error e => aerReport e [] d

end Sys2Proof.Machine
end

