-- ==== Sys2Proof/Machine/ExecAccess.lean ====
section
/-! DEFINITION. The meanings of the commands of family Access: each answers a next state in which only the head has changed. -/

namespace Sys2Proof.Machine

/-- REGISTER_WRITE (R15). -/
def execRegisterWrite (a : Nat) (size : Nat) (v : Nat) (s : State) : Host.Outcome State Fault Refusal :=
  .next { s with dev := settleDown (Machine.registerWrite a size v s.dev) }

/-- MISALIGNED_ACCESS (R16). -/
def execMisalignedAccess (wr : Bool) (a : Nat) (size : Nat) (v : Nat) (s : State) : Host.Outcome State Fault Refusal :=
  .next { s with dev := settleDown (Machine.misalignedAccess wr a size v s.dev) }

/-- LOW_HALF_READ (R17). -/
def execLowHalfRead (a : Nat) (s : State) : Host.Outcome State Fault Refusal :=
  .next { s with dev := settleDown (Machine.lowHalfRead a s.dev) }

/-- HIGH_HALF_READ (R17). -/
def execHighHalfRead (a : Nat) (s : State) : Host.Outcome State Fault Refusal :=
  .next { s with dev := settleDown (Machine.highHalfRead a s.dev) }

/-- LOW_HALF_WRITE (R18). -/
def execLowHalfWrite (a : Nat) (v : Nat) (s : State) : Host.Outcome State Fault Refusal :=
  .next { s with dev := settleDown (Machine.lowHalfWrite a v s.dev) }

/-- HIGH_HALF_WRITE (R18). -/
def execHighHalfWrite (a : Nat) (v : Nat) (s : State) : Host.Outcome State Fault Refusal :=
  .next { s with dev := settleDown (Machine.highHalfWrite a v s.dev) }

/-- RW1C_WRITE (R19). -/
def execRw1cWrite (a : Nat) (v : Nat) (s : State) : Host.Outcome State Fault Refusal :=
  .next { s with dev := settleDown (Machine.rw1cWrite a v s.dev) }

/-- RC_READ (R20). -/
def execRcRead (a : Nat) (size : Nat) (s : State) : Host.Outcome State Fault Refusal :=
  .next { s with dev := settleDown (Machine.rcRead a size s.dev) }

/-- CLR (R573). -/
def execClr (a : Nat) (s : State) : Host.Outcome State Fault Refusal :=
  .next { s with dev := settleDown (Machine.clrWrite a s.dev) }

/-- TLP_RECEIVE (R532). -/
def execTlpReceive (tlp : Tlp) (s : State) : Host.Outcome State Fault Refusal :=
  .next { s with dev := settleDown (Machine.tlpReceive tlp s.dev) }

/-- BAR2_ACCESS (R520). -/
def execBar2Access (wr : Bool) (off : Nat) (size : Nat) (v : Nat) (s : State) : Host.Outcome State Fault Refusal :=
  .next { s with dev := settleDown (Machine.bar2Access wr off size v s.dev) }

end Sys2Proof.Machine
end

