-- ==== Sys2Proof/Machine/ExecAdmin.lean ====
section
/-! DEFINITION. The meanings of the commands of family Admin: each answers a next state in which only the head has changed. -/

namespace Sys2Proof.Machine

/-- FLUSH (R395). -/
def execFlush (o : Origin) (e : Sqe) (cap : Bytes) (s : State) : Host.Outcome State Fault Refusal :=
  .next { s with dev := settleDown (ioCommand 0x00 o e cap s.dev) }

/-- WRITE_ZEROES (R397). -/
def execWriteZeroes (o : Origin) (e : Sqe) (cap : Bytes) (s : State) : Host.Outcome State Fault Refusal :=
  .next { s with dev := settleDown (ioCommand 0x08 o e cap s.dev) }

/-- DATASET_MANAGEMENT (R396). -/
def execDatasetManagement (o : Origin) (e : Sqe) (cap : Bytes) (s : State) : Host.Outcome State Fault Refusal :=
  .next { s with dev := settleDown (ioCommand 0x09 o e cap s.dev) }

/-- SECURE_DEALLOCATE (R398). -/
def execSecureDeallocate (o : Origin) (e : Sqe) (cap : Bytes) (s : State) : Host.Outcome State Fault Refusal :=
  .next { s with dev := settleDown (ioCommand 0x85 o e cap s.dev) }

/-- GET_LOG_PAGE (R401). -/
def execGetLogPage (o : Origin) (e : Sqe) (cap : Bytes) (s : State) : Host.Outcome State Fault Refusal :=
  .next { s with dev := settleDown (Machine.getLogPage o e cap s.dev) }

/-- IDENTIFY (R400). -/
def execIdentify (o : Origin) (e : Sqe) (cap : Bytes) (s : State) : Host.Outcome State Fault Refusal :=
  .next { s with dev := settleDown (Machine.identify o e cap s.dev) }

/-- ABORT (R604). -/
def execAbortCommand (o : Origin) (e : Sqe) (cap : Bytes) (s : State) : Host.Outcome State Fault Refusal :=
  .next { s with dev := settleDown (Machine.abort o e cap s.dev) }

/-- SET_FEATURES (R400). -/
def execSetFeatures (o : Origin) (e : Sqe) (cap : Bytes) (s : State) : Host.Outcome State Fault Refusal :=
  .next { s with dev := settleDown (Machine.setFeatures o e cap s.dev) }

/-- GET_FEATURES (R400). -/
def execGetFeatures (o : Origin) (e : Sqe) (cap : Bytes) (s : State) : Host.Outcome State Fault Refusal :=
  .next { s with dev := settleDown (Machine.getFeatures o e cap s.dev) }

/-- ASYNCHRONOUS_EVENT_REQUEST (R386). -/
def execAsynchronousEventRequest (o : Origin) (e : Sqe) (cap : Bytes) (s : State) : Host.Outcome State Fault Refusal :=
  .next { s with dev := settleDown (Machine.asynchronousEventRequest o e cap s.dev) }

/-- KEEP_ALIVE (R386). -/
def execKeepAlive (o : Origin) (e : Sqe) (cap : Bytes) (s : State) : Host.Outcome State Fault Refusal :=
  .next { s with dev := settleDown (Machine.keepAlive o e cap s.dev) }

/-- KEEP_ALIVE_EXPIRY (R400). -/
def execKeepAliveExpiry (c : Nat) (s : State) : Host.Outcome State Fault Refusal :=
  .next { s with dev := settleDown (Machine.keepAliveExpiry c s.dev) }

/-- NAMESPACE_MANAGEMENT (R386). -/
def execNamespaceManagement (o : Origin) (e : Sqe) (cap : Bytes) (s : State) : Host.Outcome State Fault Refusal :=
  .next { s with dev := settleDown (mediated 0x0D o e cap s.dev) }

/-- NAMESPACE_ATTACHMENT (R386). -/
def execNamespaceAttachment (o : Origin) (e : Sqe) (cap : Bytes) (s : State) : Host.Outcome State Fault Refusal :=
  .next { s with dev := settleDown (mediated 0x15 o e cap s.dev) }

/-- CONNECT (R413). -/
def execConnect (n : Nat) (e : Sqe) (b : Bytes) (s : State) : Host.Outcome State Fault Refusal :=
  .next { s with dev := settleDown (Machine.connect n e b s.dev) }

/-- PROPERTY_GET (R387). -/
def execPropertyGet (o : Origin) (e : Sqe) (cap : Bytes) (s : State) : Host.Outcome State Fault Refusal :=
  .next { s with dev := settleDown (Machine.propertyGet o e cap s.dev) }

/-- PROPERTY_SET (R387). -/
def execPropertySet (o : Origin) (e : Sqe) (cap : Bytes) (s : State) : Host.Outcome State Fault Refusal :=
  .next { s with dev := settleDown (Machine.propertySet o e cap s.dev) }

/-- DISCONNECT (R387). -/
def execDisconnect (o : Origin) (e : Sqe) (cap : Bytes) (s : State) : Host.Outcome State Fault Refusal :=
  .next { s with dev := settleDown (Machine.disconnect o e cap s.dev) }

/-- UNSUPPORTED_COMMAND (R388). -/
def execUnsupportedCommand (o : Origin) (e : Sqe) (cap : Bytes) (s : State) : Host.Outcome State Fault Refusal :=
  .next { s with dev := settleDown (Machine.unsupportedCommand o e cap s.dev) }

/-- NUSE_UPDATE (R400). -/
def execNuseUpdate (nsg : Nat) (s : State) : Host.Outcome State Fault Refusal :=
  .next { s with dev := settleDown (Machine.nuseUpdate nsg s.dev) }

end Sys2Proof.Machine
end

