-- ==== Sys2Proof/Machine/ExecDma.lean ====
section
/-! DEFINITION. The meanings of the commands of family Dma: each answers a next state in which only the head has changed. -/

namespace Sys2Proof.Machine

/-- DMA_READ_COMPLETION (R533). -/
def execDmaReadCompletion (tag : Nat) (status : Nat) (hdr : Bytes) (b : Bytes) (s : State) : Host.Outcome State Fault Refusal :=
  .next { s with dev := settleDown (Machine.dmaReadCompletion tag status hdr b s.dev) }

/-- COMPLETION_TIMEOUT (R533). -/
def execCompletionTimeout (tag : Nat) (s : State) : Host.Outcome State Fault Refusal :=
  .next { s with dev := settleDown (Machine.completionTimeout tag s.dev) }

end Sys2Proof.Machine
end

