-- ==== Sys2Proof/Machine/ExecEvent.lean ====
section
/-! DEFINITION. The meanings of the commands of family Event: each answers a next state in which only the head has changed. -/

namespace Sys2Proof.Machine

/-- EVENT_POST (R566). -/
def execEventPost (ev : Ev) (s : State) : Host.Outcome State Fault Refusal :=
  .next { s with dev := syncLevels (Machine.eventPost ev s.dev) }

/-- EVENT_WRITE (R566). -/
def execEventWrite (s : State) : Host.Outcome State Fault Refusal :=
  .next { s with dev := syncLevels (Machine.eventWrite s.dev) }

/-- INFO (R577). -/
def execInfo (pecBad : Bool) (s : State) : Host.Outcome State Fault Refusal :=
  .next { s with dev := syncLevels (smbInfo pecBad s.dev) }

/-- SET_PTR (R577). -/
def execSetPtr (pecBad : Bool) (block : Bytes) (s : State) : Host.Outcome State Fault Refusal :=
  .next { s with dev := syncLevels (smbSetPtr pecBad block s.dev) }

/-- READ_REC (R577). -/
def execReadRec (pecBad : Bool) (s : State) : Host.Outcome State Fault Refusal :=
  .next { s with dev := syncLevels (smbReadRec pecBad s.dev) }

/-- SMBUS_TIMEOUT (R592). -/
def execSmbusTimeout (s : State) : Host.Outcome State Fault Refusal :=
  .next { s with dev := syncLevels (Machine.smbusTimeout s.dev) }

/-- JTAG_TRST (R593). -/
def execJtagTrst (s : State) : Host.Outcome State Fault Refusal :=
  .next { s with dev := syncLevels (Machine.jtagTrst s.dev) }

/-- BYPASS (R593). -/
def execBypass (s : State) : Host.Outcome State Fault Refusal :=
  .next { s with dev := syncLevels (jtagBypass s.dev) }

/-- SAMPLE_PRELOAD (R593). -/
def execSamplePreload (pins : List (Nat × Bool)) (cells : List (Nat × Bool)) (s : State) : Host.Outcome State Fault Refusal :=
  .next { s with dev := syncLevels (jtagSample pins cells s.dev) }

/-- IDCODE (R593). -/
def execIdcode (s : State) : Host.Outcome State Fault Refusal :=
  .next { s with dev := syncLevels (jtagIdcode s.dev) }

/-- EXTEST (R593). -/
def execExtest (s : State) : Host.Outcome State Fault Refusal :=
  .next { s with dev := syncLevels (jtagExtest s.dev) }

/-- EXTEST_PULSE (R593). -/
def execExtestPulse (s : State) : Host.Outcome State Fault Refusal :=
  .next { s with dev := syncLevels (jtagExtestPulse s.dev) }

/-- EXTEST_TRAIN (R593). -/
def execExtestTrain (s : State) : Host.Outcome State Fault Refusal :=
  .next { s with dev := syncLevels (jtagExtestTrain s.dev) }

/-- CLAMP (R593). -/
def execClamp (s : State) : Host.Outcome State Fault Refusal :=
  .next { s with dev := syncLevels (jtagClamp s.dev) }

/-- HIGHZ (R593). -/
def execHighz (s : State) : Host.Outcome State Fault Refusal :=
  .next { s with dev := syncLevels (jtagHighz s.dev) }

end Sys2Proof.Machine
end

