-- ==== Sys2Proof/Machine/ExecFront.lean ====
section
/-! DEFINITION. The meanings of the commands of family Front: each answers a next state in which only the head has changed. -/

namespace Sys2Proof.Machine

/-- FRAME_RECEIVE (R341). -/
def execFrameReceive (p : Nat) (len : Nat) (tags : Nat) (prio : Nat) (fill : Nat) (fcsOk : Bool) (full : Bool) (ipBad : Bool) (k : FrameKind) (s : State) : Host.Outcome State Fault Refusal :=
  .next { s with dev := settleDown (Machine.frameReceive p len tags prio fill fcsOk full ipBad k s.dev) }

/-- PFC_FRAME (R345). -/
def execPfcFrame (p : Nat) (prio : Nat) (pause : Bool) (s : State) : Host.Outcome State Fault Refusal :=
  .next { s with dev := settleDown (Machine.pfcFrame p prio pause s.dev) }

/-- PFC_STORM (R346). -/
def execPfcStorm (p : Nat) (s : State) : Host.Outcome State Fault Refusal :=
  .next { s with dev := settleDown (Machine.pfcStorm p s.dev) }

/-- PORT_LINK_DOWN (R343). -/
def execPortLinkDown (p : Nat) (s : State) : Host.Outcome State Fault Refusal :=
  .next { s with dev := settleDown (portSignalLost p s.dev) }

/-- PORT_LINK_UP (R343). -/
def execPortLinkUp (p : Nat) (s : State) : Host.Outcome State Fault Refusal :=
  .next { s with dev := settleDown (Machine.portLinkUp p s.dev) }

/-- PORT_RESTART_TIMER (R343). -/
def execPortRestartTimer (p : Nat) (s : State) : Host.Outcome State Fault Refusal :=
  .next { s with dev := settleDown (Machine.portRestartTimer p s.dev) }

/-- PORT_DOWN (R380). -/
def execPortDown (p : Nat) (s : State) : Host.Outcome State Fault Refusal :=
  .next { s with dev := settleDown (Machine.portDown p (dropLatches s.dev)) }

/-- PORT_UP (R380). -/
def execPortUp (p : Nat) (s : State) : Host.Outcome State Fault Refusal :=
  .next { s with dev := settleDown (portUpCmd p (dropLatches s.dev)) }

/-- PTP_EVENT_MESSAGE (R349). -/
def execPtpEventMessage (p : Nat) (kind : Nat) (ptpSeq : Nat) (time : Nat) (s : State) : Host.Outcome State Fault Refusal :=
  .next { s with dev := settleDown (Machine.ptpEventMessage p kind ptpSeq time s.dev) }

/-- PTP_ANNOUNCE (R350). -/
def execPtpAnnounce (p : Nat) (rank : Nat) (s : State) : Host.Outcome State Fault Refusal :=
  .next { s with dev := settleDown (Machine.ptpAnnounce p rank s.dev) }

/-- CNP_RECEIVE (R348). -/
def execCnpReceive (n : Nat) (s : State) : Host.Outcome State Fault Refusal :=
  .next { s with dev := settleDown (Machine.cnpReceive n s.dev) }

/-- CC_INTERVAL (R348). -/
def execCcInterval (n : Nat) (s : State) : Host.Outcome State Fault Refusal :=
  .next { s with dev := settleDown (Machine.ccInterval n s.dev) }

/-- PFC_PAUSE_EXPIRY (R345). -/
def execPfcPauseExpiry (p : Nat) (prio : Nat) (s : State) : Host.Outcome State Fault Refusal :=
  .next { s with dev := settleDown (Machine.pfcPauseExpiry p prio s.dev) }

end Sys2Proof.Machine
end

