-- ==== Sys2Proof/Machine/ExecHearth.lean ====
section
/-! DEFINITION. The meanings of the commands of family Hearth: each answers a next state in which only the head has changed. -/

namespace Sys2Proof.Machine

/-- OOS_PHASE_DONE (R81). -/
def execOosPhaseDone (s : State) : Host.Outcome State Fault Refusal :=
  .next { s with dev := settleDown (Machine.oosPhaseDone s.dev) }

/-- POWER_ON (R549). -/
def execPowerOn (s : State) : Host.Outcome State Fault Refusal :=
  .next { s with dev := settleDown (Machine.powerOn s.dev) }

/-- PWR_GOOD_FALL (R549). -/
def execPwrGoodFall (s : State) : Host.Outcome State Fault Refusal :=
  .next { s with dev := settleDown (Machine.pwrGoodFall s.dev) }

/-- SYS_RESET (R549). -/
def execSysReset (s : State) : Host.Outcome State Fault Refusal :=
  .next { s with dev := settleDown (Machine.sysReset s.dev) }

/-- POWER_FAIL (R554). -/
def execPowerFail (s : State) : Host.Outcome State Fault Refusal :=
  .next { s with dev := settleDown (Machine.powerFail s.dev) }

/-- POWER_RESTORED (R556). -/
def execPowerRestored (s : State) : Host.Outcome State Fault Refusal :=
  .next { s with dev := settleDown (Machine.powerRestored s.dev) }

/-- PORT_HOLD_EXPIRY (R555). -/
def execPortHoldExpiry (s : State) : Host.Outcome State Fault Refusal :=
  .next { s with dev := settleDown (Machine.portHoldExpiry s.dev) }

/-- HEARTH_FAULT (R541). -/
def execHearthFault (s : State) : Host.Outcome State Fault Refusal :=
  .next { s with dev := settleDown (Machine.hearthFault s.dev) }

/-- RESET_HOLD_END (R541). -/
def execResetHoldEnd (s : State) : Host.Outcome State Fault Refusal :=
  .next { s with dev := settleDown (Machine.resetHoldEnd s.dev) }

/-- STARTUP_STEP_DONE (R551). -/
def execStartupStepDone (l : List Found) (s : State) : Host.Outcome State Fault Refusal :=
  .next { s with dev := settleDown (Machine.startupStepDone l s.dev) }

/-- TEMPERATURE_SAMPLE (R546). -/
def execTemperatureSample (degrees : Nat) (s : State) : Host.Outcome State Fault Refusal :=
  .next { s with dev := settleDown (Machine.temperatureSample degrees s.dev) }

/-- TIME_DISAGREEMENT (R544). -/
def execTimeDisagreement (s : State) : Host.Outcome State Fault Refusal :=
  .next { s with dev := settleDown (Machine.timeDisagreement s.dev) }

/-- STEWARD_FAILURE (R548). -/
def execStewardFailure (stw : Nat) (ok : Bool) (s : State) : Host.Outcome State Fault Refusal :=
  .next { s with dev := settleDown (Machine.stewardFailure stw ok s.dev) }

/-- FENCE_RESTART (R559). -/
def execFenceRestart (s : State) : Host.Outcome State Fault Refusal :=
  .next { s with dev := settleDown (Machine.fenceRestart s.dev) }

/-- RESTART (R559). -/
def execRestart (s : State) : Host.Outcome State Fault Refusal :=
  .next { s with dev := settleDown (hostRestart (dropLatches s.dev)) }

/-- CALIBRATION_REQUEST (R560). -/
def execCalibrationRequest (calKind : Nat) (index : Nat) (go : Bool) (s : State) : Host.Outcome State Fault Refusal :=
  .next { s with dev := settleDown (Machine.calibrationRequest calKind index go (dropLatches s.dev)) }

/-- CALIBRATION_DRAIN_END (R560). -/
def execCalibrationDrainEnd (s : State) : Host.Outcome State Fault Refusal :=
  .next { s with dev := settleDown (Machine.calibrationDrainEnd s.dev) }

/-- CALIBRATION_DONE (R560). -/
def execCalibrationDone (ok : Bool) (s : State) : Host.Outcome State Fault Refusal :=
  .next { s with dev := settleDown (Machine.calibrationDone ok s.dev) }

/-- AVS_RESPONSE (R586). -/
def execAvsResponse (ok : Bool) (s : State) : Host.Outcome State Fault Refusal :=
  .next { s with dev := settleDown (Machine.avsResponse ok s.dev) }

/-- SYS_RESET_RELEASE (R547). -/
def execSysResetRelease (s : State) : Host.Outcome State Fault Refusal :=
  .next { s with dev := settleDown (Machine.sysResetRelease s.dev) }

end Sys2Proof.Machine
end

