-- ==== Sys2Proof/Machine/ExecHep.lean ====
section
/-! DEFINITION. The meanings of the commands of family Hep: each answers a next state in which only the head has changed. -/

namespace Sys2Proof.Machine

/-- SQ_TAIL_DOORBELL (R416). -/
def execSqTailDoorbell (sl : Nat) (queue : Nat) (v : Nat) (s : State) : Host.Outcome State Fault Refusal :=
  .next { s with dev := settleDown (Machine.sqTailDoorbell sl queue v s.dev) }

/-- CQ_HEAD_DOORBELL (R416). -/
def execCqHeadDoorbell (sl : Nat) (queue : Nat) (v : Nat) (s : State) : Host.Outcome State Fault Refusal :=
  .next { s with dev := settleDown (Machine.cqHeadDoorbell sl queue v s.dev) }

/-- PERST (R538). -/
def execPerst (reset : Nat) (s : State) : Host.Outcome State Fault Refusal :=
  .next { s with dev := settleDown (Machine.perst reset s.dev) }

/-- FUNCTION_LEVEL_RESET (R537). -/
def execFunctionLevelReset (s : State) : Host.Outcome State Fault Refusal :=
  .next { s with dev := settleDown (Machine.functionLevelReset s.dev) }

/-- ENDPOINT_READY (R537). -/
def execEndpointReady (s : State) : Host.Outcome State Fault Refusal :=
  .next { s with dev := settleDown (Machine.endpointReady s.dev) }

/-- BUS_MASTER_DISABLE (R535). -/
def execBusMasterDisable (d3 : Bool) (s : State) : Host.Outcome State Fault Refusal :=
  .next { s with dev := settleDown (Machine.busMasterDisable d3 s.dev) }

/-- BUS_MASTER_ENABLE (R536). -/
def execBusMasterEnable (s : State) : Host.Outcome State Fault Refusal :=
  .next { s with dev := settleDown (Machine.busMasterEnable s.dev) }

/-- MSIX_UNMASK (R530). -/
def execMsixUnmask (vector : Nat) (s : State) : Host.Outcome State Fault Refusal :=
  .next { s with dev := settleDown (Machine.msixUnmask vector s.dev) }

/-- MSIX_HOLDOFF_EXPIRY (R531). -/
def execMsixHoldoffExpiry (sl : Nat) (s : State) : Host.Outcome State Fault Refusal :=
  .next { s with dev := settleDown (Machine.msixHoldoffExpiry sl s.dev) }

/-- UNCORRECTABLE_INTERNAL_ERROR (R534). -/
def execUncorrectableInternalError (s : State) : Host.Outcome State Fault Refusal :=
  .next { s with dev := settleDown (Machine.uncorrectableInternalError s.dev) }

/-- PERST_RELEASE (R594). -/
def execPerstRelease (s : State) : Host.Outcome State Fault Refusal :=
  .next { s with dev := settleDown (Machine.perstRelease s.dev) }

/-- PCIE_LINK_UP (R538). -/
def execPcieLinkUp (speed : Nat) (width : Nat) (flit : Bool) (s : State) : Host.Outcome State Fault Refusal :=
  .next { s with dev := settleDown (Machine.pcieLinkUp speed width flit s.dev) }

/-- D3HOT_EXIT (R535). -/
def execD3hotExit (s : State) : Host.Outcome State Fault Refusal :=
  .next { s with dev := settleDown (Machine.d3hotExit s.dev) }

end Sys2Proof.Machine
end

