-- ==== Sys2Proof/Machine/ExecImage.lean ====
section
/-! DEFINITION. The meanings of the commands of family Image: each answers a next state in which only the head has changed. -/

namespace Sys2Proof.Machine

/-- VERIFY (R62). -/
def execVerify (s : State) : Host.Outcome State Fault Refusal :=
  .next { s with dev := syncLevels (imgVerify (dropLatches s.dev)) }

/-- WRITE_SLOT (R63). -/
def execWriteSlot (slot : Nat) (s : State) : Host.Outcome State Fault Refusal :=
  .next { s with dev := syncLevels (imgWriteSlot slot (dropLatches s.dev)) }

/-- APPLY (R62). -/
def execApply (s : State) : Host.Outcome State Fault Refusal :=
  .next { s with dev := syncLevels (imgApply (dropLatches s.dev)) }

/-- APPLY_SLOT (R62). -/
def execApplySlot (slot : Nat) (s : State) : Host.Outcome State Fault Refusal :=
  .next { s with dev := syncLevels (imgApplySlot slot (dropLatches s.dev)) }

/-- IMAGE_ABORT (R86). -/
def execImageAbort (s : State) : Host.Outcome State Fault Refusal :=
  .next { s with dev := syncLevels (imgAbort (dropLatches s.dev)) }

/-- RAISE_SVN (R87). -/
def execRaiseSvn (s : State) : Host.Outcome State Fault Refusal :=
  .next { s with dev := syncLevels (Machine.raiseSvn (dropLatches s.dev)) }

/-- REAPPLY (R87). -/
def execReapply (region : Nat) (s : State) : Host.Outcome State Fault Refusal :=
  .next { s with dev := syncLevels (imgReapply region (dropLatches s.dev)) }

/-- REVOKE (R87). -/
def execRevoke (key : Nat) (s : State) : Host.Outcome State Fault Refusal :=
  .next { s with dev := syncLevels (imgRevoke key (dropLatches s.dev)) }

/-- APPLY_OOS (R81). -/
def execApplyOos (s : State) : Host.Outcome State Fault Refusal :=
  .next { s with dev := syncLevels (imgApplyOos (dropLatches s.dev)) }

/-- IMAGE_FETCH_DONE (R62). -/
def execImageFetchDone (bytes : Bytes) (s : State) : Host.Outcome State Fault Refusal :=
  .next { s with dev := syncLevels (Machine.imageFetchDone bytes s.dev) }

/-- QSPI_OPERATION_DONE (R63). -/
def execQspiOperationDone (ok : Bool) (bytes : Bytes) (s : State) : Host.Outcome State Fault Refusal :=
  .next { s with dev := syncLevels (Machine.qspiOperationDone ok bytes s.dev) }

/-- SLOT_RECORD_REREAD_DONE (R66). -/
def execSlotRecordRereadDone (bytes : Bytes) (s : State) : Host.Outcome State Fault Refusal :=
  .next { s with dev := syncLevels (Machine.slotRecordRereadDone bytes s.dev) }

/-- APPLY_RESUME (R84). -/
def execApplyResume (s : State) : Host.Outcome State Fault Refusal :=
  .next { s with dev := syncLevels (Machine.applyResume s.dev) }

/-- TRAY_REBAKE_SPACING_EXPIRY (R46). -/
def execTrayRebakeSpacingExpiry (s : State) : Host.Outcome State Fault Refusal :=
  .next { s with dev := syncLevels (Machine.trayRebakeSpacingExpiry s.dev) }

/-- REGION_DRAIN_END (R73). -/
def execRegionDrainEnd (s : State) : Host.Outcome State Fault Refusal :=
  .next { s with dev := syncLevels (regionDrainEndCmd s.dev) }

/-- REGION_RESTART (R68). -/
def execRegionRestart (ok : Bool) (s : State) : Host.Outcome State Fault Refusal :=
  .next { s with dev := syncLevels (Machine.regionRestart ok s.dev) }

/-- HEARTH_BANK_LOAD_DONE (R80). -/
def execHearthBankLoadDone (s : State) : Host.Outcome State Fault Refusal :=
  .next { s with dev := syncLevels (Machine.hearthBankLoadDone s.dev) }

/-- HEARTH_BANK_SWAP (R80). -/
def execHearthBankSwap (s : State) : Host.Outcome State Fault Refusal :=
  .next { s with dev := syncLevels (Machine.hearthBankSwap s.dev) }

end Sys2Proof.Machine
end

