-- ==== Sys2Proof/Machine/ExecInst.lean ====
section
/-! DEFINITION. The meanings of the commands of family Inst: each answers a next state in which only the head has changed. -/

namespace Sys2Proof.Machine

/-- DN_TAIL_WRITE (R418). -/
def execDnTailWrite (v : Nat) (s : State) : Host.Outcome State Fault Refusal :=
  .next { s with dev := settleDown (Machine.dnTailWrite v (dropLatches s.dev)) }

/-- UP_HEAD_WRITE (R418). -/
def execUpHeadWrite (v : Nat) (s : State) : Host.Outcome State Fault Refusal :=
  .next { s with dev := settleDown (Machine.upHeadWrite v (dropLatches s.dev)) }

/-- MQ_ENABLE (R423). -/
def execMqEnable (s : State) : Host.Outcome State Fault Refusal :=
  .next { s with dev := settleDown (Machine.mqEnable (dropLatches s.dev)) }

/-- CREATE_INSTANCE (R420). -/
def execCreateInstance (tag : Nat) (b : Bytes) (s : State) : Host.Outcome State Fault Refusal :=
  .next { s with dev := settleDown (setup 0x01 tag b s.dev) }

/-- DELETE_INSTANCE (R420). -/
def execDeleteInstance (tag : Nat) (b : Bytes) (s : State) : Host.Outcome State Fault Refusal :=
  .next { s with dev := settleDown (setup 0x02 tag b s.dev) }

/-- RESET_INSTANCE (R424). -/
def execResetInstance (tag : Nat) (b : Bytes) (s : State) : Host.Outcome State Fault Refusal :=
  .next { s with dev := settleDown (setup 0x03 tag b s.dev) }

/-- SET_QOS (R420). -/
def execSetQos (tag : Nat) (b : Bytes) (s : State) : Host.Outcome State Fault Refusal :=
  .next { s with dev := settleDown (setup 0x04 tag b s.dev) }

/-- SET_HOSTS (R420). -/
def execSetHosts (tag : Nat) (b : Bytes) (s : State) : Host.Outcome State Fault Refusal :=
  .next { s with dev := settleDown (setup 0x05 tag b s.dev) }

/-- CREATE_NS (R412). -/
def execCreateNs (tag : Nat) (b : Bytes) (s : State) : Host.Outcome State Fault Refusal :=
  .next { s with dev := settleDown (setup 0x06 tag b s.dev) }

/-- DELETE_NS (R412). -/
def execDeleteNs (tag : Nat) (b : Bytes) (s : State) : Host.Outcome State Fault Refusal :=
  .next { s with dev := settleDown (setup 0x07 tag b s.dev) }

/-- BIND_SLICE (R416). -/
def execBindSlice (tag : Nat) (b : Bytes) (s : State) : Host.Outcome State Fault Refusal :=
  .next { s with dev := settleDown (setup 0x0A tag b s.dev) }

/-- UNBIND_SLICE (R420). -/
def execUnbindSlice (tag : Nat) (b : Bytes) (s : State) : Host.Outcome State Fault Refusal :=
  .next { s with dev := settleDown (setup 0x0B tag b s.dev) }

/-- ANSWER (R423). -/
def execAnswer (tag : Nat) (b : Bytes) (s : State) : Host.Outcome State Fault Refusal :=
  .next { s with dev := settleDown (setup 0x0D tag b s.dev) }

/-- RATE_QUEUE_RELEASE (R415). -/
def execRateQueueRelease (inst : Nat) (s : State) : Host.Outcome State Fault Refusal :=
  .next { s with dev := settleDown (rateRelease inst s.dev) }

/-- NUM_REQ (R410). -/
def execNumReq (kind : Nat) (s : State) : Host.Outcome State Fault Refusal :=
  .next { s with dev := settleDown (Machine.numReq kind (rxMsg s.dev)) }

/-- NUM_RESP (R410). -/
def execNumResp (kind : Nat) (num : Nat) (s : State) : Host.Outcome State Fault Refusal :=
  .next { s with dev := settleDown (Machine.numResp kind num (rxMsg s.dev)) }

/-- INST_SYNC (R409). -/
def execInstSync (inst : Nat) (deleted : Bool) (b : Bytes) (s : State) : Host.Outcome State Fault Refusal :=
  .next { s with dev := settleDown (Machine.instSync inst deleted b (rxMsg s.dev)) }

end Sys2Proof.Machine
end

