-- ==== Sys2Proof/Machine/ExecIssuer.lean ====
section
/-! DEFINITION. The meanings of the commands of family Issuer: each answers a next state in which only the head has changed. -/

namespace Sys2Proof.Machine

/-- ISSUER_COMPLETION (R98). -/
def execIssuerCompletion (issuer : Nat) (seq : Nat) (s : State) : Host.Outcome State Fault Refusal :=
  .next { s with dev := settleDown (Machine.issuerCompletion issuer seq s.dev) }

end Sys2Proof.Machine
end

