-- ==== Sys2Proof/Machine/ExecLink.lean ====
section
/-! DEFINITION. The meanings of the commands of family Link: each answers a next state in which only the head has changed. -/

namespace Sys2Proof.Machine

/-- IDLE_BLOCK (R315). -/
def execIdleBlock (m : Nat) (ok : Bool) (s : State) : Host.Outcome State Fault Refusal :=
  .next { s with dev := settleDown (Machine.idleBlock m ok s.dev) }

/-- ACK (R319). -/
def execAck (m : Nat) (lseq : Nat) (s : State) : Host.Outcome State Fault Refusal :=
  .next { s with dev := settleDown (mediaAck m lseq s.dev) }

/-- NAK (R319). -/
def execNak (m : Nat) (lseq : Nat) (s : State) : Host.Outcome State Fault Refusal :=
  .next { s with dev := settleDown (mediaNak m lseq s.dev) }

/-- CREDIT (R320). -/
def execCredit (m : Nat) (cmds : Nat) (units : Nat) (s : State) : Host.Outcome State Fault Refusal :=
  .next { s with dev := settleDown (mediaCredit m cmds units s.dev) }

/-- MEDIA_FRAME_ERROR (R319). -/
def execMediaFrameError (m : Nat) (s : State) : Host.Outcome State Fault Refusal :=
  .next { s with dev := settleDown (Machine.mediaFrameError m s.dev) }

/-- MEDIA_READ_RESPONSE (R323). -/
def execMediaReadResponse (m : Nat) (r : MedResp) (s : State) : Host.Outcome State Fault Refusal :=
  .next { s with dev := settleDown (Machine.mediaReadResponse m r s.dev) }

/-- PROGRAM_RESPONSE (R322). -/
def execProgramResponse (m : Nat) (r : MedResp) (s : State) : Host.Outcome State Fault Refusal :=
  .next { s with dev := settleDown (Machine.programResponse m r s.dev) }

/-- ERASE_RESPONSE (R322). -/
def execEraseResponse (m : Nat) (r : MedResp) (s : State) : Host.Outcome State Fault Refusal :=
  .next { s with dev := settleDown (Machine.eraseResponse m r s.dev) }

/-- STATUS_RESPONSE (R324). -/
def execStatusResponse (m : Nat) (r : MedResp) (s : State) : Host.Outcome State Fault Refusal :=
  .next { s with dev := settleDown (Machine.statusResponse m r s.dev) }

/-- SB_READ_RESPONSE (R329). -/
def execSbReadResponse (m : Nat) (r : MedResp) (s : State) : Host.Outcome State Fault Refusal :=
  .next { s with dev := settleDown (Machine.sbReadResponse m r s.dev) }

/-- SB_WRITE_RESPONSE (R329). -/
def execSbWriteResponse (m : Nat) (r : MedResp) (s : State) : Host.Outcome State Fault Refusal :=
  .next { s with dev := settleDown (Machine.sbWriteResponse m r s.dev) }

/-- PLW_RESPONSE (R333). -/
def execPlwResponse (m : Nat) (r : MedResp) (s : State) : Host.Outcome State Fault Refusal :=
  .next { s with dev := settleDown (Machine.plwResponse m r s.dev) }

/-- ECHO_RESPONSE (R321). -/
def execEchoResponse (m : Nat) (r : MedResp) (s : State) : Host.Outcome State Fault Refusal :=
  .next { s with dev := settleDown (Machine.echoResponse m r s.dev) }

/-- RESPONSE_TIMEOUT (R326). -/
def execResponseTimeout (m : Nat) (tag : Nat) (s : State) : Host.Outcome State Fault Refusal :=
  .next { s with dev := settleDown (Machine.responseTimeout m tag s.dev) }

/-- STATUS_POLL (R324). -/
def execStatusPoll (m : Nat) (s : State) : Host.Outcome State Fault Refusal :=
  .next { s with dev := settleDown (Machine.statusPoll m s.dev) }

/-- LINK_DETECTED (R335). -/
def execLinkDetected (m : Nat) (s : State) : Host.Outcome State Fault Refusal :=
  .next { s with dev := settleDown (Machine.linkDetected m s.dev) }

/-- EQUALISE_DONE (R335). -/
def execEqualiseDone (m : Nat) (s : State) : Host.Outcome State Fault Refusal :=
  .next { s with dev := settleDown (Machine.equaliseDone m s.dev) }

/-- BLOCK_LOCK (R335). -/
def execBlockLock (m : Nat) (s : State) : Host.Outcome State Fault Refusal :=
  .next { s with dev := settleDown (Machine.blockLock m s.dev) }

/-- TRAIN (R334). -/
def execTrain (m : Nat) (role : Nat) (ver : Nat) (port : Nat) (id : Nat) (s : State) : Host.Outcome State Fault Refusal :=
  .next { s with dev := settleDown (mediaTrain m role ver port id s.dev) }

/-- MEDIA_LINK_UP_DONE (R337). -/
def execMediaLinkUpDone (m : Nat) (s : State) : Host.Outcome State Fault Refusal :=
  .next { s with dev := settleDown (Machine.mediaLinkUpDone m s.dev) }

/-- MEDIA_SIGNAL_LOSS (R336). -/
def execMediaSignalLoss (m : Nat) (s : State) : Host.Outcome State Fault Refusal :=
  .next { s with dev := settleDown (Machine.mediaSignalLoss m s.dev) }

/-- TRAINING_FAILED (R336). -/
def execTrainingFailed (m : Nat) (s : State) : Host.Outcome State Fault Refusal :=
  .next { s with dev := settleDown (Machine.trainingFailed m s.dev) }

/-- LINK_RESTART_TIMER (R336). -/
def execLinkRestartTimer (m : Nat) (s : State) : Host.Outcome State Fault Refusal :=
  .next { s with dev := settleDown (Machine.linkRestartTimer m s.dev) }

/-- MEDIA_BRINGUP_TIMEOUT (R337). -/
def execMediaBringupTimeout (m : Nat) (s : State) : Host.Outcome State Fault Refusal :=
  .next { s with dev := settleDown (Machine.mediaBringupTimeout m s.dev) }

/-- LINK_RETRAIN (R335). -/
def execLinkRetrain (m : Nat) (s : State) : Host.Outcome State Fault Refusal :=
  .next { s with dev := settleDown (Machine.linkRetrain m (dropLatches s.dev)) }

/-- MEDIA_LINK_DOWN (R336). -/
def execMediaLinkDown (m : Nat) (s : State) : Host.Outcome State Fault Refusal :=
  .next { s with dev := settleDown (Machine.mediaLinkDown m (dropLatches s.dev)) }

/-- MEDIA_LINK_UP (R336). -/
def execMediaLinkUp (m : Nat) (s : State) : Host.Outcome State Fault Refusal :=
  .next { s with dev := settleDown (Machine.mediaLinkUp m (dropLatches s.dev)) }

end Sys2Proof.Machine
end

