-- ==== Sys2Proof/Machine/ExecMap.lean ====
section
/-! DEFINITION. The meanings of the commands of family Map: each answers a next state in which only the head has changed. -/

namespace Sys2Proof.Machine

/-- INDEX_APPEND_FLUSH (R201). -/
def execIndexAppendFlush (s : State) : Host.Outcome State Fault Refusal :=
  .next { s with dev := settleDown (Machine.indexAppendFlush s.dev) }

/-- LEARNING_END (R205). -/
def execLearningEnd (s : State) : Host.Outcome State Fault Refusal :=
  .next { s with dev := settleDown (Machine.learningEnd s.dev) }

/-- WARMING_END (R205). -/
def execWarmingEnd (s : State) : Host.Outcome State Fault Refusal :=
  .next { s with dev := settleDown (Machine.warmingEnd s.dev) }

/-- PAGE_IN_DONE (R239). -/
def execPageInDone (key : Nat) (s : State) : Host.Outcome State Fault Refusal :=
  .next { s with dev := settleDown (Machine.pageInDone key s.dev) }

/-- WRITEBACK_START (R245). -/
def execWritebackStart (s : State) : Host.Outcome State Fault Refusal :=
  .next { s with dev := settleDown (Machine.writebackStart s.dev) }

/-- WRITEBACK_PROGRAMMED (R245). -/
def execWritebackProgrammed (slot : Nat) (s : State) : Host.Outcome State Fault Refusal :=
  .next { s with dev := settleDown (Machine.writebackProgrammed slot s.dev) }

/-- ANCHOR_TIMER (R248). -/
def execAnchorTimer (s : State) : Host.Outcome State Fault Refusal :=
  .next { s with dev := settleDown (Machine.anchorTimer s.dev) }

/-- MAP_ANCHOR_CMD (R248). -/
def execMapAnchorCmd (s : State) : Host.Outcome State Fault Refusal :=
  .next { s with dev := settleDown (Machine.mapAnchorCmd (dropLatches s.dev)) }

/-- ANCHOR_DURABLE (R248). -/
def execAnchorDurable (s : State) : Host.Outcome State Fault Refusal :=
  .next { s with dev := settleDown (Machine.anchorDurable s.dev) }

/-- MAP_INVALIDATE (R261). -/
def execMapInvalidate (s : State) : Host.Outcome State Fault Refusal :=
  .next { s with dev := settleDown (Machine.mapInvalidate (dropLatches s.dev)) }

/-- INVALIDATE_PHASE_END (R261). -/
def execInvalidatePhaseEnd (s : State) : Host.Outcome State Fault Refusal :=
  .next { s with dev := settleDown (Machine.invalidatePhaseEnd s.dev) }

/-- RESET_WALK_END (R260). -/
def execResetWalkEnd (s : State) : Host.Outcome State Fault Refusal :=
  .next { s with dev := settleDown (Machine.resetWalkEnd s.dev) }

/-- TAG_PARITY_ERROR (R263). -/
def execTagParityError (set : Nat) (s : State) : Host.Outcome State Fault Refusal :=
  .next { s with dev := settleDown (Machine.tagParityError set s.dev) }

/-- PAGE_REBUILD_DONE (R263). -/
def execPageRebuildDone (key : Nat) (s : State) : Host.Outcome State Fault Refusal :=
  .next { s with dev := settleDown (Machine.pageRebuildDone key s.dev) }

/-- DRAM_UNCORRECTABLE (R264). -/
def execDramUncorrectable (slot : Bool) (index : Nat) (s : State) : Host.Outcome State Fault Refusal :=
  .next { s with dev := settleDown (Machine.dramUncorrectable slot index s.dev) }

/-- MAP_PIN_WRITE (R258). -/
def execMapPinWrite (pin : Nat) (key : Nat) (valid : Bool) (span : Nat) (s : State) : Host.Outcome State Fault Refusal :=
  .next { s with dev := settleDown (Machine.mapPinWrite pin key valid span (dropLatches s.dev)) }

/-- REC_REQ (R242). -/
def execRecReq (tag : Nat) (handle : Nat) (mode : Nat) (dom : Nat) (s : State) : Host.Outcome State Fault Refusal :=
  .next { s with dev := settleDown (Machine.recReq tag handle mode dom (rxMsg s.dev)) }

/-- REC_RESP (R242). -/
def execRecResp (tag : Nat) (status : Nat) (body : Bytes) (s : State) : Host.Outcome State Fault Refusal :=
  .next { s with dev := settleDown (Machine.recResp tag status body (rxMsg s.dev)) }

/-- REC_END (R242). -/
def execRecEnd (handle : Nat) (what : Nat) (s : State) : Host.Outcome State Fault Refusal :=
  .next { s with dev := settleDown (Machine.recEnd handle what (rxMsg s.dev)) }

end Sys2Proof.Machine
end

