-- ==== Sys2Proof/Machine/ExecMedia.lean ====
section
/-! DEFINITION. The meanings of the commands of family Media: each answers a next state in which only the head has changed. -/

namespace Sys2Proof.Machine

/-- BLOCK_SEAL (R270). -/
def execBlockSeal (m : Nat) (ebn : Nat) (s : State) : Host.Outcome State Fault Refusal :=
  .next { s with dev := settleDown (Machine.blockSeal m ebn s.dev) }

/-- BLOCK_READBACK_DONE (R281). -/
def execBlockReadbackDone (m : Nat) (ebn : Nat) (s : State) : Host.Outcome State Fault Refusal :=
  .next { s with dev := settleDown (readbackDone m ebn s.dev) }

/-- M_PAGE_TIMER (R279). -/
def execMPageTimer (m : Nat) (s : State) : Host.Outcome State Fault Refusal :=
  .next { s with dev := settleDown (Machine.mPageTimer m s.dev) }

/-- GC_START_TRIGGER (R284). -/
def execGcStartTrigger (m : Nat) (s : State) : Host.Outcome State Fault Refusal :=
  .next { s with dev := settleDown (Machine.gcStartTrigger m s.dev) }

/-- GC_VICTIM_EXAMINE (R286). -/
def execGcVictimExamine (m : Nat) (ebn : Nat) (s : State) : Host.Outcome State Fault Refusal :=
  .next { s with dev := settleDown (Machine.gcVictimExamine m ebn s.dev) }

/-- VICTIM_ERASE (R289). -/
def execVictimErase (m : Nat) (ebn : Nat) (s : State) : Host.Outcome State Fault Refusal :=
  .next { s with dev := settleDown (Machine.victimErase m ebn s.dev) }

/-- RECLAIM (R290). -/
def execReclaim (handle : Nat) (s : State) : Host.Outcome State Fault Refusal :=
  .next { s with dev := settleDown (Machine.reclaim handle s.dev) }

/-- SCRUB_TICK (R294). -/
def execScrubTick (m : Nat) (s : State) : Host.Outcome State Fault Refusal :=
  .next { s with dev := settleDown (Machine.scrubTick m s.dev) }

/-- SCRUB_ALL (R294). -/
def execScrubAll (s : State) : Host.Outcome State Fault Refusal :=
  .next { s with dev := settleDown (Machine.scrubAll (dropLatches s.dev)) }

/-- LOSS_WALK (R300). -/
def execLossWalk (s : State) : Host.Outcome State Fault Refusal :=
  .next { s with dev := settleDown (startLossWalk (dropLatches s.dev)) }

/-- MODULE_FAIL (R300). -/
def execModuleFail (m : Nat) (s : State) : Host.Outcome State Fault Refusal :=
  .next { s with dev := settleDown (Machine.moduleFail m (dropLatches s.dev)) }

/-- MODULE_FAIL_TIMEOUT (R300). -/
def execModuleFailTimeout (m : Nat) (s : State) : Host.Outcome State Fault Refusal :=
  .next { s with dev := settleDown (Machine.moduleFailTimeout m s.dev) }

/-- TALLY_TIMER (R293). -/
def execTallyTimer (m : Nat) (ebn : Nat) (s : State) : Host.Outcome State Fault Refusal :=
  .next { s with dev := settleDown (Machine.tallyTimer m ebn s.dev) }

/-- SWEEP_PHASE_END (R302). -/
def execSweepPhaseEnd (s : State) : Host.Outcome State Fault Refusal :=
  .next { s with dev := settleDown (Machine.sweepPhaseEnd s.dev) }

/-- PLA_SETTLE_END (R308). -/
def execPlaSettleEnd (s : State) : Host.Outcome State Fault Refusal :=
  .next { s with dev := settleDown (Machine.plaSettleEnd s.dev) }

/-- PLA_SECTIONS_WRITTEN (R308). -/
def execPlaSectionsWritten (copy : Nat) (s : State) : Host.Outcome State Fault Refusal :=
  .next { s with dev := settleDown (Machine.plaSectionsWritten copy s.dev) }

/-- PLA_FLUSHED (R308). -/
def execPlaFlushed (s : State) : Host.Outcome State Fault Refusal :=
  .next { s with dev := settleDown (Machine.flushDone s.dev) }

end Sys2Proof.Machine
end

