-- ==== Sys2Proof/Machine/ExecMig.lean ====
section
/-! DEFINITION. The meanings of the commands of family Mig: each answers a next state in which only the head has changed. -/

namespace Sys2Proof.Machine

/-- BALANCE_TICK (R427). -/
def execBalanceTick (load : Nat) (s : State) : Host.Outcome State Fault Refusal :=
  .next { s with dev := settleDown (Machine.balanceTick load s.dev) }

/-- MIGRATION_FREEZE (R428). -/
def execMigrationFreeze (inst : Nat) (reason : Nat) (s : State) : Host.Outcome State Fault Refusal :=
  .next { s with dev := settleDown (Machine.migrationFreeze inst reason s.dev) }

/-- MIGRATION_DRAIN_END (R428). -/
def execMigrationDrainEnd (s : State) : Host.Outcome State Fault Refusal :=
  .next { s with dev := settleDown (Machine.migrationDrainEnd s.dev) }

/-- MIGRATION_PHASE_TIMEOUT (R428). -/
def execMigrationPhaseTimeout (s : State) : Host.Outcome State Fault Refusal :=
  .next { s with dev := settleDown (Machine.migrationPhaseTimeout s.dev) }

/-- MIG_BLOB (R434). -/
def execMigBlob (inst : Nat) (b : Bytes) (s : State) : Host.Outcome State Fault Refusal :=
  .next { s with dev := settleDown (Machine.migBlob inst b (rxMsg s.dev)) }

/-- MIG_ACK (R435). -/
def execMigAck (inst : Nat) (code : Nat) (s : State) : Host.Outcome State Fault Refusal :=
  .next { s with dev := settleDown (Machine.migAck inst code (rxMsg s.dev)) }

/-- MIG_ABORT (R428). -/
def execMigAbort (inst : Nat) (s : State) : Host.Outcome State Fault Refusal :=
  .next { s with dev := settleDown (Machine.migAbort inst (rxMsg s.dev)) }

/-- MIGRATION_THAW_END (R428). -/
def execMigrationThawEnd (s : State) : Host.Outcome State Fault Refusal :=
  .next { s with dev := settleDown (Machine.migrationThawEnd s.dev) }

/-- LINE_REQ (R430). -/
def execLineReq (line : Nat) (s : State) : Host.Outcome State Fault Refusal :=
  .next { s with dev := settleDown (Machine.lineReq line (rxMsg s.dev)) }

/-- LINE (R430). -/
def execLineMsg (line : Nat) (dirty : Bool) (jsn : Nat) (b : Bytes) (s : State) : Host.Outcome State Fault Refusal :=
  .next { s with dev := settleDown (Machine.lineMsg line dirty jsn b (rxMsg s.dev)) }

/-- LINE_WB (R430). -/
def execLineWb (line : Nat) (s : State) : Host.Outcome State Fault Refusal :=
  .next { s with dev := settleDown (Machine.lineWb line (rxMsg s.dev)) }

end Sys2Proof.Machine
end

