-- ==== Sys2Proof/Machine/ExecPair.lean ====
section
/-! DEFINITION. The meanings of the commands of family Pair: each answers a next state in which only the head has changed. -/

namespace Sys2Proof.Machine

/-- HELLO (R464). -/
def execHelloMsg (device : Nat) (array : Nat) (facts : Nat) (b : Bytes) (s : State) : Host.Outcome State Fault Refusal :=
  .next { s with dev := settleDown (Machine.hello device array facts b (rxMsg s.dev)) }

/-- KEX (R464). -/
def execKexMsg (b : Bytes) (s : State) : Host.Outcome State Fault Refusal :=
  .next { s with dev := settleDown (Machine.kex b (rxMsg s.dev)) }

/-- CONFIRM (R464). -/
def execConfirmMsg (b : Bytes) (s : State) : Host.Outcome State Fault Refusal :=
  .next { s with dev := settleDown (Machine.confirm b (rxMsg s.dev)) }

/-- TRANSFER (R465). -/
def execTransferMsg (b : Bytes) (s : State) : Host.Outcome State Fault Refusal :=
  .next { s with dev := settleDown (Machine.transfer b (rxMsg s.dev)) }

/-- PAIR_FAIL (R466). -/
def execPairFailMsg (cause : Nat) (s : State) : Host.Outcome State Fault Refusal :=
  .next { s with dev := settleDown (Machine.pairFail cause (rxMsg s.dev)) }

/-- PAIRING_RETRY (R496). -/
def execPairingRetry (s : State) : Host.Outcome State Fault Refusal :=
  .next { s with dev := settleDown (Machine.pairingRetry s.dev) }

end Sys2Proof.Machine
end

