-- ==== Sys2Proof/Machine/ExecPantry.lean ====
section
/-! DEFINITION. The meanings of the commands of family Pantry: each answers a next state in which only the head has changed. -/

namespace Sys2Proof.Machine

/-- PANTRY_PROBE (R191). -/
def execPantryProbe (cmd : Nat) (chunk : Nat) (bad : Bool) (s : State) : Host.Outcome State Fault Refusal :=
  .next { s with dev := syncLevels (Machine.pantryProbe cmd chunk bad s.dev) }

/-- PROBE_WAIT_END (R194). -/
def execProbeWaitEnd (cmd : Nat) (chunk : Nat) (s : State) : Host.Outcome State Fault Refusal :=
  .next { s with dev := syncLevels (Machine.probeWaitEnd cmd chunk s.dev) }

end Sys2Proof.Machine
end

