-- ==== Sys2Proof/Machine/ExecPeer.lean ====
section
/-! DEFINITION. The meanings of the commands of family Peer: each answers a next state in which only the head has changed. -/

namespace Sys2Proof.Machine

/-- HEARTBEAT_TIMER (R494). -/
def execHeartbeatTimer (s : State) : Host.Outcome State Fault Refusal :=
  .next { s with dev := settleDown (Machine.heartbeatTimer s.dev) }

/-- HEARTBEAT (R494). -/
def execHeartbeatFrame (sub : Nat) (b : Bytes) (s : State) : Host.Outcome State Fault Refusal :=
  .next { s with dev := settleDown (heartbeat sub b s.dev) }

/-- ANCHOR (R497). -/
def execAnchor (b : Bytes) (s : State) : Host.Outcome State Fault Refusal :=
  .next { s with dev := settleDown (anchorMsg b (rxMsg s.dev)) }

/-- BUDGET (R128). -/
def execBudget (mib : Nat) (s : State) : Host.Outcome State Fault Refusal :=
  .next { s with dev := settleDown (budgetMsg mib (rxMsg s.dev)) }

/-- WINDOWS (R497). -/
def execWindows (stg : Nat) (desc : Nat) (jrn : Nat) (fwd : Nat) (bulk : Nat) (s : State) : Host.Outcome State Fault Refusal :=
  .next { s with dev := settleDown (windowsMsg stg desc jrn fwd bulk (rxMsg s.dev)) }

/-- RELEASE (R498). -/
def execRelease (what : Nat) (jsn : Nat) (s : State) : Host.Outcome State Fault Refusal :=
  .next { s with dev := settleDown (releaseMsg what jsn (rxMsg s.dev)) }

/-- RELEASE_ACK (R151). -/
def execReleaseAck (what : Nat) (jsn : Nat) (s : State) : Host.Outcome State Fault Refusal :=
  .next { s with dev := settleDown (Machine.releaseAck what jsn (rxMsg s.dev)) }

/-- DROP (R198). -/
def execDrop (h : Nat) (s : State) : Host.Outcome State Fault Refusal :=
  .next { s with dev := settleDown (dropMsg h (rxMsg s.dev)) }

/-- DROP_ACK (R198). -/
def execDropAck (h : Nat) (s : State) : Host.Outcome State Fault Refusal :=
  .next { s with dev := settleDown (Machine.dropAck h (rxMsg s.dev)) }

/-- READ_REQ (R164). -/
def execReadReq (tag : Nat) (what : Nat) (key : Nat) (va : Nat) (s : State) : Host.Outcome State Fault Refusal :=
  .next { s with dev := settleDown (Machine.readReq tag what key va (rxMsg s.dev)) }

/-- READ_RESP (R164). -/
def execReadResp (tag : Nat) (st : Nat) (s : State) : Host.Outcome State Fault Refusal :=
  .next { s with dev := settleDown (Machine.readResp tag st (rxMsg s.dev)) }

/-- TALLY (R293). -/
def execTally (what : Nat) (n : Nat) (s : State) : Host.Outcome State Fault Refusal :=
  .next { s with dev := settleDown (tallyMsg what n (rxMsg s.dev)) }

/-- SWEEP_REQ (R302). -/
def execSweepReq (dom : Nat) (s : State) : Host.Outcome State Fault Refusal :=
  .next { s with dev := settleDown (Machine.sweepReq dom (rxMsg s.dev)) }

/-- SWEEP_DONE (R302). -/
def execSweepDone (dom : Nat) (s : State) : Host.Outcome State Fault Refusal :=
  .next { s with dev := settleDown (Machine.sweepDone dom (rxMsg s.dev)) }

/-- FWD_CMD (R404). -/
def execFwdCmd (what : Nat) (off : Nat) (len : Nat) (b : Bytes) (s : State) : Host.Outcome State Fault Refusal :=
  .next { s with dev := settleDown (Machine.fwdCmd what off len b (rxMsg s.dev)) }

/-- FWD_CHUNK (R404). -/
def execFwdChunk (what : Nat) (k : Nat) (off : Nat) (mask : Nat) (s : State) : Host.Outcome State Fault Refusal :=
  .next { s with dev := settleDown (Machine.fwdChunk what k off mask (rxMsg s.dev)) }

/-- FWD_CPL (R404). -/
def execFwdCpl (what : Nat) (b : Bytes) (s : State) : Host.Outcome State Fault Refusal :=
  .next { s with dev := settleDown (Machine.fwdCpl what b (rxMsg s.dev)) }

/-- THAGRAIT_SUBLINK_DOWN (R491). -/
def execThagraitSublinkDown (sub : Nat) (s : State) : Host.Outcome State Fault Refusal :=
  .next { s with dev := settleDown (sublinkDown sub s.dev) }

/-- THAGRAIT_SUBLINK_UP (R491). -/
def execThagraitSublinkUp (sub : Nat) (s : State) : Host.Outcome State Fault Refusal :=
  .next { s with dev := settleDown (sublinkUp sub s.dev) }

end Sys2Proof.Machine
end

