-- ==== Sys2Proof/Machine/ExecRead.lean ====
section
/-! DEFINITION. The meanings of the commands of family Read: each answers a next state in which only the head has changed. -/

namespace Sys2Proof.Machine

/-- READ (R158). -/
def execRead (o : Origin) (e : Sqe) (cap : Bytes) (s : State) : Host.Outcome State Fault Refusal :=
  .next { s with dev := settleDown (nvmRead o e cap s.dev) }

/-- READ_ADMIT (R168). -/
def execReadAdmit (s : State) : Host.Outcome State Fault Refusal :=
  .next { s with dev := settleDown (Machine.readAdmit s.dev) }

/-- READ_LOCATE (R161). -/
def execReadLocate (rd : Nat) (chunk : Nat) (s : State) : Host.Outcome State Fault Refusal :=
  .next { s with dev := settleDown (Machine.readLocate rd chunk s.dev) }

/-- MAP_LOOKUP (R253). -/
def execMapLookup (rd : Nat) (chunk : Nat) (s : State) : Host.Outcome State Fault Refusal :=
  .next { s with dev := settleDown (Machine.mapLookup rd chunk s.dev) }

end Sys2Proof.Machine
end

