-- ==== Sys2Proof/Machine/ExecReturn.lean ====
section
/-! DEFINITION. The meanings of the commands of family Return: each answers a next state in which only the head has changed. -/

namespace Sys2Proof.Machine

/-- JOIN (R510). -/
def execJoin (word : Nat) (jsn : Nat) (s : State) : Host.Outcome State Fault Refusal :=
  .next { s with dev := settleDown (joinMsg word jsn (rxMsg s.dev)) }

/-- HANDBACK (R510). -/
def execHandback (seq : Nat) (b : Bytes) (s : State) : Host.Outcome State Fault Refusal :=
  .next { s with dev := settleDown (Machine.handback seq b (rxMsg s.dev)) }

/-- RESYNC_DONE (R510). -/
def execResyncDone (first : Nat) (word : Nat) (s : State) : Host.Outcome State Fault Refusal :=
  .next { s with dev := settleDown (Machine.resyncDone first word (rxMsg s.dev)) }

/-- RETURN_HOLDOFF_EXPIRY (R511). -/
def execReturnHoldoffExpiry (s : State) : Host.Outcome State Fault Refusal :=
  .next { s with dev := settleDown (Machine.returnHoldoffExpiry s.dev) }

end Sys2Proof.Machine
end

