-- ==== Sys2Proof/Machine/ExecSec.lean ====
section
/-! DEFINITION. The meanings of the commands of family Sec: each answers a next state in which only the head has changed. -/

namespace Sys2Proof.Machine

/-- PROVISION (R486). -/
def execProvision (cfm : Nat) (s : State) : Host.Outcome State Fault Refusal :=
  .next { s with dev := settleDown (Machine.provision cfm (dropLatches s.dev)) }

/-- ENROLL (R486). -/
def execEnroll (cfm : Nat) (slot : Nat) (s : State) : Host.Outcome State Fault Refusal :=
  .next { s with dev := settleDown (Machine.enroll cfm slot (dropLatches s.dev)) }

/-- FIELD_LOCK (R486). -/
def execFieldLock (cfm : Nat) (s : State) : Host.Outcome State Fault Refusal :=
  .next { s with dev := settleDown (Machine.fieldLock cfm (dropLatches s.dev)) }

/-- RETURN (R487). -/
def execReturnHead (cfm : Nat) (s : State) : Host.Outcome State Fault Refusal :=
  .next { s with dev := settleDown (returnCmd cfm (dropLatches s.dev)) }

/-- CHALLENGE (R488). -/
def execChallenge (s : State) : Host.Outcome State Fault Refusal :=
  .next { s with dev := settleDown (Machine.challenge (dropLatches s.dev)) }

/-- RESPOND (R488). -/
def execRespond (s : State) : Host.Outcome State Fault Refusal :=
  .next { s with dev := settleDown (respondCmd (dropLatches s.dev)) }

/-- RAISE (R473). -/
def execRaise (dom : Nat) (s : State) : Host.Outcome State Fault Refusal :=
  .next { s with dev := settleDown (raiseCmd dom (dropLatches s.dev)) }

/-- RAISE_PHASE_END (R473). -/
def execRaisePhaseEnd (s : State) : Host.Outcome State Fault Refusal :=
  .next { s with dev := settleDown (raisePhase (haltStreams 6) s.dev) }

/-- REPL_SET (R489). -/
def execReplSet (slot : Nat) (s : State) : Host.Outcome State Fault Refusal :=
  .next { s with dev := settleDown (replWrite slot true (dropLatches s.dev)) }

/-- REPL_CLEAR (R489). -/
def execReplClear (slot : Nat) (s : State) : Host.Outcome State Fault Refusal :=
  .next { s with dev := settleDown (replWrite slot false (dropLatches s.dev)) }

/-- TRNG_TEST_FAIL (R477). -/
def execTrngTestFail (s : State) : Host.Outcome State Fault Refusal :=
  .next { s with dev := settleDown (Machine.trngTestFail s.dev) }

/-- TRNG_RESTART (R477). -/
def execTrngRestart (ok : Bool) (s : State) : Host.Outcome State Fault Refusal :=
  .next { s with dev := settleDown (Machine.trngRestart ok s.dev) }

/-- CIPHER_GO (R479). -/
def execCipherGo (n : Nat) (s : State) : Host.Outcome State Fault Refusal :=
  .next { s with dev := settleDown (Machine.cipherGo n (dropLatches s.dev)) }

/-- CIPHER_ABORT (R480). -/
def execCipherAbort (n : Nat) (s : State) : Host.Outcome State Fault Refusal :=
  .next { s with dev := settleDown (Machine.cipherAbort n (dropLatches s.dev)) }

/-- CIPHER_KEY_WRITE (R478). -/
def execCipherKeyWrite (n : Nat) (k : Nat) (hctx : Bool) (v : Nat) (s : State) : Host.Outcome State Fault Refusal :=
  .next { s with dev := settleDown (Machine.cipherKeyWrite n k hctx v (dropLatches s.dev)) }

/-- CIPHER_BLOCK_DONE (R479). -/
def execCipherBlockDone (n : Nat) (s : State) : Host.Outcome State Fault Refusal :=
  .next { s with dev := settleDown (Machine.cipherBlockDone n s.dev) }

/-- DIGEST_INIT (R482). -/
def execDigestInit (alg : Nat) (mac : Bool) (keyLen : Nat) (s : State) : Host.Outcome State Fault Refusal :=
  .next { s with dev := settleDown (Machine.digestInit alg mac keyLen (dropLatches s.dev)) }

/-- DIGEST_KEY_WRITE (R482). -/
def execDigestKeyWrite (v : Nat) (s : State) : Host.Outcome State Fault Refusal :=
  .next { s with dev := settleDown (Machine.digestKeyWrite v (dropLatches s.dev)) }

/-- DIGEST_DATA_WRITE (R482). -/
def execDigestDataWrite (v : Nat) (s : State) : Host.Outcome State Fault Refusal :=
  .next { s with dev := settleDown (Machine.digestDataWrite v (dropLatches s.dev)) }

/-- DIGEST_FINAL (R483). -/
def execDigestFinal (n : Nat) (v : Nat) (s : State) : Host.Outcome State Fault Refusal :=
  .next { s with dev := settleDown (Machine.digestFinal n v (dropLatches s.dev)) }

/-- DIGEST_RESULT_READ (R483). -/
def execDigestResultRead (k : Nat) (s : State) : Host.Outcome State Fault Refusal :=
  .next { s with dev := settleDown (Machine.digestResultRead k (dropLatches s.dev)) }

/-- COMPRESSION_DONE (R481). -/
def execCompressionDone (n : Nat) (s : State) : Host.Outcome State Fault Refusal :=
  .next { s with dev := settleDown (Machine.compressionDone n s.dev) }

/-- FUSE_PROGRAMMING_DONE (R486). -/
def execFuseProgrammingDone (ok : Bool) (s : State) : Host.Outcome State Fault Refusal :=
  .next { s with dev := settleDown (Machine.fuseProgrammingDone ok s.dev) }

end Sys2Proof.Machine
end

