-- ==== Sys2Proof/Machine/ExecSnap.lean ====
section
/-! DEFINITION. The meanings of the commands of family Snap: each answers a next state in which only the head has changed. -/

namespace Sys2Proof.Machine

/-- SNAPSHOT_CREATE (R441). -/
def execSnapshotCreate (o : Origin) (e : Sqe) (cap : Bytes) (s : State) : Host.Outcome State Fault Refusal :=
  .next { s with dev := settleDown (Machine.snapshotCreate o e cap s.dev) }

/-- SNAPSHOT_DELETE (R448). -/
def execSnapshotDelete (o : Origin) (e : Sqe) (cap : Bytes) (s : State) : Host.Outcome State Fault Refusal :=
  .next { s with dev := settleDown (Machine.snapshotDelete o e cap s.dev) }

/-- SNAPSHOT_SEAL (R446). -/
def execSnapshotSeal (nsg : Nat) (id : Nat) (s : State) : Host.Outcome State Fault Refusal :=
  .next { s with dev := settleDown (Machine.snapshotSeal nsg id s.dev) }

/-- DELETION_WALK_END (R448). -/
def execDeletionWalkEnd (nsg : Nat) (s : State) : Host.Outcome State Fault Refusal :=
  .next { s with dev := settleDown (Machine.deletionWalkEnd nsg s.dev) }

end Sys2Proof.Machine
end

