-- ==== Sys2Proof/Machine/ExecStream.lean ====
section
/-! DEFINITION. The meanings of the commands of family Stream: each answers a next state in which only the head has changed. -/

namespace Sys2Proof.Machine

/-- REQ (R352). -/
def execReq (remote : Nat) (p : Nat) (dest : Nat) (psn : Nat) (tcp : Nat) (pmtu : Nat) (ip : Nat) (qid : Nat) (spread : Bool) (flush : Bool) (s : State) : Host.Outcome State Fault Refusal :=
  .next { s with dev := settleDown (cmReq remote p dest psn tcp pmtu ip qid spread flush s.dev) }

/-- REP (R352). -/
def execRep (cm : Nat) (remote : Nat) (dest : Nat) (psn : Nat) (spread : Bool) (s : State) : Host.Outcome State Fault Refusal :=
  .next { s with dev := settleDown (cmRep cm remote dest psn spread s.dev) }

/-- REJ (R352). -/
def execRej (cm : Nat) (s : State) : Host.Outcome State Fault Refusal :=
  .next { s with dev := settleDown (cmRej cm s.dev) }

/-- STREAM_START (R457). -/
def execStreamStart (u : Nat) (s : State) : Host.Outcome State Fault Refusal :=
  .next { s with dev := settleDown (Machine.streamStart u (dropLatches s.dev)) }

/-- STREAM_RESUME (R457). -/
def execStreamResume (u : Nat) (s : State) : Host.Outcome State Fault Refusal :=
  .next { s with dev := settleDown (Machine.streamResume u (dropLatches s.dev)) }

/-- STREAM_STOP (R457). -/
def execStreamStop (u : Nat) (s : State) : Host.Outcome State Fault Refusal :=
  .next { s with dev := settleDown (Machine.streamStop u (dropLatches s.dev)) }

/-- BEGIN (R456). -/
def execBegin (u : Nat) (crcOk : Bool) (reason : Nat) (id : Nat) (arg : Nat) (s : State) : Host.Outcome State Fault Refusal :=
  .next { s with dev := settleDown (streamBegin u crcOk reason id arg s.dev) }

/-- READY (R457). -/
def execReady (u : Nat) (crcOk : Bool) (id : Nat) (seq : Nat) (arg : Nat) (arg2 : Nat) (s : State) : Host.Outcome State Fault Refusal :=
  .next { s with dev := settleDown (streamReady u crcOk id seq arg arg2 s.dev) }

/-- COMMIT (R453). -/
def execCommit (u : Nat) (crcOk : Bool) (id : Nat) (seq : Nat) (s : State) : Host.Outcome State Fault Refusal :=
  .next { s with dev := settleDown (streamCommit u crcOk id seq s.dev) }

/-- RESEND (R455). -/
def execResend (u : Nat) (crcOk : Bool) (id : Nat) (seq : Nat) (s : State) : Host.Outcome State Fault Refusal :=
  .next { s with dev := settleDown (streamResend u crcOk id seq s.dev) }

/-- END (R456). -/
def execEndStream (u : Nat) (crcOk : Bool) (id : Nat) (seq : Nat) (s : State) : Host.Outcome State Fault Refusal :=
  .next { s with dev := settleDown (streamEnd u crcOk id seq s.dev) }

/-- DONE (R457). -/
def execDoneStream (u : Nat) (crcOk : Bool) (id : Nat) (s : State) : Host.Outcome State Fault Refusal :=
  .next { s with dev := settleDown (streamDone u crcOk id s.dev) }

/-- HALT (R457). -/
def execHaltMsg (u : Nat) (crcOk : Bool) (reason : Nat) (id : Nat) (s : State) : Host.Outcome State Fault Refusal :=
  .next { s with dev := settleDown (Machine.streamHalt u crcOk reason id s.dev) }

/-- REPLICATION_FRAME (R454). -/
def execReplicationFrame (u : Nat) (slot : Nat) (s : State) : Host.Outcome State Fault Refusal :=
  .next { s with dev := settleDown (Machine.replicationFrame u slot s.dev) }

/-- FRAME_COMMITTED (R454). -/
def execFrameCommitted (u : Nat) (seq : Nat) (s : State) : Host.Outcome State Fault Refusal :=
  .next { s with dev := settleDown (Machine.frameCommitted u seq s.dev) }

/-- CHUNK_RETRY_TIMER (R454). -/
def execChunkRetryTimer (u : Nat) (seq : Nat) (s : State) : Host.Outcome State Fault Refusal :=
  .next { s with dev := settleDown (Machine.chunkRetryTimer u seq s.dev) }

/-- REPLICA_CREATED (R456). -/
def execReplicaCreated (u : Nat) (s : State) : Host.Outcome State Fault Refusal :=
  .next { s with dev := settleDown (Machine.replicaCreated u s.dev) }

end Sys2Proof.Machine
end

