-- ==== Sys2Proof/Machine/ExecTake.lean ====
section
/-! DEFINITION. The meanings of the commands of family Take: each answers a next state in which only the head has changed. -/

namespace Sys2Proof.Machine

/-- WITNESS_READ_RESPONSE (R330). -/
def execWitnessReadResponse (m : Nat) (r : MedResp) (s : State) : Host.Outcome State Fault Refusal :=
  .next { s with dev := settleDown (Machine.witnessReadResponse m r s.dev) }

/-- WITNESS_CAS_RESPONSE (R330). -/
def execWitnessCasResponse (m : Nat) (r : MedResp) (s : State) : Host.Outcome State Fault Refusal :=
  .next { s with dev := settleDown (Machine.witnessCasResponse m r s.dev) }

/-- FENCE_RESPONSE (R330). -/
def execFenceResponse (m : Nat) (r : MedResp) (s : State) : Host.Outcome State Fault Refusal :=
  .next { s with dev := settleDown (Machine.fenceResponse m r s.dev) }

/-- HEARTBEAT_LOSS (R499). -/
def execHeartbeatLoss (s : State) : Host.Outcome State Fault Refusal :=
  .next { s with dev := settleDown (Machine.heartbeatLoss s.dev) }

/-- SELF_FENCE (R499). -/
def execSelfFenceFrame (s : State) : Host.Outcome State Fault Refusal :=
  .next { s with dev := settleDown (peerSelfFence s.dev) }

/-- PER_SELF_FENCE (R495). -/
def execPerSelfFence (s : State) : Host.Outcome State Fault Refusal :=
  .next { s with dev := settleDown (Machine.selfFence 4 (dropLatches s.dev)) }

/-- PAIRING_TIMEOUT (R499). -/
def execPairingTimeout (s : State) : Host.Outcome State Fault Refusal :=
  .next { s with dev := settleDown (Machine.pairingTimeout s.dev) }

/-- CONTEST_ROUND_END (R502). -/
def execContestRoundEnd (s : State) : Host.Outcome State Fault Refusal :=
  .next { s with dev := settleDown (Machine.contestRoundEnd s.dev) }

/-- CONTEST_TIMEOUT (R502). -/
def execContestTimeout (s : State) : Host.Outcome State Fault Refusal :=
  .next { s with dev := settleDown (Machine.contestTimeout s.dev) }

/-- ADOPT_END (R506). -/
def execAdoptEnd (s : State) : Host.Outcome State Fault Refusal :=
  .next { s with dev := settleDown (Machine.adoptEnd s.dev) }

/-- PUBLISH_END (R508). -/
def execPublishEnd (s : State) : Host.Outcome State Fault Refusal :=
  .next { s with dev := settleDown (Machine.publishEnd s.dev) }

/-- SECURED (R509). -/
def execSecured (s : State) : Host.Outcome State Fault Refusal :=
  .next { s with dev := settleDown (Machine.secured s.dev) }

/-- VOTERS (R503). -/
def execVoters (what : Nat) (gen : Nat) (kind : Nat) (s : State) : Host.Outcome State Fault Refusal :=
  .next { s with dev := settleDown (votersMsg what gen kind (rxMsg s.dev)) }

end Sys2Proof.Machine
end

