-- ==== Sys2Proof/Machine/ExecTransport.lean ====
section
/-! DEFINITION. The meanings of the commands of family Transport: each answers a next state in which only the head has changed. -/

namespace Sys2Proof.Machine

/-- RTU (R352). -/
def execRtu (cm : Nat) (s : State) : Host.Outcome State Fault Refusal :=
  .next { s with dev := settleDown (cmRtu cm s.dev) }

/-- MRA (R352). -/
def execMra (cm : Nat) (s : State) : Host.Outcome State Fault Refusal :=
  .next { s with dev := settleDown (cmMra cm s.dev) }

/-- DREQ (R352). -/
def execDreq (cm : Nat) (s : State) : Host.Outcome State Fault Refusal :=
  .next { s with dev := settleDown (cmDreq cm s.dev) }

/-- DREP (R352). -/
def execDrep (cm : Nat) (s : State) : Host.Outcome State Fault Refusal :=
  .next { s with dev := settleDown (cmDrep cm s.dev) }

/-- RC_SEND_PACKET (R358). -/
def execRcSendPacket (n : Nat) (psn : Nat) (first : Bool) (last : Bool) (len : Nat) (ackReq : Bool) (s : State) : Host.Outcome State Fault Refusal :=
  .next { s with dev := settleDown (Machine.rcSendPacket n psn first last len ackReq s.dev) }

/-- RC_WRITE_PACKET (R358). -/
def execRcWritePacket (n : Nat) (psn : Nat) (first : Bool) (last : Bool) (key : Nat) (va : Nat) (len : Nat) (b : Bytes) (ackReq : Bool) (s : State) : Host.Outcome State Fault Refusal :=
  .next { s with dev := settleDown (Machine.rcWritePacket n psn first last key va len b ackReq s.dev) }

/-- RC_READ_REQUEST (R378). -/
def execRcReadRequest (n : Nat) (psn : Nat) (key : Nat) (va : Nat) (len : Nat) (s : State) : Host.Outcome State Fault Refusal :=
  .next { s with dev := settleDown (Machine.rcReadRequest n psn key va len s.dev) }

/-- RC_READ_RESPONSE (R355). -/
def execRcReadResponse (n : Nat) (psn : Nat) (last : Bool) (b : Bytes) (s : State) : Host.Outcome State Fault Refusal :=
  .next { s with dev := settleDown (Machine.rcReadResponse n psn last b s.dev) }

/-- RC_ACK (R355). -/
def execRcAck (n : Nat) (psn : Nat) (s : State) : Host.Outcome State Fault Refusal :=
  .next { s with dev := settleDown (Machine.rcAck n psn s.dev) }

/-- RC_NAK (R360). -/
def execRcNak (n : Nat) (psn : Nat) (syn : Nat) (s : State) : Host.Outcome State Fault Refusal :=
  .next { s with dev := settleDown (Machine.rcNak n psn syn s.dev) }

/-- RNR_NAK (R361). -/
def execRnrNak (n : Nat) (psn : Nat) (s : State) : Host.Outcome State Fault Refusal :=
  .next { s with dev := settleDown (Machine.rnrNak n psn s.dev) }

/-- RC_FLUSH (R357). -/
def execRcFlush (n : Nat) (psn : Nat) (key : Nat) (va : Nat) (len : Nat) (s : State) : Host.Outcome State Fault Refusal :=
  .next { s with dev := settleDown (Machine.rcFlush n psn key va len s.dev) }

/-- RC_ATOMIC (R351). -/
def execRcAtomic (n : Nat) (psn : Nat) (s : State) : Host.Outcome State Fault Refusal :=
  .next { s with dev := settleDown (Machine.rcAtomic n psn s.dev) }

/-- ACK_TIMER (R358). -/
def execAckTimer (n : Nat) (s : State) : Host.Outcome State Fault Refusal :=
  .next { s with dev := settleDown (Machine.ackTimer n s.dev) }

/-- RETRANSMIT_TIMEOUT (R360). -/
def execRetransmitTimeout (n : Nat) (s : State) : Host.Outcome State Fault Refusal :=
  .next { s with dev := settleDown (Machine.retransmitTimeout n s.dev) }

/-- RNR_TIMER (R361). -/
def execRnrTimer (n : Nat) (s : State) : Host.Outcome State Fault Refusal :=
  .next { s with dev := settleDown (Machine.rnrTimer n s.dev) }

/-- SP_WRITE (R370). -/
def execSpWrite (n : Nat) (psn : Nat) (msn : Nat) (len : Nat) (off : Nat) (key : Nat) (va : Nat) (path : Nat) (b : Bytes) (s : State) : Host.Outcome State Fault Refusal :=
  .next { s with dev := settleDown (Machine.spWrite n psn msn len off key va path b s.dev) }

/-- SP_SEND (R370). -/
def execSpSend (n : Nat) (psn : Nat) (msn : Nat) (len : Nat) (off : Nat) (ssn : Nat) (path : Nat) (b : Bytes) (s : State) : Host.Outcome State Fault Refusal :=
  .next { s with dev := settleDown (Machine.spSend n psn msn len off ssn path b s.dev) }

/-- SP_FLUSH (R375). -/
def execSpFlush (n : Nat) (psn : Nat) (msn : Nat) (len : Nat) (off : Nat) (va : Nat) (path : Nat) (s : State) : Host.Outcome State Fault Refusal :=
  .next { s with dev := settleDown (Machine.spFlush n psn msn len off va path s.dev) }

/-- SP_SACK (R373). -/
def execSpSack (n : Nat) (base : Nat) (msnDone : Nat) (flushMsn : Nat) (limit : Nat) (bits : Nat) (s : State) : Host.Outcome State Fault Refusal :=
  .next { s with dev := settleDown (Machine.spSack n base msnDone flushMsn limit bits s.dev) }

/-- SP_NAK (R376). -/
def execSpNak (n : Nat) (msn : Nat) (s : State) : Host.Outcome State Fault Refusal :=
  .next { s with dev := settleDown (Machine.spNak n msn s.dev) }

/-- SACK_TIMER (R372). -/
def execSackTimer (n : Nat) (s : State) : Host.Outcome State Fault Refusal :=
  .next { s with dev := settleDown (Machine.sackTimer n s.dev) }

/-- SPREAD_RTO (R373). -/
def execSpreadRto (n : Nat) (psn : Nat) (s : State) : Host.Outcome State Fault Refusal :=
  .next { s with dev := settleDown (Machine.spreadRto n psn s.dev) }

/-- PATH_RESUME (R374). -/
def execPathResume (n : Nat) (path : Nat) (s : State) : Host.Outcome State Fault Refusal :=
  .next { s with dev := settleDown (Machine.pathResume n path s.dev) }

/-- MW_REWRITE_COMPLETE (R379). -/
def execMwRewriteComplete (w : Nat) (s : State) : Host.Outcome State Fault Refusal :=
  .next { s with dev := settleDown (Machine.mwRewriteComplete w s.dev) }

end Sys2Proof.Machine
end

