-- ==== Sys2Proof/Machine/ExecTray.lean ====
section
/-! DEFINITION. The meanings of the commands of family Tray: each answers a next state in which only the head has changed. -/

namespace Sys2Proof.Machine

/-- TICKET_OFFER (R101). -/
def execTicketOffer (tk : Ticket) (s : State) : Host.Outcome State Fault Refusal :=
  .next { s with dev := syncLevels (Machine.ticketOffer tk s.dev) }

/-- TICKET_REOFFER (R101). -/
def execTicketReoffer (issuer : Nat) (seq : Nat) (s : State) : Host.Outcome State Fault Refusal :=
  .next { s with dev := syncLevels (Machine.ticketReoffer issuer seq s.dev) }

/-- TICKET_DISPATCH (R102). -/
def execTicketDispatch (t : Nat) (s : State) : Host.Outcome State Fault Refusal :=
  .next { s with dev := syncLevels (Machine.ticketDispatch t s.dev) }

/-- TICKET_COMPLETE (R97). -/
def execTicketComplete (t : Nat) (r : Nat) (agree : Bool) (s : State) : Host.Outcome State Fault Refusal :=
  .next { s with dev := syncLevels (Machine.ticketComplete t r agree s.dev) }

/-- TRAY_STEAL (R103). -/
def execTraySteal (t : Nat) (s : State) : Host.Outcome State Fault Refusal :=
  .next { s with dev := syncLevels (Machine.traySteal t s.dev) }

/-- STEAL_RETRY_TIMER (R103). -/
def execStealRetryTimer (t : Nat) (s : State) : Host.Outcome State Fault Refusal :=
  .next { s with dev := syncLevels (Machine.stealRetryTimer t s.dev) }

/-- STEAL_ARRIVAL (R104). -/
def execStealArrival (t : Nat) (s : State) : Host.Outcome State Fault Refusal :=
  .next { s with dev := syncLevels (Machine.stealArrival t s.dev) }

/-- MOVE_NOTICE (R104). -/
def execMoveNotice (issuer : Nat) (seq : Nat) (s : State) : Host.Outcome State Fault Refusal :=
  .next { s with dev := syncLevels (Machine.moveNotice issuer seq s.dev) }

/-- DRAIN_BOUND_HANDOFF (R605). -/
def execDrainBoundHandoff (t : Nat) (s : State) : Host.Outcome State Fault Refusal :=
  .next { s with dev := syncLevels (Machine.drainBoundHandoff t s.dev) }

/-- TWIN_RESERVE (R105). -/
def execTwinReserve (t : Nat) (s : State) : Host.Outcome State Fault Refusal :=
  .next { s with dev := syncLevels (Machine.twinReserve t s.dev) }

/-- TWIN_SIGNATURE (R106). -/
def execTwinSignature (t : Nat) (r : Nat) (sig : Nat) (s : State) : Host.Outcome State Fault Refusal :=
  .next { s with dev := syncLevels (Machine.twinSignature t r sig s.dev) }

/-- TWIN_SIGNATURE_LATE (R106). -/
def execTwinSignatureLate (t : Nat) (r : Nat) (s : State) : Host.Outcome State Fault Refusal :=
  .next { s with dev := syncLevels (Machine.twinSignatureLate t r s.dev) }

/-- WAKE_DECISION (R111). -/
def execWakeDecision (plane : Nat) (pers : Nat) (s : State) : Host.Outcome State Fault Refusal :=
  .next { s with dev := syncLevels (Machine.wakeDecision plane pers s.dev) }

/-- TRAY_PLL_LOCKED (R110). -/
def execTrayPllLocked (t : Nat) (s : State) : Host.Outcome State Fault Refusal :=
  .next { s with dev := syncLevels (Machine.trayPllLocked t s.dev) }

/-- TRAY_CONTROLLER_RESUMED (R110). -/
def execTrayControllerResumed (t : Nat) (s : State) : Host.Outcome State Fault Refusal :=
  .next { s with dev := syncLevels (Machine.trayControllerResumed t s.dev) }

/-- SLEEP_DECISION (R111). -/
def execSleepDecision (plane : Nat) (pers : Nat) (s : State) : Host.Outcome State Fault Refusal :=
  .next { s with dev := syncLevels (Machine.sleepDecision plane pers s.dev) }

/-- TRAY_GOES_COLD (R110). -/
def execTrayGoesCold (t : Nat) (s : State) : Host.Outcome State Fault Refusal :=
  .next { s with dev := syncLevels (Machine.trayGoesCold t s.dev) }

/-- GROUP_CLOSE (R111). -/
def execGroupClose (plane : Nat) (pers : Nat) (s : State) : Host.Outcome State Fault Refusal :=
  .next { s with dev := syncLevels (Machine.groupClose plane pers s.dev) }

/-- REBALANCE_TICK (R113). -/
def execRebalanceTick (loads : List GroupTime) (s : State) : Host.Outcome State Fault Refusal :=
  .next { s with dev := syncLevels (Machine.rebalanceTick loads s.dev) }

/-- TEST_PERIOD_EXPIRY (R114). -/
def execTestPeriodExpiry (s : State) : Host.Outcome State Fault Refusal :=
  .next { s with dev := syncLevels (Machine.testPeriodExpiry s.dev) }

/-- TEST_PERIOD_WRITE (R114). -/
def execTestPeriodWrite (v : Nat) (s : State) : Host.Outcome State Fault Refusal :=
  .next { s with dev := syncLevels (Machine.testPeriodWrite v (dropLatches s.dev)) }

/-- TEST_REQUEST (R115). -/
def execTestRequest (tray : Nat) (roll : Nat) (go : Bool) (s : State) : Host.Outcome State Fault Refusal :=
  .next { s with dev := syncLevels (Machine.testRequest tray roll go (dropLatches s.dev)) }

/-- ROLL_TEST_START (R115). -/
def execRollTestStart (s : State) : Host.Outcome State Fault Refusal :=
  .next { s with dev := syncLevels (Machine.rollTestStart s.dev) }

/-- ROLL_TEST_DONE (R115). -/
def execRollTestDone (pass : Bool) (s : State) : Host.Outcome State Fault Refusal :=
  .next { s with dev := syncLevels (Machine.rollTestDone pass s.dev) }

/-- ROLL_RELOAD_DONE (R115). -/
def execRollReloadDone (s : State) : Host.Outcome State Fault Refusal :=
  .next { s with dev := syncLevels (Machine.rollReloadDone s.dev) }

/-- ROLL_WATCHDOG (R116). -/
def execRollWatchdog (t : Nat) (r : Nat) (s : State) : Host.Outcome State Fault Refusal :=
  .next { s with dev := syncLevels (Machine.rollWatchdog t r s.dev) }

/-- SEQUENCER_PARITY_ERROR (R116). -/
def execSequencerParityError (t : Nat) (r : Nat) (s : State) : Host.Outcome State Fault Refusal :=
  .next { s with dev := syncLevels (Machine.sequencerParityError t r s.dev) }

/-- TRAY_POLL (R116). -/
def execTrayPoll (missed : Nat) (s : State) : Host.Outcome State Fault Refusal :=
  .next { s with dev := syncLevels (Machine.trayPoll missed s.dev) }

/-- TRAY_SELF_CHECK_FAIL (R116). -/
def execTraySelfCheckFail (t : Nat) (s : State) : Host.Outcome State Fault Refusal :=
  .next { s with dev := syncLevels (Machine.traySelfCheckFail t s.dev) }

/-- TRAY_FENCE_COMPLETE (R116). -/
def execTrayFenceComplete (t : Nat) (s : State) : Host.Outcome State Fault Refusal :=
  .next { s with dev := syncLevels (Machine.trayFenceComplete t s.dev) }

/-- MASK_RESEED (R477). -/
def execMaskReseed (t : Nat) (r : Nat) (s : State) : Host.Outcome State Fault Refusal :=
  .next { s with dev := syncLevels (Machine.maskReseed t r s.dev) }

end Sys2Proof.Machine
end

