-- ==== Sys2Proof/Machine/ExecWrite.lean ====
section
/-! DEFINITION. The meanings of the commands of family Write: each answers a next state in which only the head has changed. -/

namespace Sys2Proof.Machine

/-- WRITE (R123). -/
def execWrite (o : Origin) (e : Sqe) (cap : Bytes) (s : State) : Host.Outcome State Fault Refusal :=
  .next { s with dev := settleDown (nvmWrite o e cap s.dev) }

/-- WRITE_ADMIT (R127). -/
def execWriteAdmit (s : State) : Host.Outcome State Fault Refusal :=
  .next { s with dev := settleDown (Machine.writeAdmit s.dev) }

/-- DATA_LANDED (R131). -/
def execDataLanded (cmd : Nat) (s : State) : Host.Outcome State Fault Refusal :=
  .next { s with dev := settleDown (Machine.dataLanded cmd s.dev) }

/-- BEFORE_IMAGE_DONE (R132). -/
def execBeforeImageDone (cmd : Nat) (chunk : Nat) (s : State) : Host.Outcome State Fault Refusal :=
  .next { s with dev := settleDown (Machine.beforeImageDone cmd chunk s.dev) }

/-- COMMAND_GATE (R138). -/
def execCommandGate (cmd : Nat) (s : State) : Host.Outcome State Fault Refusal :=
  .next { s with dev := settleDown (Machine.commandGate cmd s.dev) }

/-- MIRROR_FLUSH_ISSUE (R150). -/
def execMirrorFlushIssue (s : State) : Host.Outcome State Fault Refusal :=
  .next { s with dev := settleDown (Machine.mirrorFlushIssue s.dev) }

/-- JOURNAL_PAGE_TIMER (R148). -/
def execJournalPageTimer (s : State) : Host.Outcome State Fault Refusal :=
  .next { s with dev := settleDown (Machine.journalPageTimer s.dev) }

/-- SOLO_BATCH_DURABLE (R152). -/
def execSoloBatchDurable (s : State) : Host.Outcome State Fault Refusal :=
  .next { s with dev := settleDown (Machine.soloBatchDurable s.dev) }

/-- STAGING_PROGRAMMED (R151). -/
def execStagingProgrammed (page : Nat) (s : State) : Host.Outcome State Fault Refusal :=
  .next { s with dev := settleDown (Machine.stagingProgrammed page s.dev) }

/-- DIRTY_BUDGET_WRITE (R128). -/
def execDirtyBudgetWrite (v : Nat) (s : State) : Host.Outcome State Fault Refusal :=
  .next { s with dev := settleDown (Machine.dirtyBudgetWrite v (dropLatches s.dev)) }

end Sys2Proof.Machine
end

