-- ==== Sys2Proof/Machine/Dispatch.lean ====
section
/-! DEFINITION. The dispatch: one arm per command, each one direct call of its meaning. -/

namespace Sys2Proof.Machine

def exec (i : Instr) (s : State) : Host.Outcome State Fault Refusal :=
  match i with
  | .registerWrite a size v => Sys2Proof.Machine.execRegisterWrite a size v s
  | .misalignedAccess wr a size v => Sys2Proof.Machine.execMisalignedAccess wr a size v s
  | .lowHalfRead a => Sys2Proof.Machine.execLowHalfRead a s
  | .highHalfRead a => Sys2Proof.Machine.execHighHalfRead a s
  | .lowHalfWrite a v => Sys2Proof.Machine.execLowHalfWrite a v s
  | .highHalfWrite a v => Sys2Proof.Machine.execHighHalfWrite a v s
  | .rw1cWrite a v => Sys2Proof.Machine.execRw1cWrite a v s
  | .rcRead a size => Sys2Proof.Machine.execRcRead a size s
  | .clr a => Sys2Proof.Machine.execClr a s
  | .verify => Sys2Proof.Machine.execVerify s
  | .writeSlot slot => Sys2Proof.Machine.execWriteSlot slot s
  | .apply => Sys2Proof.Machine.execApply s
  | .applySlot slot => Sys2Proof.Machine.execApplySlot slot s
  | .imageAbort => Sys2Proof.Machine.execImageAbort s
  | .raiseSvn => Sys2Proof.Machine.execRaiseSvn s
  | .reapply region => Sys2Proof.Machine.execReapply region s
  | .revoke key => Sys2Proof.Machine.execRevoke key s
  | .applyOos => Sys2Proof.Machine.execApplyOos s
  | .imageFetchDone bytes => Sys2Proof.Machine.execImageFetchDone bytes s
  | .qspiOperationDone ok bytes => Sys2Proof.Machine.execQspiOperationDone ok bytes s
  | .slotRecordRereadDone bytes => Sys2Proof.Machine.execSlotRecordRereadDone bytes s
  | .applyResume => Sys2Proof.Machine.execApplyResume s
  | .trayRebakeSpacingExpiry => Sys2Proof.Machine.execTrayRebakeSpacingExpiry s
  | .regionDrainEnd => Sys2Proof.Machine.execRegionDrainEnd s
  | .regionRestart ok => Sys2Proof.Machine.execRegionRestart ok s
  | .hearthBankLoadDone => Sys2Proof.Machine.execHearthBankLoadDone s
  | .hearthBankSwap => Sys2Proof.Machine.execHearthBankSwap s
  | .oosPhaseDone => Sys2Proof.Machine.execOosPhaseDone s
  | .ticketOffer tk => Sys2Proof.Machine.execTicketOffer tk s
  | .ticketReoffer issuer seq => Sys2Proof.Machine.execTicketReoffer issuer seq s
  | .ticketDispatch t => Sys2Proof.Machine.execTicketDispatch t s
  | .ticketComplete t r agree => Sys2Proof.Machine.execTicketComplete t r agree s
  | .issuerCompletion issuer seq => Sys2Proof.Machine.execIssuerCompletion issuer seq s
  | .traySteal t => Sys2Proof.Machine.execTraySteal t s
  | .stealRetryTimer t => Sys2Proof.Machine.execStealRetryTimer t s
  | .stealArrival t => Sys2Proof.Machine.execStealArrival t s
  | .moveNotice issuer seq => Sys2Proof.Machine.execMoveNotice issuer seq s
  | .drainBoundHandoff t => Sys2Proof.Machine.execDrainBoundHandoff t s
  | .twinReserve t => Sys2Proof.Machine.execTwinReserve t s
  | .twinSignature t r sig => Sys2Proof.Machine.execTwinSignature t r sig s
  | .twinSignatureLate t r => Sys2Proof.Machine.execTwinSignatureLate t r s
  | .wakeDecision plane pers => Sys2Proof.Machine.execWakeDecision plane pers s
  | .trayPllLocked t => Sys2Proof.Machine.execTrayPllLocked t s
  | .trayControllerResumed t => Sys2Proof.Machine.execTrayControllerResumed t s
  | .sleepDecision plane pers => Sys2Proof.Machine.execSleepDecision plane pers s
  | .trayGoesCold t => Sys2Proof.Machine.execTrayGoesCold t s
  | .groupClose plane pers => Sys2Proof.Machine.execGroupClose plane pers s
  | .rebalanceTick loads => Sys2Proof.Machine.execRebalanceTick loads s
  | .testPeriodExpiry => Sys2Proof.Machine.execTestPeriodExpiry s
  | .testPeriodWrite v => Sys2Proof.Machine.execTestPeriodWrite v s
  | .testRequest tray roll go => Sys2Proof.Machine.execTestRequest tray roll go s
  | .rollTestStart => Sys2Proof.Machine.execRollTestStart s
  | .rollTestDone pass => Sys2Proof.Machine.execRollTestDone pass s
  | .rollReloadDone => Sys2Proof.Machine.execRollReloadDone s
  | .rollWatchdog t r => Sys2Proof.Machine.execRollWatchdog t r s
  | .sequencerParityError t r => Sys2Proof.Machine.execSequencerParityError t r s
  | .trayPoll missed => Sys2Proof.Machine.execTrayPoll missed s
  | .traySelfCheckFail t => Sys2Proof.Machine.execTraySelfCheckFail t s
  | .trayFenceComplete t => Sys2Proof.Machine.execTrayFenceComplete t s
  | .maskReseed t r => Sys2Proof.Machine.execMaskReseed t r s
  | .write o e cap => Sys2Proof.Machine.execWrite o e cap s
  | .writeAdmit => Sys2Proof.Machine.execWriteAdmit s
  | .dataLanded cmd => Sys2Proof.Machine.execDataLanded cmd s
  | .beforeImageDone cmd chunk => Sys2Proof.Machine.execBeforeImageDone cmd chunk s
  | .commandGate cmd => Sys2Proof.Machine.execCommandGate cmd s
  | .mirrorFlushIssue => Sys2Proof.Machine.execMirrorFlushIssue s
  | .journalPageTimer => Sys2Proof.Machine.execJournalPageTimer s
  | .soloBatchDurable => Sys2Proof.Machine.execSoloBatchDurable s
  | .stagingProgrammed page => Sys2Proof.Machine.execStagingProgrammed page s
  | .dirtyBudgetWrite v => Sys2Proof.Machine.execDirtyBudgetWrite v s
  | .read o e cap => Sys2Proof.Machine.execRead o e cap s
  | .readAdmit => Sys2Proof.Machine.execReadAdmit s
  | .readLocate rd chunk => Sys2Proof.Machine.execReadLocate rd chunk s
  | .pantryProbe cmd chunk bad => Sys2Proof.Machine.execPantryProbe cmd chunk bad s
  | .probeWaitEnd cmd chunk => Sys2Proof.Machine.execProbeWaitEnd cmd chunk s
  | .indexAppendFlush => Sys2Proof.Machine.execIndexAppendFlush s
  | .learningEnd => Sys2Proof.Machine.execLearningEnd s
  | .warmingEnd => Sys2Proof.Machine.execWarmingEnd s
  | .pageInDone key => Sys2Proof.Machine.execPageInDone key s
  | .mapLookup rd chunk => Sys2Proof.Machine.execMapLookup rd chunk s
  | .writebackStart => Sys2Proof.Machine.execWritebackStart s
  | .writebackProgrammed slot => Sys2Proof.Machine.execWritebackProgrammed slot s
  | .anchorTimer => Sys2Proof.Machine.execAnchorTimer s
  | .mapAnchorCmd => Sys2Proof.Machine.execMapAnchorCmd s
  | .anchorDurable => Sys2Proof.Machine.execAnchorDurable s
  | .mapInvalidate => Sys2Proof.Machine.execMapInvalidate s
  | .invalidatePhaseEnd => Sys2Proof.Machine.execInvalidatePhaseEnd s
  | .resetWalkEnd => Sys2Proof.Machine.execResetWalkEnd s
  | .tagParityError set => Sys2Proof.Machine.execTagParityError set s
  | .pageRebuildDone key => Sys2Proof.Machine.execPageRebuildDone key s
  | .dramUncorrectable slot index => Sys2Proof.Machine.execDramUncorrectable slot index s
  | .mapPinWrite pin key valid span => Sys2Proof.Machine.execMapPinWrite pin key valid span s
  | .blockSeal m ebn => Sys2Proof.Machine.execBlockSeal m ebn s
  | .blockReadbackDone m ebn => Sys2Proof.Machine.execBlockReadbackDone m ebn s
  | .mPageTimer m => Sys2Proof.Machine.execMPageTimer m s
  | .gcStartTrigger m => Sys2Proof.Machine.execGcStartTrigger m s
  | .gcVictimExamine m ebn => Sys2Proof.Machine.execGcVictimExamine m ebn s
  | .victimErase m ebn => Sys2Proof.Machine.execVictimErase m ebn s
  | .reclaim handle => Sys2Proof.Machine.execReclaim handle s
  | .scrubTick m => Sys2Proof.Machine.execScrubTick m s
  | .scrubAll => Sys2Proof.Machine.execScrubAll s
  | .lossWalk => Sys2Proof.Machine.execLossWalk s
  | .moduleFail m => Sys2Proof.Machine.execModuleFail m s
  | .moduleFailTimeout m => Sys2Proof.Machine.execModuleFailTimeout m s
  | .tallyTimer m ebn => Sys2Proof.Machine.execTallyTimer m ebn s
  | .sweepPhaseEnd => Sys2Proof.Machine.execSweepPhaseEnd s
  | .plaSettleEnd => Sys2Proof.Machine.execPlaSettleEnd s
  | .plaSectionsWritten copy => Sys2Proof.Machine.execPlaSectionsWritten copy s
  | .plaFlushed => Sys2Proof.Machine.execPlaFlushed s
  | .idleBlock m ok => Sys2Proof.Machine.execIdleBlock m ok s
  | .ack m lseq => Sys2Proof.Machine.execAck m lseq s
  | .nak m lseq => Sys2Proof.Machine.execNak m lseq s
  | .credit m cmds units => Sys2Proof.Machine.execCredit m cmds units s
  | .mediaFrameError m => Sys2Proof.Machine.execMediaFrameError m s
  | .mediaReadResponse m r => Sys2Proof.Machine.execMediaReadResponse m r s
  | .programResponse m r => Sys2Proof.Machine.execProgramResponse m r s
  | .eraseResponse m r => Sys2Proof.Machine.execEraseResponse m r s
  | .statusResponse m r => Sys2Proof.Machine.execStatusResponse m r s
  | .sbReadResponse m r => Sys2Proof.Machine.execSbReadResponse m r s
  | .sbWriteResponse m r => Sys2Proof.Machine.execSbWriteResponse m r s
  | .witnessReadResponse m r => Sys2Proof.Machine.execWitnessReadResponse m r s
  | .witnessCasResponse m r => Sys2Proof.Machine.execWitnessCasResponse m r s
  | .fenceResponse m r => Sys2Proof.Machine.execFenceResponse m r s
  | .plwResponse m r => Sys2Proof.Machine.execPlwResponse m r s
  | .echoResponse m r => Sys2Proof.Machine.execEchoResponse m r s
  | .responseTimeout m tag => Sys2Proof.Machine.execResponseTimeout m tag s
  | .statusPoll m => Sys2Proof.Machine.execStatusPoll m s
  | .linkDetected m => Sys2Proof.Machine.execLinkDetected m s
  | .equaliseDone m => Sys2Proof.Machine.execEqualiseDone m s
  | .blockLock m => Sys2Proof.Machine.execBlockLock m s
  | .train m role ver port id => Sys2Proof.Machine.execTrain m role ver port id s
  | .mediaLinkUpDone m => Sys2Proof.Machine.execMediaLinkUpDone m s
  | .mediaSignalLoss m => Sys2Proof.Machine.execMediaSignalLoss m s
  | .trainingFailed m => Sys2Proof.Machine.execTrainingFailed m s
  | .linkRestartTimer m => Sys2Proof.Machine.execLinkRestartTimer m s
  | .mediaBringupTimeout m => Sys2Proof.Machine.execMediaBringupTimeout m s
  | .linkRetrain m => Sys2Proof.Machine.execLinkRetrain m s
  | .mediaLinkDown m => Sys2Proof.Machine.execMediaLinkDown m s
  | .mediaLinkUp m => Sys2Proof.Machine.execMediaLinkUp m s
  | .frameReceive p len tags prio fill fcsOk full ipBad k => Sys2Proof.Machine.execFrameReceive p len tags prio fill fcsOk full ipBad k s
  | .pfcFrame p prio pause => Sys2Proof.Machine.execPfcFrame p prio pause s
  | .pfcStorm p => Sys2Proof.Machine.execPfcStorm p s
  | .portLinkDown p => Sys2Proof.Machine.execPortLinkDown p s
  | .portLinkUp p => Sys2Proof.Machine.execPortLinkUp p s
  | .portRestartTimer p => Sys2Proof.Machine.execPortRestartTimer p s
  | .portDown p => Sys2Proof.Machine.execPortDown p s
  | .portUp p => Sys2Proof.Machine.execPortUp p s
  | .ptpEventMessage p kind ptpSeq time => Sys2Proof.Machine.execPtpEventMessage p kind ptpSeq time s
  | .ptpAnnounce p rank => Sys2Proof.Machine.execPtpAnnounce p rank s
  | .cnpReceive n => Sys2Proof.Machine.execCnpReceive n s
  | .ccInterval n => Sys2Proof.Machine.execCcInterval n s
  | .req remote p dest psn tcp pmtu ip qid spread flush => Sys2Proof.Machine.execReq remote p dest psn tcp pmtu ip qid spread flush s
  | .rep cm remote dest psn spread => Sys2Proof.Machine.execRep cm remote dest psn spread s
  | .rtu cm => Sys2Proof.Machine.execRtu cm s
  | .rej cm => Sys2Proof.Machine.execRej cm s
  | .mra cm => Sys2Proof.Machine.execMra cm s
  | .dreq cm => Sys2Proof.Machine.execDreq cm s
  | .drep cm => Sys2Proof.Machine.execDrep cm s
  | .rcSendPacket n psn first last len ackReq => Sys2Proof.Machine.execRcSendPacket n psn first last len ackReq s
  | .rcWritePacket n psn first last key va len b ackReq => Sys2Proof.Machine.execRcWritePacket n psn first last key va len b ackReq s
  | .rcReadRequest n psn key va len => Sys2Proof.Machine.execRcReadRequest n psn key va len s
  | .rcReadResponse n psn last b => Sys2Proof.Machine.execRcReadResponse n psn last b s
  | .rcAck n psn => Sys2Proof.Machine.execRcAck n psn s
  | .rcNak n psn syn => Sys2Proof.Machine.execRcNak n psn syn s
  | .rnrNak n psn => Sys2Proof.Machine.execRnrNak n psn s
  | .rcFlush n psn key va len => Sys2Proof.Machine.execRcFlush n psn key va len s
  | .rcAtomic n psn => Sys2Proof.Machine.execRcAtomic n psn s
  | .ackTimer n => Sys2Proof.Machine.execAckTimer n s
  | .retransmitTimeout n => Sys2Proof.Machine.execRetransmitTimeout n s
  | .rnrTimer n => Sys2Proof.Machine.execRnrTimer n s
  | .spWrite n psn msn len off key va path b => Sys2Proof.Machine.execSpWrite n psn msn len off key va path b s
  | .spSend n psn msn len off ssn path b => Sys2Proof.Machine.execSpSend n psn msn len off ssn path b s
  | .spFlush n psn msn len off va path => Sys2Proof.Machine.execSpFlush n psn msn len off va path s
  | .spSack n base msnDone flushMsn limit bits => Sys2Proof.Machine.execSpSack n base msnDone flushMsn limit bits s
  | .spNak n msn => Sys2Proof.Machine.execSpNak n msn s
  | .sackTimer n => Sys2Proof.Machine.execSackTimer n s
  | .spreadRto n psn => Sys2Proof.Machine.execSpreadRto n psn s
  | .pathResume n path => Sys2Proof.Machine.execPathResume n path s
  | .mwRewriteComplete w => Sys2Proof.Machine.execMwRewriteComplete w s
  | .flush o e cap => Sys2Proof.Machine.execFlush o e cap s
  | .writeZeroes o e cap => Sys2Proof.Machine.execWriteZeroes o e cap s
  | .datasetManagement o e cap => Sys2Proof.Machine.execDatasetManagement o e cap s
  | .secureDeallocate o e cap => Sys2Proof.Machine.execSecureDeallocate o e cap s
  | .getLogPage o e cap => Sys2Proof.Machine.execGetLogPage o e cap s
  | .identify o e cap => Sys2Proof.Machine.execIdentify o e cap s
  | .abortCommand o e cap => Sys2Proof.Machine.execAbortCommand o e cap s
  | .setFeatures o e cap => Sys2Proof.Machine.execSetFeatures o e cap s
  | .getFeatures o e cap => Sys2Proof.Machine.execGetFeatures o e cap s
  | .asynchronousEventRequest o e cap => Sys2Proof.Machine.execAsynchronousEventRequest o e cap s
  | .keepAlive o e cap => Sys2Proof.Machine.execKeepAlive o e cap s
  | .keepAliveExpiry c => Sys2Proof.Machine.execKeepAliveExpiry c s
  | .namespaceManagement o e cap => Sys2Proof.Machine.execNamespaceManagement o e cap s
  | .namespaceAttachment o e cap => Sys2Proof.Machine.execNamespaceAttachment o e cap s
  | .connect n e b => Sys2Proof.Machine.execConnect n e b s
  | .propertyGet o e cap => Sys2Proof.Machine.execPropertyGet o e cap s
  | .propertySet o e cap => Sys2Proof.Machine.execPropertySet o e cap s
  | .disconnect o e cap => Sys2Proof.Machine.execDisconnect o e cap s
  | .unsupportedCommand o e cap => Sys2Proof.Machine.execUnsupportedCommand o e cap s
  | .nuseUpdate nsg => Sys2Proof.Machine.execNuseUpdate nsg s
  | .dnTailWrite v => Sys2Proof.Machine.execDnTailWrite v s
  | .upHeadWrite v => Sys2Proof.Machine.execUpHeadWrite v s
  | .mqEnable => Sys2Proof.Machine.execMqEnable s
  | .createInstance tag b => Sys2Proof.Machine.execCreateInstance tag b s
  | .deleteInstance tag b => Sys2Proof.Machine.execDeleteInstance tag b s
  | .resetInstance tag b => Sys2Proof.Machine.execResetInstance tag b s
  | .setQos tag b => Sys2Proof.Machine.execSetQos tag b s
  | .setHosts tag b => Sys2Proof.Machine.execSetHosts tag b s
  | .createNs tag b => Sys2Proof.Machine.execCreateNs tag b s
  | .deleteNs tag b => Sys2Proof.Machine.execDeleteNs tag b s
  | .bindSlice tag b => Sys2Proof.Machine.execBindSlice tag b s
  | .unbindSlice tag b => Sys2Proof.Machine.execUnbindSlice tag b s
  | .answer tag b => Sys2Proof.Machine.execAnswer tag b s
  | .rateQueueRelease inst => Sys2Proof.Machine.execRateQueueRelease inst s
  | .sqTailDoorbell sl queue v => Sys2Proof.Machine.execSqTailDoorbell sl queue v s
  | .cqHeadDoorbell sl queue v => Sys2Proof.Machine.execCqHeadDoorbell sl queue v s
  | .balanceTick load => Sys2Proof.Machine.execBalanceTick load s
  | .migrationFreeze inst reason => Sys2Proof.Machine.execMigrationFreeze inst reason s
  | .migrationDrainEnd => Sys2Proof.Machine.execMigrationDrainEnd s
  | .migrationPhaseTimeout => Sys2Proof.Machine.execMigrationPhaseTimeout s
  | .migBlob inst b => Sys2Proof.Machine.execMigBlob inst b s
  | .migAck inst code => Sys2Proof.Machine.execMigAck inst code s
  | .migAbort inst => Sys2Proof.Machine.execMigAbort inst s
  | .migrationThawEnd => Sys2Proof.Machine.execMigrationThawEnd s
  | .snapshotCreate o e cap => Sys2Proof.Machine.execSnapshotCreate o e cap s
  | .snapshotDelete o e cap => Sys2Proof.Machine.execSnapshotDelete o e cap s
  | .snapshotSeal nsg id => Sys2Proof.Machine.execSnapshotSeal nsg id s
  | .deletionWalkEnd nsg => Sys2Proof.Machine.execDeletionWalkEnd nsg s
  | .streamStart u => Sys2Proof.Machine.execStreamStart u s
  | .streamResume u => Sys2Proof.Machine.execStreamResume u s
  | .streamStop u => Sys2Proof.Machine.execStreamStop u s
  | .begin u crcOk reason id arg => Sys2Proof.Machine.execBegin u crcOk reason id arg s
  | .ready u crcOk id seq arg arg2 => Sys2Proof.Machine.execReady u crcOk id seq arg arg2 s
  | .commit u crcOk id seq => Sys2Proof.Machine.execCommit u crcOk id seq s
  | .resend u crcOk id seq => Sys2Proof.Machine.execResend u crcOk id seq s
  | .endStream u crcOk id seq => Sys2Proof.Machine.execEndStream u crcOk id seq s
  | .doneStream u crcOk id => Sys2Proof.Machine.execDoneStream u crcOk id s
  | .haltMsg u crcOk reason id => Sys2Proof.Machine.execHaltMsg u crcOk reason id s
  | .replicationFrame u slot => Sys2Proof.Machine.execReplicationFrame u slot s
  | .frameCommitted u seq => Sys2Proof.Machine.execFrameCommitted u seq s
  | .chunkRetryTimer u seq => Sys2Proof.Machine.execChunkRetryTimer u seq s
  | .replicaCreated u => Sys2Proof.Machine.execReplicaCreated u s
  | .provision cfm => Sys2Proof.Machine.execProvision cfm s
  | .enroll cfm slot => Sys2Proof.Machine.execEnroll cfm slot s
  | .fieldLock cfm => Sys2Proof.Machine.execFieldLock cfm s
  | .returnHead cfm => Sys2Proof.Machine.execReturnHead cfm s
  | .challenge => Sys2Proof.Machine.execChallenge s
  | .respond => Sys2Proof.Machine.execRespond s
  | .raise dom => Sys2Proof.Machine.execRaise dom s
  | .raisePhaseEnd => Sys2Proof.Machine.execRaisePhaseEnd s
  | .replSet slot => Sys2Proof.Machine.execReplSet slot s
  | .replClear slot => Sys2Proof.Machine.execReplClear slot s
  | .trngTestFail => Sys2Proof.Machine.execTrngTestFail s
  | .trngRestart ok => Sys2Proof.Machine.execTrngRestart ok s
  | .cipherGo n => Sys2Proof.Machine.execCipherGo n s
  | .cipherAbort n => Sys2Proof.Machine.execCipherAbort n s
  | .cipherKeyWrite n k hctx v => Sys2Proof.Machine.execCipherKeyWrite n k hctx v s
  | .cipherBlockDone n => Sys2Proof.Machine.execCipherBlockDone n s
  | .digestInit alg mac keyLen => Sys2Proof.Machine.execDigestInit alg mac keyLen s
  | .digestKeyWrite v => Sys2Proof.Machine.execDigestKeyWrite v s
  | .digestDataWrite v => Sys2Proof.Machine.execDigestDataWrite v s
  | .digestFinal n v => Sys2Proof.Machine.execDigestFinal n v s
  | .digestResultRead k => Sys2Proof.Machine.execDigestResultRead k s
  | .compressionDone n => Sys2Proof.Machine.execCompressionDone n s
  | .helloMsg device array facts b => Sys2Proof.Machine.execHelloMsg device array facts b s
  | .kexMsg b => Sys2Proof.Machine.execKexMsg b s
  | .confirmMsg b => Sys2Proof.Machine.execConfirmMsg b s
  | .transferMsg b => Sys2Proof.Machine.execTransferMsg b s
  | .pairFailMsg cause => Sys2Proof.Machine.execPairFailMsg cause s
  | .pairingRetry => Sys2Proof.Machine.execPairingRetry s
  | .heartbeatTimer => Sys2Proof.Machine.execHeartbeatTimer s
  | .heartbeatFrame sub b => Sys2Proof.Machine.execHeartbeatFrame sub b s
  | .heartbeatLoss => Sys2Proof.Machine.execHeartbeatLoss s
  | .selfFenceFrame => Sys2Proof.Machine.execSelfFenceFrame s
  | .perSelfFence => Sys2Proof.Machine.execPerSelfFence s
  | .pairingTimeout => Sys2Proof.Machine.execPairingTimeout s
  | .contestRoundEnd => Sys2Proof.Machine.execContestRoundEnd s
  | .contestTimeout => Sys2Proof.Machine.execContestTimeout s
  | .adoptEnd => Sys2Proof.Machine.execAdoptEnd s
  | .publishEnd => Sys2Proof.Machine.execPublishEnd s
  | .secured => Sys2Proof.Machine.execSecured s
  | .join word jsn => Sys2Proof.Machine.execJoin word jsn s
  | .handback seq b => Sys2Proof.Machine.execHandback seq b s
  | .resyncDone first word => Sys2Proof.Machine.execResyncDone first word s
  | .returnHoldoffExpiry => Sys2Proof.Machine.execReturnHoldoffExpiry s
  | .anchor b => Sys2Proof.Machine.execAnchor b s
  | .budget mib => Sys2Proof.Machine.execBudget mib s
  | .windows stg desc jrn fwd bulk => Sys2Proof.Machine.execWindows stg desc jrn fwd bulk s
  | .voters what gen kind => Sys2Proof.Machine.execVoters what gen kind s
  | .release what jsn => Sys2Proof.Machine.execRelease what jsn s
  | .releaseAck what jsn => Sys2Proof.Machine.execReleaseAck what jsn s
  | .recReq tag handle mode dom => Sys2Proof.Machine.execRecReq tag handle mode dom s
  | .recResp tag status body => Sys2Proof.Machine.execRecResp tag status body s
  | .recEnd handle what => Sys2Proof.Machine.execRecEnd handle what s
  | .drop h => Sys2Proof.Machine.execDrop h s
  | .dropAck h => Sys2Proof.Machine.execDropAck h s
  | .readReq tag what key va => Sys2Proof.Machine.execReadReq tag what key va s
  | .readResp tag st => Sys2Proof.Machine.execReadResp tag st s
  | .tally what n => Sys2Proof.Machine.execTally what n s
  | .sweepReq dom => Sys2Proof.Machine.execSweepReq dom s
  | .sweepDone dom => Sys2Proof.Machine.execSweepDone dom s
  | .fwdCmd what off len b => Sys2Proof.Machine.execFwdCmd what off len b s
  | .fwdChunk what k off mask => Sys2Proof.Machine.execFwdChunk what k off mask s
  | .fwdCpl what b => Sys2Proof.Machine.execFwdCpl what b s
  | .numReq kind => Sys2Proof.Machine.execNumReq kind s
  | .numResp kind num => Sys2Proof.Machine.execNumResp kind num s
  | .instSync inst deleted b => Sys2Proof.Machine.execInstSync inst deleted b s
  | .lineReq line => Sys2Proof.Machine.execLineReq line s
  | .lineMsg line dirty jsn b => Sys2Proof.Machine.execLineMsg line dirty jsn b s
  | .lineWb line => Sys2Proof.Machine.execLineWb line s
  | .perst reset => Sys2Proof.Machine.execPerst reset s
  | .functionLevelReset => Sys2Proof.Machine.execFunctionLevelReset s
  | .endpointReady => Sys2Proof.Machine.execEndpointReady s
  | .busMasterDisable d3 => Sys2Proof.Machine.execBusMasterDisable d3 s
  | .busMasterEnable => Sys2Proof.Machine.execBusMasterEnable s
  | .msixUnmask vector => Sys2Proof.Machine.execMsixUnmask vector s
  | .msixHoldoffExpiry sl => Sys2Proof.Machine.execMsixHoldoffExpiry sl s
  | .dmaReadCompletion tag status hdr b => Sys2Proof.Machine.execDmaReadCompletion tag status hdr b s
  | .completionTimeout tag => Sys2Proof.Machine.execCompletionTimeout tag s
  | .tlpReceive tlp => Sys2Proof.Machine.execTlpReceive tlp s
  | .bar2Access wr off size v => Sys2Proof.Machine.execBar2Access wr off size v s
  | .uncorrectableInternalError => Sys2Proof.Machine.execUncorrectableInternalError s
  | .powerOn => Sys2Proof.Machine.execPowerOn s
  | .pwrGoodFall => Sys2Proof.Machine.execPwrGoodFall s
  | .sysReset => Sys2Proof.Machine.execSysReset s
  | .powerFail => Sys2Proof.Machine.execPowerFail s
  | .powerRestored => Sys2Proof.Machine.execPowerRestored s
  | .portHoldExpiry => Sys2Proof.Machine.execPortHoldExpiry s
  | .hearthFault => Sys2Proof.Machine.execHearthFault s
  | .resetHoldEnd => Sys2Proof.Machine.execResetHoldEnd s
  | .startupStepDone l => Sys2Proof.Machine.execStartupStepDone l s
  | .temperatureSample degrees => Sys2Proof.Machine.execTemperatureSample degrees s
  | .timeDisagreement => Sys2Proof.Machine.execTimeDisagreement s
  | .stewardFailure stw ok => Sys2Proof.Machine.execStewardFailure stw ok s
  | .fenceRestart => Sys2Proof.Machine.execFenceRestart s
  | .restart => Sys2Proof.Machine.execRestart s
  | .calibrationRequest calKind index go => Sys2Proof.Machine.execCalibrationRequest calKind index go s
  | .calibrationDrainEnd => Sys2Proof.Machine.execCalibrationDrainEnd s
  | .calibrationDone ok => Sys2Proof.Machine.execCalibrationDone ok s
  | .avsResponse ok => Sys2Proof.Machine.execAvsResponse ok s
  | .eventPost ev => Sys2Proof.Machine.execEventPost ev s
  | .eventWrite => Sys2Proof.Machine.execEventWrite s
  | .info pecBad => Sys2Proof.Machine.execInfo pecBad s
  | .setPtr pecBad block => Sys2Proof.Machine.execSetPtr pecBad block s
  | .readRec pecBad => Sys2Proof.Machine.execReadRec pecBad s
  | .smbusTimeout => Sys2Proof.Machine.execSmbusTimeout s
  | .jtagTrst => Sys2Proof.Machine.execJtagTrst s
  | .bypass => Sys2Proof.Machine.execBypass s
  | .samplePreload pins cells => Sys2Proof.Machine.execSamplePreload pins cells s
  | .idcode => Sys2Proof.Machine.execIdcode s
  | .extest => Sys2Proof.Machine.execExtest s
  | .extestPulse => Sys2Proof.Machine.execExtestPulse s
  | .extestTrain => Sys2Proof.Machine.execExtestTrain s
  | .clamp => Sys2Proof.Machine.execClamp s
  | .highz => Sys2Proof.Machine.execHighz s
  | .thagraitSublinkDown sub => Sys2Proof.Machine.execThagraitSublinkDown sub s
  | .thagraitSublinkUp sub => Sys2Proof.Machine.execThagraitSublinkUp sub s
  | .sysResetRelease => Sys2Proof.Machine.execSysResetRelease s
  | .perstRelease => Sys2Proof.Machine.execPerstRelease s
  | .pcieLinkUp speed width flit => Sys2Proof.Machine.execPcieLinkUp speed width flit s
  | .fuseProgrammingDone ok => Sys2Proof.Machine.execFuseProgrammingDone ok s
  | .pfcPauseExpiry p prio => Sys2Proof.Machine.execPfcPauseExpiry p prio s
  | .d3hotExit => Sys2Proof.Machine.execD3hotExit s

end Sys2Proof.Machine
end

