-- ==== Sys2Proof/Machine/Effect.lean ====
section
/-! DEFINITION. What each command does to the head, in one table: its own operation, the count or the latches that go with the way it came in, and
what the head does by itself afterwards. The statements are made in terms of it. -/

namespace Sys2Proof.Machine

/-- The head after a command. -/
def effect (i : Instr) (d : Dev) : Dev :=
  match i with
  | .registerWrite a size v => settleDown (Machine.registerWrite a size v d)
  | .misalignedAccess wr a size v => settleDown (Machine.misalignedAccess wr a size v d)
  | .lowHalfRead a => settleDown (Machine.lowHalfRead a d)
  | .highHalfRead a => settleDown (Machine.highHalfRead a d)
  | .lowHalfWrite a v => settleDown (Machine.lowHalfWrite a v d)
  | .highHalfWrite a v => settleDown (Machine.highHalfWrite a v d)
  | .rw1cWrite a v => settleDown (Machine.rw1cWrite a v d)
  | .rcRead a size => settleDown (Machine.rcRead a size d)
  | .clr a => settleDown (Machine.clrWrite a d)
  | .verify => syncLevels (imgVerify (dropLatches d))
  | .writeSlot slot => syncLevels (imgWriteSlot slot (dropLatches d))
  | .apply => syncLevels (imgApply (dropLatches d))
  | .applySlot slot => syncLevels (imgApplySlot slot (dropLatches d))
  | .imageAbort => syncLevels (imgAbort (dropLatches d))
  | .raiseSvn => syncLevels (Machine.raiseSvn (dropLatches d))
  | .reapply region => syncLevels (imgReapply region (dropLatches d))
  | .revoke key => syncLevels (imgRevoke key (dropLatches d))
  | .applyOos => syncLevels (imgApplyOos (dropLatches d))
  | .imageFetchDone bytes => syncLevels (Machine.imageFetchDone bytes d)
  | .qspiOperationDone ok bytes => syncLevels (Machine.qspiOperationDone ok bytes d)
  | .slotRecordRereadDone bytes => syncLevels (Machine.slotRecordRereadDone bytes d)
  | .applyResume => syncLevels (Machine.applyResume d)
  | .trayRebakeSpacingExpiry => syncLevels (Machine.trayRebakeSpacingExpiry d)
  | .regionDrainEnd => syncLevels (regionDrainEndCmd d)
  | .regionRestart ok => syncLevels (Machine.regionRestart ok d)
  | .hearthBankLoadDone => syncLevels (Machine.hearthBankLoadDone d)
  | .hearthBankSwap => syncLevels (Machine.hearthBankSwap d)
  | .oosPhaseDone => settleDown (Machine.oosPhaseDone d)
  | .ticketOffer tk => syncLevels (Machine.ticketOffer tk d)
  | .ticketReoffer issuer seq => syncLevels (Machine.ticketReoffer issuer seq d)
  | .ticketDispatch t => syncLevels (Machine.ticketDispatch t d)
  | .ticketComplete t r agree => syncLevels (Machine.ticketComplete t r agree d)
  | .issuerCompletion issuer seq => settleDown (Machine.issuerCompletion issuer seq d)
  | .traySteal t => syncLevels (Machine.traySteal t d)
  | .stealRetryTimer t => syncLevels (Machine.stealRetryTimer t d)
  | .stealArrival t => syncLevels (Machine.stealArrival t d)
  | .moveNotice issuer seq => syncLevels (Machine.moveNotice issuer seq d)
  | .drainBoundHandoff t => syncLevels (Machine.drainBoundHandoff t d)
  | .twinReserve t => syncLevels (Machine.twinReserve t d)
  | .twinSignature t r sig => syncLevels (Machine.twinSignature t r sig d)
  | .twinSignatureLate t r => syncLevels (Machine.twinSignatureLate t r d)
  | .wakeDecision plane pers => syncLevels (Machine.wakeDecision plane pers d)
  | .trayPllLocked t => syncLevels (Machine.trayPllLocked t d)
  | .trayControllerResumed t => syncLevels (Machine.trayControllerResumed t d)
  | .sleepDecision plane pers => syncLevels (Machine.sleepDecision plane pers d)
  | .trayGoesCold t => syncLevels (Machine.trayGoesCold t d)
  | .groupClose plane pers => syncLevels (Machine.groupClose plane pers d)
  | .rebalanceTick loads => syncLevels (Machine.rebalanceTick loads d)
  | .testPeriodExpiry => syncLevels (Machine.testPeriodExpiry d)
  | .testPeriodWrite v => syncLevels (Machine.testPeriodWrite v (dropLatches d))
  | .testRequest tray roll go => syncLevels (Machine.testRequest tray roll go (dropLatches d))
  | .rollTestStart => syncLevels (Machine.rollTestStart d)
  | .rollTestDone pass => syncLevels (Machine.rollTestDone pass d)
  | .rollReloadDone => syncLevels (Machine.rollReloadDone d)
  | .rollWatchdog t r => syncLevels (Machine.rollWatchdog t r d)
  | .sequencerParityError t r => syncLevels (Machine.sequencerParityError t r d)
  | .trayPoll missed => syncLevels (Machine.trayPoll missed d)
  | .traySelfCheckFail t => syncLevels (Machine.traySelfCheckFail t d)
  | .trayFenceComplete t => syncLevels (Machine.trayFenceComplete t d)
  | .maskReseed t r => syncLevels (Machine.maskReseed t r d)
  | .write o e cap => settleDown (nvmWrite o e cap d)
  | .writeAdmit => settleDown (Machine.writeAdmit d)
  | .dataLanded cmd => settleDown (Machine.dataLanded cmd d)
  | .beforeImageDone cmd chunk => settleDown (Machine.beforeImageDone cmd chunk d)
  | .commandGate cmd => settleDown (Machine.commandGate cmd d)
  | .mirrorFlushIssue => settleDown (Machine.mirrorFlushIssue d)
  | .journalPageTimer => settleDown (Machine.journalPageTimer d)
  | .soloBatchDurable => settleDown (Machine.soloBatchDurable d)
  | .stagingProgrammed page => settleDown (Machine.stagingProgrammed page d)
  | .dirtyBudgetWrite v => settleDown (Machine.dirtyBudgetWrite v (dropLatches d))
  | .read o e cap => settleDown (nvmRead o e cap d)
  | .readAdmit => settleDown (Machine.readAdmit d)
  | .readLocate rd chunk => settleDown (Machine.readLocate rd chunk d)
  | .pantryProbe cmd chunk bad => syncLevels (Machine.pantryProbe cmd chunk bad d)
  | .probeWaitEnd cmd chunk => syncLevels (Machine.probeWaitEnd cmd chunk d)
  | .indexAppendFlush => settleDown (Machine.indexAppendFlush d)
  | .learningEnd => settleDown (Machine.learningEnd d)
  | .warmingEnd => settleDown (Machine.warmingEnd d)
  | .pageInDone key => settleDown (Machine.pageInDone key d)
  | .mapLookup rd chunk => settleDown (Machine.mapLookup rd chunk d)
  | .writebackStart => settleDown (Machine.writebackStart d)
  | .writebackProgrammed slot => settleDown (Machine.writebackProgrammed slot d)
  | .anchorTimer => settleDown (Machine.anchorTimer d)
  | .mapAnchorCmd => settleDown (Machine.mapAnchorCmd (dropLatches d))
  | .anchorDurable => settleDown (Machine.anchorDurable d)
  | .mapInvalidate => settleDown (Machine.mapInvalidate (dropLatches d))
  | .invalidatePhaseEnd => settleDown (Machine.invalidatePhaseEnd d)
  | .resetWalkEnd => settleDown (Machine.resetWalkEnd d)
  | .tagParityError set => settleDown (Machine.tagParityError set d)
  | .pageRebuildDone key => settleDown (Machine.pageRebuildDone key d)
  | .dramUncorrectable slot index => settleDown (Machine.dramUncorrectable slot index d)
  | .mapPinWrite pin key valid span => settleDown (Machine.mapPinWrite pin key valid span (dropLatches d))
  | .blockSeal m ebn => settleDown (Machine.blockSeal m ebn d)
  | .blockReadbackDone m ebn => settleDown (readbackDone m ebn d)
  | .mPageTimer m => settleDown (Machine.mPageTimer m d)
  | .gcStartTrigger m => settleDown (Machine.gcStartTrigger m d)
  | .gcVictimExamine m ebn => settleDown (Machine.gcVictimExamine m ebn d)
  | .victimErase m ebn => settleDown (Machine.victimErase m ebn d)
  | .reclaim handle => settleDown (Machine.reclaim handle d)
  | .scrubTick m => settleDown (Machine.scrubTick m d)
  | .scrubAll => settleDown (Machine.scrubAll (dropLatches d))
  | .lossWalk => settleDown (startLossWalk (dropLatches d))
  | .moduleFail m => settleDown (Machine.moduleFail m (dropLatches d))
  | .moduleFailTimeout m => settleDown (Machine.moduleFailTimeout m d)
  | .tallyTimer m ebn => settleDown (Machine.tallyTimer m ebn d)
  | .sweepPhaseEnd => settleDown (Machine.sweepPhaseEnd d)
  | .plaSettleEnd => settleDown (Machine.plaSettleEnd d)
  | .plaSectionsWritten copy => settleDown (Machine.plaSectionsWritten copy d)
  | .plaFlushed => settleDown (Machine.flushDone d)
  | .idleBlock m ok => settleDown (Machine.idleBlock m ok d)
  | .ack m lseq => settleDown (mediaAck m lseq d)
  | .nak m lseq => settleDown (mediaNak m lseq d)
  | .credit m cmds units => settleDown (mediaCredit m cmds units d)
  | .mediaFrameError m => settleDown (Machine.mediaFrameError m d)
  | .mediaReadResponse m r => settleDown (Machine.mediaReadResponse m r d)
  | .programResponse m r => settleDown (Machine.programResponse m r d)
  | .eraseResponse m r => settleDown (Machine.eraseResponse m r d)
  | .statusResponse m r => settleDown (Machine.statusResponse m r d)
  | .sbReadResponse m r => settleDown (Machine.sbReadResponse m r d)
  | .sbWriteResponse m r => settleDown (Machine.sbWriteResponse m r d)
  | .witnessReadResponse m r => settleDown (Machine.witnessReadResponse m r d)
  | .witnessCasResponse m r => settleDown (Machine.witnessCasResponse m r d)
  | .fenceResponse m r => settleDown (Machine.fenceResponse m r d)
  | .plwResponse m r => settleDown (Machine.plwResponse m r d)
  | .echoResponse m r => settleDown (Machine.echoResponse m r d)
  | .responseTimeout m tag => settleDown (Machine.responseTimeout m tag d)
  | .statusPoll m => settleDown (Machine.statusPoll m d)
  | .linkDetected m => settleDown (Machine.linkDetected m d)
  | .equaliseDone m => settleDown (Machine.equaliseDone m d)
  | .blockLock m => settleDown (Machine.blockLock m d)
  | .train m role ver port id => settleDown (mediaTrain m role ver port id d)
  | .mediaLinkUpDone m => settleDown (Machine.mediaLinkUpDone m d)
  | .mediaSignalLoss m => settleDown (Machine.mediaSignalLoss m d)
  | .trainingFailed m => settleDown (Machine.trainingFailed m d)
  | .linkRestartTimer m => settleDown (Machine.linkRestartTimer m d)
  | .mediaBringupTimeout m => settleDown (Machine.mediaBringupTimeout m d)
  | .linkRetrain m => settleDown (Machine.linkRetrain m (dropLatches d))
  | .mediaLinkDown m => settleDown (Machine.mediaLinkDown m (dropLatches d))
  | .mediaLinkUp m => settleDown (Machine.mediaLinkUp m (dropLatches d))
  | .frameReceive p len tags prio fill fcsOk full ipBad k => settleDown (Machine.frameReceive p len tags prio fill fcsOk full ipBad k d)
  | .pfcFrame p prio pause => settleDown (Machine.pfcFrame p prio pause d)
  | .pfcStorm p => settleDown (Machine.pfcStorm p d)
  | .portLinkDown p => settleDown (portSignalLost p d)
  | .portLinkUp p => settleDown (Machine.portLinkUp p d)
  | .portRestartTimer p => settleDown (Machine.portRestartTimer p d)
  | .portDown p => settleDown (Machine.portDown p (dropLatches d))
  | .portUp p => settleDown (portUpCmd p (dropLatches d))
  | .ptpEventMessage p kind ptpSeq time => settleDown (Machine.ptpEventMessage p kind ptpSeq time d)
  | .ptpAnnounce p rank => settleDown (Machine.ptpAnnounce p rank d)
  | .cnpReceive n => settleDown (Machine.cnpReceive n d)
  | .ccInterval n => settleDown (Machine.ccInterval n d)
  | .req remote p dest psn tcp pmtu ip qid spread flush => settleDown (cmReq remote p dest psn tcp pmtu ip qid spread flush d)
  | .rep cm remote dest psn spread => settleDown (cmRep cm remote dest psn spread d)
  | .rtu cm => settleDown (cmRtu cm d)
  | .rej cm => settleDown (cmRej cm d)
  | .mra cm => settleDown (cmMra cm d)
  | .dreq cm => settleDown (cmDreq cm d)
  | .drep cm => settleDown (cmDrep cm d)
  | .rcSendPacket n psn first last len ackReq => settleDown (Machine.rcSendPacket n psn first last len ackReq d)
  | .rcWritePacket n psn first last key va len b ackReq => settleDown (Machine.rcWritePacket n psn first last key va len b ackReq d)
  | .rcReadRequest n psn key va len => settleDown (Machine.rcReadRequest n psn key va len d)
  | .rcReadResponse n psn last b => settleDown (Machine.rcReadResponse n psn last b d)
  | .rcAck n psn => settleDown (Machine.rcAck n psn d)
  | .rcNak n psn syn => settleDown (Machine.rcNak n psn syn d)
  | .rnrNak n psn => settleDown (Machine.rnrNak n psn d)
  | .rcFlush n psn key va len => settleDown (Machine.rcFlush n psn key va len d)
  | .rcAtomic n psn => settleDown (Machine.rcAtomic n psn d)
  | .ackTimer n => settleDown (Machine.ackTimer n d)
  | .retransmitTimeout n => settleDown (Machine.retransmitTimeout n d)
  | .rnrTimer n => settleDown (Machine.rnrTimer n d)
  | .spWrite n psn msn len off key va path b => settleDown (Machine.spWrite n psn msn len off key va path b d)
  | .spSend n psn msn len off ssn path b => settleDown (Machine.spSend n psn msn len off ssn path b d)
  | .spFlush n psn msn len off va path => settleDown (Machine.spFlush n psn msn len off va path d)
  | .spSack n base msnDone flushMsn limit bits => settleDown (Machine.spSack n base msnDone flushMsn limit bits d)
  | .spNak n msn => settleDown (Machine.spNak n msn d)
  | .sackTimer n => settleDown (Machine.sackTimer n d)
  | .spreadRto n psn => settleDown (Machine.spreadRto n psn d)
  | .pathResume n path => settleDown (Machine.pathResume n path d)
  | .mwRewriteComplete w => settleDown (Machine.mwRewriteComplete w d)
  | .flush o e cap => settleDown (ioCommand 0x00 o e cap d)
  | .writeZeroes o e cap => settleDown (ioCommand 0x08 o e cap d)
  | .datasetManagement o e cap => settleDown (ioCommand 0x09 o e cap d)
  | .secureDeallocate o e cap => settleDown (ioCommand 0x85 o e cap d)
  | .getLogPage o e cap => settleDown (Machine.getLogPage o e cap d)
  | .identify o e cap => settleDown (Machine.identify o e cap d)
  | .abortCommand o e cap => settleDown (Machine.abort o e cap d)
  | .setFeatures o e cap => settleDown (Machine.setFeatures o e cap d)
  | .getFeatures o e cap => settleDown (Machine.getFeatures o e cap d)
  | .asynchronousEventRequest o e cap => settleDown (Machine.asynchronousEventRequest o e cap d)
  | .keepAlive o e cap => settleDown (Machine.keepAlive o e cap d)
  | .keepAliveExpiry c => settleDown (Machine.keepAliveExpiry c d)
  | .namespaceManagement o e cap => settleDown (mediated 0x0D o e cap d)
  | .namespaceAttachment o e cap => settleDown (mediated 0x15 o e cap d)
  | .connect n e b => settleDown (Machine.connect n e b d)
  | .propertyGet o e cap => settleDown (Machine.propertyGet o e cap d)
  | .propertySet o e cap => settleDown (Machine.propertySet o e cap d)
  | .disconnect o e cap => settleDown (Machine.disconnect o e cap d)
  | .unsupportedCommand o e cap => settleDown (Machine.unsupportedCommand o e cap d)
  | .nuseUpdate nsg => settleDown (Machine.nuseUpdate nsg d)
  | .dnTailWrite v => settleDown (Machine.dnTailWrite v (dropLatches d))
  | .upHeadWrite v => settleDown (Machine.upHeadWrite v (dropLatches d))
  | .mqEnable => settleDown (Machine.mqEnable (dropLatches d))
  | .createInstance tag b => settleDown (setup 0x01 tag b d)
  | .deleteInstance tag b => settleDown (setup 0x02 tag b d)
  | .resetInstance tag b => settleDown (setup 0x03 tag b d)
  | .setQos tag b => settleDown (setup 0x04 tag b d)
  | .setHosts tag b => settleDown (setup 0x05 tag b d)
  | .createNs tag b => settleDown (setup 0x06 tag b d)
  | .deleteNs tag b => settleDown (setup 0x07 tag b d)
  | .bindSlice tag b => settleDown (setup 0x0A tag b d)
  | .unbindSlice tag b => settleDown (setup 0x0B tag b d)
  | .answer tag b => settleDown (setup 0x0D tag b d)
  | .rateQueueRelease inst => settleDown (rateRelease inst d)
  | .sqTailDoorbell sl queue v => settleDown (Machine.sqTailDoorbell sl queue v d)
  | .cqHeadDoorbell sl queue v => settleDown (Machine.cqHeadDoorbell sl queue v d)
  | .balanceTick load => settleDown (Machine.balanceTick load d)
  | .migrationFreeze inst reason => settleDown (Machine.migrationFreeze inst reason d)
  | .migrationDrainEnd => settleDown (Machine.migrationDrainEnd d)
  | .migrationPhaseTimeout => settleDown (Machine.migrationPhaseTimeout d)
  | .migBlob inst b => settleDown (Machine.migBlob inst b (rxMsg d))
  | .migAck inst code => settleDown (Machine.migAck inst code (rxMsg d))
  | .migAbort inst => settleDown (Machine.migAbort inst (rxMsg d))
  | .migrationThawEnd => settleDown (Machine.migrationThawEnd d)
  | .snapshotCreate o e cap => settleDown (Machine.snapshotCreate o e cap d)
  | .snapshotDelete o e cap => settleDown (Machine.snapshotDelete o e cap d)
  | .snapshotSeal nsg id => settleDown (Machine.snapshotSeal nsg id d)
  | .deletionWalkEnd nsg => settleDown (Machine.deletionWalkEnd nsg d)
  | .streamStart u => settleDown (Machine.streamStart u (dropLatches d))
  | .streamResume u => settleDown (Machine.streamResume u (dropLatches d))
  | .streamStop u => settleDown (Machine.streamStop u (dropLatches d))
  | .begin u crcOk reason id arg => settleDown (streamBegin u crcOk reason id arg d)
  | .ready u crcOk id seq arg arg2 => settleDown (streamReady u crcOk id seq arg arg2 d)
  | .commit u crcOk id seq => settleDown (streamCommit u crcOk id seq d)
  | .resend u crcOk id seq => settleDown (streamResend u crcOk id seq d)
  | .endStream u crcOk id seq => settleDown (streamEnd u crcOk id seq d)
  | .doneStream u crcOk id => settleDown (streamDone u crcOk id d)
  | .haltMsg u crcOk reason id => settleDown (Machine.streamHalt u crcOk reason id d)
  | .replicationFrame u slot => settleDown (Machine.replicationFrame u slot d)
  | .frameCommitted u seq => settleDown (Machine.frameCommitted u seq d)
  | .chunkRetryTimer u seq => settleDown (Machine.chunkRetryTimer u seq d)
  | .replicaCreated u => settleDown (Machine.replicaCreated u d)
  | .provision cfm => settleDown (Machine.provision cfm (dropLatches d))
  | .enroll cfm slot => settleDown (Machine.enroll cfm slot (dropLatches d))
  | .fieldLock cfm => settleDown (Machine.fieldLock cfm (dropLatches d))
  | .returnHead cfm => settleDown (returnCmd cfm (dropLatches d))
  | .challenge => settleDown (Machine.challenge (dropLatches d))
  | .respond => settleDown (respondCmd (dropLatches d))
  | .raise dom => settleDown (raiseCmd dom (dropLatches d))
  | .raisePhaseEnd => settleDown (raisePhase (haltStreams 6) d)
  | .replSet slot => settleDown (replWrite slot true (dropLatches d))
  | .replClear slot => settleDown (replWrite slot false (dropLatches d))
  | .trngTestFail => settleDown (Machine.trngTestFail d)
  | .trngRestart ok => settleDown (Machine.trngRestart ok d)
  | .cipherGo n => settleDown (Machine.cipherGo n (dropLatches d))
  | .cipherAbort n => settleDown (Machine.cipherAbort n (dropLatches d))
  | .cipherKeyWrite n k hctx v => settleDown (Machine.cipherKeyWrite n k hctx v (dropLatches d))
  | .cipherBlockDone n => settleDown (Machine.cipherBlockDone n d)
  | .digestInit alg mac keyLen => settleDown (Machine.digestInit alg mac keyLen (dropLatches d))
  | .digestKeyWrite v => settleDown (Machine.digestKeyWrite v (dropLatches d))
  | .digestDataWrite v => settleDown (Machine.digestDataWrite v (dropLatches d))
  | .digestFinal n v => settleDown (Machine.digestFinal n v (dropLatches d))
  | .digestResultRead k => settleDown (Machine.digestResultRead k (dropLatches d))
  | .compressionDone n => settleDown (Machine.compressionDone n d)
  | .helloMsg device array facts b => settleDown (Machine.hello device array facts b (rxMsg d))
  | .kexMsg b => settleDown (Machine.kex b (rxMsg d))
  | .confirmMsg b => settleDown (Machine.confirm b (rxMsg d))
  | .transferMsg b => settleDown (Machine.transfer b (rxMsg d))
  | .pairFailMsg cause => settleDown (Machine.pairFail cause (rxMsg d))
  | .pairingRetry => settleDown (Machine.pairingRetry d)
  | .heartbeatTimer => settleDown (Machine.heartbeatTimer d)
  | .heartbeatFrame sub b => settleDown (heartbeat sub b d)
  | .heartbeatLoss => settleDown (Machine.heartbeatLoss d)
  | .selfFenceFrame => settleDown (peerSelfFence d)
  | .perSelfFence => settleDown (Machine.selfFence 4 (dropLatches d))
  | .pairingTimeout => settleDown (Machine.pairingTimeout d)
  | .contestRoundEnd => settleDown (Machine.contestRoundEnd d)
  | .contestTimeout => settleDown (Machine.contestTimeout d)
  | .adoptEnd => settleDown (Machine.adoptEnd d)
  | .publishEnd => settleDown (Machine.publishEnd d)
  | .secured => settleDown (Machine.secured d)
  | .join word jsn => settleDown (joinMsg word jsn (rxMsg d))
  | .handback seq b => settleDown (Machine.handback seq b (rxMsg d))
  | .resyncDone first word => settleDown (Machine.resyncDone first word (rxMsg d))
  | .returnHoldoffExpiry => settleDown (Machine.returnHoldoffExpiry d)
  | .anchor b => settleDown (anchorMsg b (rxMsg d))
  | .budget mib => settleDown (budgetMsg mib (rxMsg d))
  | .windows stg desc jrn fwd bulk => settleDown (windowsMsg stg desc jrn fwd bulk (rxMsg d))
  | .voters what gen kind => settleDown (votersMsg what gen kind (rxMsg d))
  | .release what jsn => settleDown (releaseMsg what jsn (rxMsg d))
  | .releaseAck what jsn => settleDown (Machine.releaseAck what jsn (rxMsg d))
  | .recReq tag handle mode dom => settleDown (Machine.recReq tag handle mode dom (rxMsg d))
  | .recResp tag status body => settleDown (Machine.recResp tag status body (rxMsg d))
  | .recEnd handle what => settleDown (Machine.recEnd handle what (rxMsg d))
  | .drop h => settleDown (dropMsg h (rxMsg d))
  | .dropAck h => settleDown (Machine.dropAck h (rxMsg d))
  | .readReq tag what key va => settleDown (Machine.readReq tag what key va (rxMsg d))
  | .readResp tag st => settleDown (Machine.readResp tag st (rxMsg d))
  | .tally what n => settleDown (tallyMsg what n (rxMsg d))
  | .sweepReq dom => settleDown (Machine.sweepReq dom (rxMsg d))
  | .sweepDone dom => settleDown (Machine.sweepDone dom (rxMsg d))
  | .fwdCmd what off len b => settleDown (Machine.fwdCmd what off len b (rxMsg d))
  | .fwdChunk what k off mask => settleDown (Machine.fwdChunk what k off mask (rxMsg d))
  | .fwdCpl what b => settleDown (Machine.fwdCpl what b (rxMsg d))
  | .numReq kind => settleDown (Machine.numReq kind (rxMsg d))
  | .numResp kind num => settleDown (Machine.numResp kind num (rxMsg d))
  | .instSync inst deleted b => settleDown (Machine.instSync inst deleted b (rxMsg d))
  | .lineReq line => settleDown (Machine.lineReq line (rxMsg d))
  | .lineMsg line dirty jsn b => settleDown (Machine.lineMsg line dirty jsn b (rxMsg d))
  | .lineWb line => settleDown (Machine.lineWb line (rxMsg d))
  | .perst reset => settleDown (Machine.perst reset d)
  | .functionLevelReset => settleDown (Machine.functionLevelReset d)
  | .endpointReady => settleDown (Machine.endpointReady d)
  | .busMasterDisable d3 => settleDown (Machine.busMasterDisable d3 d)
  | .busMasterEnable => settleDown (Machine.busMasterEnable d)
  | .msixUnmask vector => settleDown (Machine.msixUnmask vector d)
  | .msixHoldoffExpiry sl => settleDown (Machine.msixHoldoffExpiry sl d)
  | .dmaReadCompletion tag status hdr b => settleDown (Machine.dmaReadCompletion tag status hdr b d)
  | .completionTimeout tag => settleDown (Machine.completionTimeout tag d)
  | .tlpReceive tlp => settleDown (Machine.tlpReceive tlp d)
  | .bar2Access wr off size v => settleDown (Machine.bar2Access wr off size v d)
  | .uncorrectableInternalError => settleDown (Machine.uncorrectableInternalError d)
  | .powerOn => settleDown (Machine.powerOn d)
  | .pwrGoodFall => settleDown (Machine.pwrGoodFall d)
  | .sysReset => settleDown (Machine.sysReset d)
  | .powerFail => settleDown (Machine.powerFail d)
  | .powerRestored => settleDown (Machine.powerRestored d)
  | .portHoldExpiry => settleDown (Machine.portHoldExpiry d)
  | .hearthFault => settleDown (Machine.hearthFault d)
  | .resetHoldEnd => settleDown (Machine.resetHoldEnd d)
  | .startupStepDone l => settleDown (Machine.startupStepDone l d)
  | .temperatureSample degrees => settleDown (Machine.temperatureSample degrees d)
  | .timeDisagreement => settleDown (Machine.timeDisagreement d)
  | .stewardFailure stw ok => settleDown (Machine.stewardFailure stw ok d)
  | .fenceRestart => settleDown (Machine.fenceRestart d)
  | .restart => settleDown (hostRestart (dropLatches d))
  | .calibrationRequest calKind index go => settleDown (Machine.calibrationRequest calKind index go (dropLatches d))
  | .calibrationDrainEnd => settleDown (Machine.calibrationDrainEnd d)
  | .calibrationDone ok => settleDown (Machine.calibrationDone ok d)
  | .avsResponse ok => settleDown (Machine.avsResponse ok d)
  | .eventPost ev => syncLevels (Machine.eventPost ev d)
  | .eventWrite => syncLevels (Machine.eventWrite d)
  | .info pecBad => syncLevels (smbInfo pecBad d)
  | .setPtr pecBad block => syncLevels (smbSetPtr pecBad block d)
  | .readRec pecBad => syncLevels (smbReadRec pecBad d)
  | .smbusTimeout => syncLevels (Machine.smbusTimeout d)
  | .jtagTrst => syncLevels (Machine.jtagTrst d)
  | .bypass => syncLevels (jtagBypass d)
  | .samplePreload pins cells => syncLevels (jtagSample pins cells d)
  | .idcode => syncLevels (jtagIdcode d)
  | .extest => syncLevels (jtagExtest d)
  | .extestPulse => syncLevels (jtagExtestPulse d)
  | .extestTrain => syncLevels (jtagExtestTrain d)
  | .clamp => syncLevels (jtagClamp d)
  | .highz => syncLevels (jtagHighz d)
  | .thagraitSublinkDown sub => settleDown (sublinkDown sub d)
  | .thagraitSublinkUp sub => settleDown (sublinkUp sub d)
  | .sysResetRelease => settleDown (Machine.sysResetRelease d)
  | .perstRelease => settleDown (Machine.perstRelease d)
  | .pcieLinkUp speed width flit => settleDown (Machine.pcieLinkUp speed width flit d)
  | .fuseProgrammingDone ok => settleDown (Machine.fuseProgrammingDone ok d)
  | .pfcPauseExpiry p prio => settleDown (Machine.pfcPauseExpiry p prio d)
  | .d3hotExit => settleDown (Machine.d3hotExit d)

end Sys2Proof.Machine
end

