-- ==== Sys2Proof/Safety.lean ====
section
/-! DEFINITION. The terms the statements are made in: what it means that a command answers, the canonical form of the tables, the level registers
that always show the state, and addresses outside every register. -/

namespace Sys2Proof.Machine

/-- A command answers a next state in which the head is `d` and the queue of commands is as it was. -/
def Answers (i : Instr) (s : State) (d : Dev) : Prop := exec i s = .next { s with dev := d }

/-- The register store is in canonical form: addresses rising, nothing listed at its reset value. -/
def regsWf (t : Tab W64) : Bool := tabSorted t && tabNoDefault (fun a => BitVec.ofNat 64 (regReset a)) t

/-- The canonical form of the stores: registers and DRAM. -/
def Dev.sound (d : Dev) : Bool := regsWf d.regs && memWf d.dram

/-- The head with every command of a queue run on it in order. -/
def runAll (q : List Instr) (d : Dev) : Dev := q.foldl (fun d c => effect c d) d

/-! ## Addresses -/

/-- An access that R16 calls naturally aligned: 32 bits or 64 bits wide, at a multiple of its size. -/
def aligned (a size : Nat) : Prop := (size = 4 ∧ a % 4 = 0) ∨ (size = 8 ∧ a % 8 = 0)

/-- An SA in one of the two windows that show stored tables in place of registers (R32, R576). -/
def inWindow (a : Nat) : Prop := a / 0x400000 = 0x3F ∨ (a / 0x400000 = 0x03 ∧ a / 0x4000 % 256 = 0 ∧ 16 ≤ a / 0x200 % 32)

/-- An SA is outside every register: none starts there, and no 64-bit register has its high half there. -/
def outside (a : Nat) : Prop := regRow a = none ∧ (∀ r, 4 ≤ a → regRow (a - 4) = some r → r.bits ≠ 64) ∧ ¬ inWindow a

/-- A 64-bit register at an SA. -/
def wide (a : Nat) (r : RegRow) : Prop := regRow a = some r ∧ r.bits = 64 ∧ a % 8 = 0 ∧ regRow (a + 4) = none ∧ ¬ inWindow a ∧ ¬ inWindow (a + 4)

/-- A 32-bit register at an SA. -/
def narrow (a : Nat) (r : RegRow) : Prop := regRow a = some r ∧ r.bits ≠ 64 ∧ a % 4 = 0 ∧ ¬ inWindow a

/-! ## Levels -/

/-- Capacity in MiB of this head's power-loss area (R311): that of the smaller of its modules' regions. -/
def areaCapMib (d : Dev) : Nat :=
  let bytes := (plaModules d).map fun m => slcBlocks (d.module m) * slcBlkPages (d.module m) * 16384
  bytes.foldl Nat.min (bytes.headD 0) / 2 ^ 20

/-- The dirty budget exceeds the area that is there to hold it (R311). -/
def areaOver (d : Dev) : Bool := !(plaModules d).isEmpty && decide (budgetB d / 2 ^ 20 > areaCapMib d)

/-- Adopted records that wait to be applied, as `PER_OVERLAY` counts them (R516). -/
def overlayCount (d : Dev) : Nat :=
  if d.per.adopted then Nat.min (dedup ((d.map.deferred.filter (·.peer)).map (·.jsn))).length (2 ^ 21 - 1) else 0

/-- What disciplines the time base (R543): 1 PTP, 2 the peer, 0 nothing. -/
def timeSource (d : Dev) : Nat :=
  if d.getB R.FRT_PTP_LOCKED then 1
  else if d.peerUp && ((match d.per.last with
    | some b => bitAt b.flags 2
    | none => false) || d.headNum == 1) then 2
  else 0

/-- The level registers show the state: the modules of the power-loss area, its capacity and whether it caps the dirty limit, the overlay, the
instances to reclaim, the source of time. -/
def levelsShown (d : Dev) : Prop :=
  (∀ m, m < 32 → d.getF (R.MED_M_STATE_PLA_HOLDER m) = b2n ((plaModules d).contains m)) ∧
  d.getF R.MED_PLA_MOD_A = (plaModules d).getD 0 0 ∧ d.getF R.MED_PLA_MOD_B = (plaModules d).getD 1 0 ∧
  d.getF R.MED_PLA_CAP_MIB = areaCapMib d % 2 ^ 24 ∧ d.getB R.MED_PLA_CAPPED = areaOver d ∧
  d.getF R.PER_OVERLAY_RECORDS = overlayCount d ∧ d.getF R.PER_HOLDOFF_TO_RECLAIM = Nat.min d.per.reclaim.length 2047 ∧
  d.getF R.HTH_TIME_ADJ_SOURCE = timeSource d

/-- No instance waits to be reclaimed without a peer, and the area's capacity fits its register. -/
def levelsSettled (d : Dev) : Prop := (d.per.reclaim = [] ∨ d.peerUp = true) ∧ areaCapMib d < 2 ^ 24

end Sys2Proof.Machine
end

