-- ==== Sys2Proof/Certificates/Slice0/Obligations.lean ====
section
/-! DEFINITION. The statements for the provers. `Answers i s d` says that command i on state s answers a next state with head d and the queue
as it was; `settleDown` and `syncLevels` are what the head does by itself afterwards, and statement `QuietHeadSettles` says when that is nothing. -/

open Sys2Proof Sys2Proof.Machine

/-- A step runs the command at the front of the queue on the queue's rest. -/
def Obligations.StepTakesTheFront : Prop :=
  ∀ (c : Instr) (d : Dev) (q : List Instr), step ⟨d, c :: q⟩ = exec c ⟨d, q⟩

/-- On an empty queue a step counts the time base and changes nothing else (R542, R543). -/
def Obligations.EmptyQueueCountsTime : Prop :=
  ∀ d : Dev, ∃ t : Dev, step ⟨d, []⟩ = .next ⟨t, []⟩ ∧
      t.rd R.HTH_TIME * 1000000000 + t.hth.frac =
        (d.rd R.HTH_TIME + (((tickNs : Int) * (1000000000 + freqPpb d)).toNat + d.hth.frac) / 1000000000) % 2 ^ 64 * 1000000000 +
          (((tickNs : Int) * (1000000000 + freqPpb d)).toNat + d.hth.frac) % 1000000000 ∧
      t.hth.frac < 1000000000 ∧ (∀ a, a ≠ R.HTH_TIME → t.rd a = d.rd a) ∧
      t = { d with regs := t.regs, hth := { d.hth with frac := t.hth.frac } }

/-- Every command completes with its own effect and leaves the queue alone (R16, R534). -/
def Obligations.EveryCommandAnswers : Prop :=
  ∀ (i : Instr) (s : State), Answers i s (effect i s.dev)

/-- A queue of any length runs to its end, command by command in order, without a stop. -/
def Obligations.QueueRunsDry : Prop :=
  ∀ s : State, (Host.Core.run Sys2Proof.core s.pending.length s : Host.Outcome State Fault Refusal) = .next ⟨runAll s.pending s.dev, []⟩

/-- Every step keeps the level registers in agreement with the state they show (R308, R311, R511, R516, R543). -/
def Obligations.LevelsKept : Prop :=
  ∀ s t : State, step s = .next t → levelsShown s.dev → levelsShown t.dev

/-- A head with no work in flight and its levels shown does nothing by itself (R308, R311, R511, R516, R543). -/
def Obligations.QuietHeadSettles : Prop :=
  ∀ d : Dev, (quiet d = true → settleDown d = syncLevels d) ∧ (levelsShown d → levelsSettled d → syncLevels d = d)

/-- After reset every register holds its table value, nothing is in flight, and the level registers show the state (R13, R19, R547, R564, R530). -/
def Obligations.ResetState : Prop :=
  State.reset.pending = [] ∧
      (∀ a, State.reset.dev.rd a = regReset a % 2 ^ 64) ∧
      State.reset.dev.readLatch = none ∧ State.reset.dev.writeLatch = none ∧ State.reset.dev.dram = [] ∧
      State.reset.dev.out = [] ∧ State.reset.dev.evt.queue = [] ∧ State.reset.dev.evt.ring = [] ∧
      (∀ v, State.reset.dev.vector v = ⟨0, 0, true⟩) ∧ State.reset.dev.sound = true ∧ quiet State.reset.dev = true ∧ levelsShown State.reset.dev

/-- Outside every register a read returns zero and a write is ignored (R15). -/
def Obligations.ReadOutsideRegisters : Prop :=
  ∀ (s : State) (a size : Nat), aligned a size → outside a → (size = 8 → outside (a + 4)) →
      Answers (.rcRead a size) s (settleDown ((dropLatches s.dev).emit (.busRead 0))) ∧
      ∀ v, Answers (.registerWrite a size v) s (settleDown (dropLatches s.dev))

/-- An access of another size or alignment reads zero, writes nothing and posts the access event (R16). -/
def Obligations.MisalignedAccesses : Prop :=
  ∀ (s : State) (a size v : Nat), ¬ aligned a size →
      let e := ((dropLatches s.dev).post 0x0501 [0, a, size]).err R.E_HEP_ACCESS_ERR
      Answers (.misalignedAccess false a size v) s (settleDown (e.emit (.busRead 0))) ∧
      Answers (.misalignedAccess true a size v) s (settleDown e) ∧
      Answers (.rcRead a size) s (settleDown (e.emit (.busRead 0))) ∧
      Answers (.registerWrite a size v) s (settleDown e)

/-- A 64-bit register read in halves: the low half latches the high half (R17). -/
def Obligations.HalvesRead : Prop :=
  ∀ (s : State) (a : Nat) (r : RegRow), wide a r →
      Answers (.lowHalfRead a) s (settleDown
        ({ readEffect r a (dropLatches s.dev) with readLatch := some (a, regValue s.dev a / 2 ^ 32) }.emit
          (.busRead (regValue s.dev a % 2 ^ 32)))) ∧
      (∀ h, s.dev.readLatch = some (a, h) →
        Answers (.highHalfRead a) s (settleDown ((dropLatches s.dev).emit (.busRead h)))) ∧
      ((∀ h, s.dev.readLatch ≠ some (a, h)) →
        Answers (.highHalfRead a) s (settleDown ((dropLatches s.dev).emit (.busRead (regValue s.dev a / 2 ^ 32))))) ∧
      Answers (.rcRead a 8) s (settleDown
        ((readEffect r a (dropLatches s.dev)).emit (.busRead (regValue s.dev a % 2 ^ 64))))

/-- A 64-bit register written in halves changes only with its high half (R18). -/
def Obligations.HalvesWritten : Prop :=
  ∀ (s : State) (a v : Nat) (r : RegRow), wide a r →
      Answers (.lowHalfWrite a v) s (settleDown { dropLatches s.dev with writeLatch := some (a, v % 2 ^ 32) }) ∧
      (∀ l, s.dev.writeLatch = some (a, l) →
        Answers (.highHalfWrite a v) s (settleDown (writeReg r a (l + 2 ^ 32 * (v % 2 ^ 32)) (dropLatches s.dev)))) ∧
      ((∀ l, s.dev.writeLatch ≠ some (a, l)) →
        Answers (.highHalfWrite a v) s (settleDown
          (((dropLatches s.dev).post 0x0501 [0, a + 4, 4]).err R.E_HEP_ACCESS_ERR))) ∧
      Answers (.registerWrite a 8 v) s (settleDown (writeReg r a (v % 2 ^ 64) (dropLatches s.dev)))

/-- A 32-bit register is read and written in one access; a 64-bit access of two of them acts as two (R15, R18, R19). -/
def Obligations.NarrowRegisters : Prop :=
  ∀ (s : State) (a v : Nat) (r : RegRow), narrow a r →
      Answers (.registerWrite a 4 v) s (settleDown (writeReg r a (v % 2 ^ 32) (dropLatches s.dev))) ∧
      Answers (.rw1cWrite a v) s (settleDown (writeReg r a (v % 2 ^ 32) (dropLatches s.dev))) ∧
      (a ≠ R.CLK_POWER → Answers (.rcRead a 4) s (settleDown
        ((readEffect r a (dropLatches s.dev)).emit (.busRead (regValue s.dev a % 2 ^ 32))))) ∧
      (∀ r', a % 8 = 0 → narrow (a + 4) r' → Answers (.registerWrite a 8 v) s (settleDown
        (writeReg r' (a + 4) (v / 2 ^ 32 % 2 ^ 32) (dropLatches (writeReg r a (v % 2 ^ 32) (dropLatches s.dev))))))

/-- A written register changes field by field as the access codes say (R19). -/
def Obligations.AccessCodes : Prop :=
  ∀ (r : RegRow), r ∈ regRows → ∀ old v : Nat,
      (∀ f ∈ r.fields, bitsAt (writtenValue r old v) f.lo f.w =
        if f.acc = .rw then bitsAt v f.lo f.w
        else if f.acc = .rw1c ∧ bitAt v f.lo = true then 0 else bitsAt old f.lo f.w) ∧
      ∀ b, (∀ f ∈ r.fields, b < f.lo ∨ f.lo + f.w ≤ b) → bitAt (writtenValue r old v) b = bitAt old b

/-- A write of 1 to CLR zeroes the Error counters of its row and clears their SAT bits (R573, R571). -/
def Obligations.ClearedCounters : Prop :=
  ∀ (s : State) (a : Nat) (x : SatRow) (r : RegRow), satRow a = some x → narrow a r →
      Answers (.clr a) s (settleDown (clearSat x a (dropLatches s.dev))) ∧
      (∀ o ∈ x.ctrs, (clearSat x a (dropLatches s.dev)).rd (a - x.off + o) = 0) ∧
      (clearSat x a (dropLatches s.dev)).getF ⟨a, 0, x.ctrs.length⟩ = 0 ∧
      ∀ b, b ≠ a → (∀ o ∈ x.ctrs, b ≠ a - x.off + o) → (clearSat x a (dropLatches s.dev)).rd b = s.dev.rd b

/-- A read of a register clears its RC fields and no other bit (R19, R20). -/
def Obligations.ReadClears : Prop :=
  ∀ (d : Dev) (a : Nat) (r : RegRow), r ∈ regRows →
      (∀ f ∈ r.fields, (clearRc r a d).getF ⟨a, f.lo, f.w⟩ = if f.acc = .rc then 0 else d.getF ⟨a, f.lo, f.w⟩) ∧
      ∀ b, b ≠ a → (clearRc r a d).rd b = d.rd b

/-- An Error counter rises by one, and at its largest value sticks, sets SAT and posts one event (R574). -/
def Obligations.ErrorCounterSticks : Prop :=
  ∀ (d : Dev) (c : ErrCtr), c.sa ≠ R.HTH_TIME →
      (d.rd c.sa < 0xFFFFFFFE → (d.err c) = d.wr c.sa (d.rd c.sa + 1) ∧ (d.err c).rd c.sa = d.rd c.sa + 1) ∧
      (d.rd c.sa = 0xFFFFFFFE →
        d.err c = ((d.wr c.sa 0xFFFFFFFF).setF ⟨c.satSa, c.satBit, 1⟩ 1).satEv
          ⟨c.sa / 0x400000 * 256 + 0xFF, d.rd R.HTH_TIME, c.sa / 0x200 * 0x200, c.sa, 0, 0, 0⟩) ∧
      (0xFFFFFFFF ≤ d.rd c.sa → d.err c = d) ∧
      (∀ (a : Nat) (x : SatRow), satRow a = some x → ∀ o ∈ x.ctrs, c.sa = a - x.off + o →
        (clearSat x a d).rd c.sa = 0 ∧ (clearSat x a d).err c = (clearSat x a d).wr c.sa 1)

/-- An event is queued, masked or dropped (R566, R567). -/
def Obligations.EventsReachTheRecorder : Prop :=
  ∀ (s : State) (e : Ev),
      let masked := (evMeta e.code).1 < 2 ∧ bitAt (s.dev.rd R.EVT_MASK) (e.code / 256) = true
      (masked → Answers (.eventPost e) s (syncLevels (s.dev.wr R.EVT_MASKED ((s.dev.rd R.EVT_MASKED + 1) % 2 ^ 64)))) ∧
      (¬ masked → s.dev.evt.queue.length < 256 →
        Answers (.eventPost e) s (syncLevels { s.dev with evt := { s.dev.evt with queue := s.dev.evt.queue ++ [e] } })) ∧
      (¬ masked → 256 ≤ s.dev.evt.queue.length →
        Answers (.eventPost e) s (syncLevels
          (({ s.dev with evt := { s.dev.evt with dropped := s.dev.evt.dropped + 1 } } : Dev).err R.E_EVT_DROPPED)))

/-- The oldest waiting event becomes a record, or a repeat of the newest record (R575). -/
def Obligations.EventsBecomeRecords : Prop :=
  ∀ s : State,
      (s.dev.evt.queue = [] → Answers .eventWrite s (syncLevels s.dev)) ∧
      ∀ e rest, s.dev.evt.queue = e :: rest →
        let d0 : Dev := { s.dev with evt := { s.dev.evt with
          queue := if s.dev.evt.dropped = 0 then rest else rest ++ [⟨0x0301, s.dev.rd R.HTH_TIME, ownPage 3, s.dev.evt.dropped, 0, 0, 0⟩]
          dropped := 0 } }
        (∀ r, s.dev.rd R.EVT_NEWEST ≠ 0 → tabFind s.dev.evt.ring (s.dev.rd R.EVT_NEWEST % 4096) = some r → sameEvent r.ev e = true →
          Answers .eventWrite s (syncLevels
            (({ d0 with evt := { d0.evt with ring := tabPut d0.evt.ring (s.dev.rd R.EVT_NEWEST % 4096) (mergeRepeat r e) } } : Dev).wr
              R.EVT_REPEATS ((s.dev.rd R.EVT_REPEATS + 1) % 2 ^ 64)))) ∧
        ((s.dev.rd R.EVT_NEWEST = 0 ∨
            ∀ r, tabFind s.dev.evt.ring (s.dev.rd R.EVT_NEWEST % 4096) = some r → sameEvent r.ev e = false) →
          Answers .eventWrite s (syncLevels (writeRecord d0 e))) ∧
      (let due := s.dev.getF R.EVT_INT_MIN_SEV ≤ (evMeta e.code).1
        let was := s.dev.getB R.EVT_INT_STATUS_NEW
        (¬ due → (writeRecord d0 e).getB R.EVT_INT_STATUS_NEW = was ∧ (writeRecord d0 e).out = s.dev.out) ∧
        (due → was = true ∨ s.dev.getB R.EVT_INT_EN = false →
          (writeRecord d0 e).getB R.EVT_INT_STATUS_NEW = true ∧ (writeRecord d0 e).out = s.dev.out) ∧
        (due → was = false → s.dev.getB R.EVT_INT_EN = true →
          ∃ u : Dev, writeRecord d0 e = u.msix (s.dev.getF R.EVT_INT_VECTOR) none ∧ u.out = s.dev.out ∧ u.hep = s.dev.hep ∧
            u.getB R.EVT_INT_STATUS_NEW = true))

/-- A new record takes the next sequence number, its slot, and the interrupt its severity asks for (R564, R566, R571, R575). -/
def Obligations.RecordsAreNumbered : Prop :=
  ∀ (d : Dev) (e : Ev), d.rd R.EVT_NEWEST < 2 ^ 32 →
      let seq := if d.rd R.EVT_NEWEST = 2 ^ 32 - 1 then 1 else d.rd R.EVT_NEWEST + 1
      let t := writeRecord d e
      seq ≠ 0 ∧ t.rd R.EVT_NEWEST = seq ∧
      tabFind t.evt.ring (seq % 4096) = some ⟨seq, e, 0, false, 0, false⟩ ∧
      (∀ k, k ≠ seq % 4096 → tabFind t.evt.ring k = tabFind d.evt.ring k) ∧
      t.rd R.EVT_RECORDED = (d.rd R.EVT_RECORDED + 1) % 2 ^ 64 ∧
      t.getB R.EVT_INT_STATUS_NEW = (d.getB R.EVT_INT_STATUS_NEW || decide (d.getF R.EVT_INT_MIN_SEV ≤ (evMeta e.code).1)) ∧
      t.evt.queue = d.evt.queue ∧ t.dram = d.dram

/-- A merged repeat counts to FFFFh and sticks, and the last delta never falls (R568, R571). -/
def Obligations.RepeatsStick : Prop :=
  ∀ (r : EvRec) (e : Ev), r.repeats ≤ 0xFFFF → r.delta ≤ 0xFFFFFFFFFFFF →
      let m := mergeRepeat r e
      m.seq = r.seq ∧ m.ev = r.ev ∧
      r.repeats ≤ m.repeats ∧ m.repeats ≤ 0xFFFF ∧ (r.repeats < 0xFFFF → m.repeats = r.repeats + 1) ∧
      (m.repeats = 0xFFFF → m.repeatSat = true) ∧ (r.repeatSat = true → m.repeatSat = true) ∧
      r.delta ≤ m.delta ∧ m.delta ≤ 0xFFFFFFFFFFFF ∧
      (e.time - r.ev.time ≤ 0xFFFFFFFFFFFF → m.delta = max r.delta (e.time - r.ev.time) ∧ m.deltaSat = r.deltaSat) ∧
      (0xFFFFFFFFFFFF < e.time - r.ev.time → m.delta = 0xFFFFFFFFFFFF ∧ m.deltaSat = true)

/-- An event record is 64 bytes whose CRC verifies and whose fields read back (R563, R11). -/
def Obligations.EventRecordBytes : Prop :=
  ∀ r : EvRec, r.seq < 2 ^ 32 → r.ev.code < 2 ^ 16 → r.ev.time < 2 ^ 64 → r.ev.src < 2 ^ 32 → r.delta < 2 ^ 48 → r.repeats < 2 ^ 16 →
      r.ev.p0 < 2 ^ 64 → r.ev.p1 < 2 ^ 64 → r.ev.p2 < 2 ^ 64 → r.ev.p3 < 2 ^ 64 →
      let b := evRecBytes r
      b.length = 64 ∧ fieldAt b 0 4 = r.seq ∧ fieldAt b 4 2 = r.ev.code ∧
      fieldAt b 6 1 = (evMeta r.ev.code).1 + 8 * (evMeta r.ev.code).2 ∧
      fieldAt b 7 1 = b2n r.repeatSat + 2 * b2n r.deltaSat ∧ fieldAt b 8 8 = r.ev.time ∧
      fieldAt b 16 6 = r.delta ∧ fieldAt b 22 2 = r.repeats ∧ fieldAt b 24 4 = r.ev.src ∧
      fieldAt b 28 4 = crcNat (overlay b 28 (zeros 4)) ∧
      fieldAt b 32 8 = r.ev.p0 ∧ fieldAt b 40 8 = r.ev.p1 ∧ fieldAt b 48 8 = r.ev.p2 ∧ fieldAt b 56 8 = r.ev.p3

/-- The four SMBus transactions, with a good and a bad PEC (R577, R592). -/
def Obligations.SmbusAnswers : Prop :=
  ∀ (s : State) (b : Bytes),
      let nack := (s.dev.emit .smbusNack).err R.E_EVT_SMB_ERR
      Answers (.info false) s (syncLevels (s.dev.emit (.smbus
        (leBytes 4 (s.dev.rd R.EVT_NEWEST) ++ leBytes 4 (s.dev.rd R.EVT_OLDEST) ++ leBytes 1 (s.dev.getF R.HTH_STATE_STATE) ++
          leBytes 1 (s.dev.getF R.SEC_LC_STATE) ++ leBytes 1 (s.dev.getF R.HTH_TEMP_CUR_C) ++ leBytes 1 (s.dev.getF R.PER_STATE_STATE) ++
          zeros 4)))) ∧
      (b.length = 4 → Answers (.setPtr false b) s (syncLevels { s.dev with evt := { s.dev.evt with ptr := leNat b } })) ∧
      Answers (.readRec false) s (syncLevels { s.dev.emit (.smbus (evtSlotBytes s.dev (s.dev.evt.ptr % 4096))) with
        evt := { s.dev.evt with ptr := (s.dev.evt.ptr + 1) % 2 ^ 32 } }) ∧
      Answers (.info true) s (syncLevels nack) ∧ Answers (.setPtr true b) s (syncLevels nack) ∧
      Answers (.readRec true) s (syncLevels nack) ∧ (b.length ≠ 4 → Answers (.setPtr false b) s (syncLevels nack)) ∧
      Answers .smbusTimeout s (syncLevels (s.dev.err R.E_EVT_SMB_ERR))

/-- BYPASS, SAMPLE/PRELOAD and IDCODE act whenever PWR_GOOD is high, and change the TAP alone (R593, R485). -/
def Obligations.JtagAlwaysAccepted : Prop :=
  ∀ (s : State) (pins cells : List (Nat × Bool)),
      let j := s.dev.jtag
      (s.dev.hth.pwrGood = true →
        Answers .bypass s (syncLevels { s.dev with jtag := { j with instr := .bypass, drive := .mission, serdesTest := false } }) ∧
        Answers (.samplePreload pins cells) s (syncLevels
          { s.dev.emit (.jtag (pins.foldl (fun n p => n + b2n p.2 * 2 ^ p.1) 0)) with
            jtag := { j with instr := .samplePreload, drive := .mission, serdesTest := false, shift := pins, update := cells } }) ∧
        Answers .idcode s (syncLevels
          { s.dev.emit (.jtag (s.dev.sec.fuses.stepping / 16 % 16 * 2 ^ 28 + 0x8100 * 2 ^ 12 + Config.jep106 % 2 ^ 11 * 2 + 1)) with
            jtag := { j with instr := .idcode, drive := .mission, serdesTest := false } })) ∧
      (s.dev.hth.pwrGood = false → Answers .bypass s (syncLevels s.dev) ∧ Answers (.samplePreload pins cells) s (syncLevels s.dev) ∧
        Answers .idcode s (syncLevels s.dev)) ∧
      Answers .jtagTrst s (syncLevels { s.dev with jtag := { j with instr := .idcode, drive := .mission, serdesTest := false } })

/-- The instructions that take balls act only while SYS_RESET_L is low, and as BYPASS otherwise (R593). -/
def Obligations.JtagGuarded : Prop :=
  ∀ s : State, s.dev.hth.pwrGood = true →
      let go := fun (i : JtagInstr) (b : BallDrive) (t : Bool) =>
        syncLevels { s.dev with jtag := { s.dev.jtag with instr := i, drive := b, serdesTest := t } }
      (s.dev.hth.sysResetL = false →
        Answers .extest s (go .extest .boundary false) ∧ Answers .extestPulse s (go .extestPulse .boundary true) ∧
        Answers .extestTrain s (go .extestTrain .boundary true) ∧ Answers .clamp s (go .clamp .held false) ∧
        Answers .highz s (go .highz .floating false)) ∧
      (s.dev.hth.sysResetL = true →
        Answers .extest s (go .bypass .mission false) ∧ Answers .extestPulse s (go .bypass .mission false) ∧
        Answers .extestTrain s (go .bypass .mission false) ∧ Answers .clamp s (go .bypass .mission false) ∧
        Answers .highz s (go .bypass .mission false))

/-- The test port and the SMBus port change nothing of the head but their own state (R593, R577). -/
def Obligations.BoundaryScanFrame : Prop :=
  ∀ (s t : State) (c : Instr) (pins cells : List (Nat × Bool)) (b : Bytes), levelsShown s.dev → levelsSettled s.dev → b.length = 4 →
      c ∈ [Instr.bypass, .idcode, .jtagTrst, .extest, .extestPulse, .extestTrain, .clamp, .highz, .samplePreload pins cells, .info false,
        .setPtr false b, .readRec false] →
      exec c s = .next t →
      t.dev = { s.dev with jtag := t.dev.jtag, out := t.dev.out, evt := { s.dev.evt with ptr := t.dev.evt.ptr } } ∧
      (∃ more, t.dev.out = s.dev.out ++ more) ∧ t.pending = s.pending

/-- While the image loader is busy every order but ABORT is ignored and sets CMD_REJECTED (R87, R86). -/
def Obligations.ImageCommandWhileBusy : Prop :=
  ∀ (s : State) (n : Nat) (c : Instr), s.dev.getB R.IMG_STATUS_BUSY = true →
      (c ∈ [Instr.verify, .writeSlot n, .apply, .applySlot n, .raiseSvn, .reapply n, .revoke n, .applyOos] →
        Answers c s (syncLevels ((dropLatches s.dev).setB R.IMG_STATUS_CMD_REJECTED true))) ∧
      (s.dev.getF R.IMG_STATUS_STATE = 4 → Answers .imageAbort s (syncLevels (dropLatches s.dev)))

/-- Orders of the image loader that are refused end FAILED with their error code (R64). -/
def Obligations.ImageCommandsRefused : Prop :=
  ∀ (s : State) (slot key : Nat), s.dev.getB R.IMG_STATUS_BUSY = false →
      let d := dropLatches s.dev
      let fetch := { d with img := { d.img with pending := none } }
      (s.dev.img.pending = none → Answers (.writeSlot slot) s (syncLevels (endImgOp 7 0x17 d)) ∧
        Answers .applyOos s (syncLevels (endImgOp 7 0x17 d))) ∧
      (s.dev.img.pending ≠ none → s.dev.getF R.IMG_BOOT_BOOTED = slot % 2 → otherValid (slot % 2) d = false →
        Answers (.writeSlot slot) s (syncLevels (endImgOp 7 0x14 d))) ∧
      (0x1000000 < s.dev.getF R.IMG_PUSH_LEN_LEN →
        Answers .verify s (syncLevels ((endImgOp 7 3 fetch).err R.E_IMG_REJECTS)) ∧
        (s.dev.img.pending = none → Answers .apply s (syncLevels ((endImgOp 7 3 fetch).err R.E_IMG_REJECTS)))) ∧
      (s.dev.getF R.IMG_PUSH_LEN_LEN ≤ 0x1000000 → s.dev.dmaOn = false →
        Answers .verify s (syncLevels (endImgOp 7 0x16 fetch))) ∧
      (s.dev.noImage = false → s.dev.getF R.IMG_KEYS_RUN_KEY = key % 4 →
        Answers (.revoke key) s (syncLevels (endImgOp 7 5 d)))

/-- Orders of the image loader that are taken start their fetch, erase or fuse (R62, R63, R64, R87). -/
def Obligations.ImageCommandsStart : Prop :=
  ∀ (s : State) (slot : Nat), s.dev.getB R.IMG_STATUS_BUSY = false →
      let d := dropLatches s.dev
      let fetch := { d with img := { d.img with pending := none } }
      (s.dev.getF R.IMG_PUSH_LEN_LEN ≤ 0x1000000 → s.dev.dmaOn = true →
        Answers .verify s (syncLevels ((startImgOp .verify 1 fetch).hostRead .imagePush
          (s.dev.getF R.IMG_PUSH_ADDR_ADDR * 4096) (s.dev.getF R.IMG_PUSH_LEN_LEN) none))) ∧
      (s.dev.img.reread = none → Answers (.applySlot slot) s (syncLevels
        ((startImgOp (.applySlot (slot % 2)) 1 fetch).emit (.qspi 0 (slot % 2 * 0x1000000) 0x1000000)))) ∧
      (s.dev.img.pending ≠ none → ¬ (s.dev.getF R.IMG_BOOT_BOOTED = slot % 2 ∧ otherValid (slot % 2) d = false) →
        s.dev.img.reread = none →
        let w := startImgOp (.writeSlot (slot % 2)) 4 d
        Answers (.writeSlot slot) s (syncLevels
          (({ w with img := { w.img with slotWrite := some (slot % 2, .erase) } } : Dev).emit (.qspi 1 (slot % 2 * 0x1000000) 0x1000000)))) ∧
      (s.dev.noImage = false →
        let f := (d.setF R.IMG_STATUS_ERR 0).setB R.IMG_STATUS_BUSY true
        Answers .raiseSvn s (syncLevels { f with img := { f.img with op := .raise } }))

/-- A loaded shadow bank is swapped in, and the former active bank becomes the shadow (R79, R80). -/
def Obligations.HearthBanksSwap : Prop :=
  ∀ (s : State) (rb : Rebake),
      (s.dev.img.rebake = some rb → rb.phase = .bankLoading →
        Answers .hearthBankLoadDone s (syncLevels { s.dev.setB R.IMG_HBANK_SHADOW_VALID false with
          img := { s.dev.img with bankShadow := rb.record, rebake := some { rb with phase := .bankPause } } })) ∧
      (s.dev.img.rebake = some rb → rb.phase = .bankPause →
        let b := (s.dev.setF R.IMG_HBANK_ACTIVE (1 - s.dev.getF R.IMG_HBANK_ACTIVE)).setB R.IMG_HBANK_SHADOW_VALID true
        Answers .hearthBankSwap s (syncLevels (afterRebake (endRestart true rb
          { b with img := { s.dev.img with bankActive := s.dev.img.bankShadow, bankShadow := s.dev.img.bankActive } })))) ∧
      (s.dev.img.rebake = none → Answers .hearthBankLoadDone s (syncLevels s.dev) ∧ Answers .hearthBankSwap s (syncLevels s.dev) ∧
        ∀ ok, Answers (.regionRestart ok) s (syncLevels s.dev))

/-- A tray wakes through Proof to Bake and goes Cold only empty and idle (R110, R111). -/
def Obligations.TrayPowerStates : Prop :=
  ∀ (s : State) (t plane pers : Nat),
      (s.dev.power t = 1 → Answers (.trayPllLocked t) s
        (syncLevels ((s.dev.setF ⟨R.CLK_DOMAINS, 8 + t, 1⟩ 1).modTray t fun x => { x with pll := true }))) ∧
      (s.dev.power t ≠ 1 → Answers (.trayPllLocked t) s (syncLevels s.dev) ∧ Answers (.trayControllerResumed t) s (syncLevels s.dev)) ∧
      (s.dev.power t = 1 → (s.dev.trayX t).pll = true →
        Answers (.trayControllerResumed t) s (syncLevels (setPower t 2 (markRolls t 7 0 s.dev)))) ∧
      (s.dev.power t = 2 → s.dev.goingCold t = true → (s.dev.trayX t).ring = [] → busyCount s.dev t = 0 → testing s.dev t = false →
        Answers (.trayGoesCold t) s (syncLevels (toCold t s.dev))) ∧
      ((s.dev.power t ≠ 2 ∨ s.dev.goingCold t = false ∨ (s.dev.trayX t).ring ≠ [] ∨ busyCount s.dev t ≠ 0 ∨ testing s.dev t = true) →
        Answers (.trayGoesCold t) s (syncLevels s.dev)) ∧
      (groupOpen s.dev plane pers = true →
        s.dev.getF R.TRY_WAKE_WAKE_HI * (groupLoad s.dev plane pers).2 < (groupLoad s.dev plane pers).1 →
        (groupTrays s.dev plane pers).find? (fun t => s.dev.power t == 0 || (s.dev.power t == 2 && s.dev.goingCold t)) = some t →
        Answers (.wakeDecision plane pers) s (syncLevels (wakeTray t s.dev)))

/-- A change of a tray's power state shows in its own registers, in TRY_BAKE and in TRY_FENCED, and in no other tray's (R110, R119). -/
def Obligations.TrayPowerRegisters : Prop :=
  ∀ (d : Dev) (t u p : Nat), t < 24 → u < 24 → u ≠ t → p < 4 →
      let e := setPower t p d
      e.power t = p ∧ e.goingCold t = false ∧
      bitAt (e.rd R.TRY_BAKE) t = decide (p = 2) ∧ bitAt (e.rd R.TRY_FENCED) t = decide (p = 3) ∧
      e.power u = d.power u ∧ e.goingCold u = d.goingCold u ∧
      bitAt (e.rd R.TRY_BAKE) u = bitAt (d.rd R.TRY_BAKE) u ∧ bitAt (e.rd R.TRY_FENCED) u = bitAt (d.rd R.TRY_FENCED) u ∧
      (d.power t = 2 → e.rd (R.TRY_TC_BAKE_NS t) = (d.rd (R.TRY_TC_BAKE_NS t) + (d.now - (d.trayX t).bakeSince)) % 2 ^ 64)

/-- A host request for a roll test is taken, or refused with its result code (R115, R119). -/
def Obligations.RollTestRequests : Prop :=
  ∀ (s : State) (tray roll v : Nat),
      let t := tray % 32
      let r := roll % 16
      let fenced := s.dev.power t = 3 ∨ s.dev.getB (R.TRY_ROLL_STATE_PERM t r) = true
      Answers (.testRequest tray roll false) s (syncLevels (dropLatches s.dev)) ∧
      (24 ≤ t → Answers (.testRequest tray roll true) s (syncLevels ((dropLatches s.dev).setF R.TRY_TEST_STATUS_RESULT 6))) ∧
      (t < 24 → s.dev.tray.test.phase ≠ 0 →
        Answers (.testRequest tray roll true) s (syncLevels ((dropLatches s.dev).setF R.TRY_TEST_STATUS_RESULT 5))) ∧
      (t < 24 → s.dev.tray.test.phase = 0 → fenced →
        Answers (.testRequest tray roll true) s (syncLevels ((dropLatches s.dev).setF R.TRY_TEST_STATUS_RESULT 3))) ∧
      (t < 24 → s.dev.tray.test.phase = 0 → ¬ fenced → lastUsable s.dev t r = true →
        Answers (.testRequest tray roll true) s (syncLevels ((dropLatches s.dev).setF R.TRY_TEST_STATUS_RESULT 4))) ∧
      (t < 24 → s.dev.tray.test.phase = 0 → ¬ fenced → lastUsable s.dev t r = false →
        Answers (.testRequest tray roll true) s
          (syncLevels (beginTest t r true ((dropLatches s.dev).setF R.TRY_TEST_STATUS_RESULT 0)))) ∧
      Answers (.testPeriodWrite v) s (syncLevels ((dropLatches s.dev).setF R.TRY_TEST_PERIOD_PERIOD_MS v))

/-- A roll test waits for its roll, reloads it after a pass and fences it for good after a failure (R114, R115). -/
def Obligations.RollTestPhases : Prop :=
  ∀ s : State,
      let t := s.dev.tray.test.roll / 16
      let r := s.dev.tray.test.roll % 16
      let ph := fun (n : Nat) => ({ s.dev with tray := { s.dev.tray with test := { s.dev.tray.test with phase := n } } } : Dev)
      (s.dev.tray.test.phase = 1 → s.dev.rollState t r = 0 ∨ s.dev.rollState t r = 6 → s.dev.power t = 2 →
        Answers .rollTestStart s (syncLevels (setRoll t r 4 ((ph 2).setF R.TRY_TEST_STATUS_STATE 2)))) ∧
      (s.dev.tray.test.phase ≠ 1 → Answers .rollTestStart s (syncLevels s.dev)) ∧
      (s.dev.tray.test.phase = 2 → Answers (.rollTestDone true) s
        (syncLevels (((setRoll t r 5 (ph 3)).setF R.TRY_TEST_STATUS_STATE 3).setF (R.TRY_ROLL_STATE_LAST_TEST t r) 1))) ∧
      (s.dev.tray.test.phase = 2 → Answers (.rollTestDone false) s
        (syncLevels (endTest 2 ((((setRoll t r 6 s.dev).setB (R.TRY_ROLL_STATE_PERM t r) true).setF (R.TRY_ROLL_STATE_LAST_TEST t r) 2).postAt
          0x0803 (sa 8 t r 0) [t, r])))) ∧
      (s.dev.tray.test.phase ≠ 2 → ∀ ok, Answers (.rollTestDone ok) s (syncLevels s.dev)) ∧
      (s.dev.tray.test.phase = 3 → Answers .rollReloadDone s (syncLevels (endTest 1 (syncDepth t (setRoll t r 0 s.dev))))) ∧
      (s.dev.tray.test.phase ≠ 3 → Answers .rollReloadDone s (syncLevels s.dev))

/-- A roll faults on its time bound or a parity error, a tray on its second missed poll or a failed self-check (R92, R116, R477). -/
def Obligations.TrayFaultsDetected : Prop :=
  ∀ (s : State) (t r : Nat),
      (1 ≤ s.dev.rollState t r ∧ s.dev.rollState t r ≤ 3 → Answers (.rollWatchdog t r) s (syncLevels (nextTest
        ((fenceRoll t r s.dev).postAt 0x0802 (sa 8 t r 0) [t, r, 1])))) ∧
      (¬ (1 ≤ s.dev.rollState t r ∧ s.dev.rollState t r ≤ 3) → Answers (.rollWatchdog t r) s (syncLevels s.dev)) ∧
      (s.dev.rollState t r ≠ 6 → s.dev.power t ≠ 3 → Answers (.sequencerParityError t r) s (syncLevels (nextTest
        ((fenceRoll t r s.dev).postAt 0x0802 (sa 8 t r 0) [t, r, 2])))) ∧
      (s.dev.power t = 3 → Answers (.sequencerParityError t r) s (syncLevels s.dev) ∧ Answers (.traySelfCheckFail t) s (syncLevels s.dev)) ∧
      (s.dev.power t ≠ 3 → Answers (.traySelfCheckFail t) s (syncLevels (trayFault t s.dev))) ∧
      (s.dev.getB R.SEC_TRNG_FAILED = false → Answers (.maskReseed t r) s (syncLevels
        ((s.dev.modRoll t r fun x => { x with blocks := 0 }).wr (R.TRY_ROLL_RESEEDS t r)
          ((s.dev.rd (R.TRY_ROLL_RESEEDS t r) + 1) % 2 ^ 64)))) ∧
      (s.dev.getB R.SEC_TRNG_FAILED = true → Answers (.maskReseed t r) s (syncLevels s.dev))

/-- A poll clears or counts the missed polls of Bake trays; the second miss in a row faults the tray (R116). -/
def Obligations.TrayPolls : Prop :=
  ∀ (s : State) (missed : Nat),
      ((∀ t, t < 24 → s.dev.power t = 2 → bitAt missed t = true → (s.dev.trayX t).missed = 0) →
        ∃ e : Dev, Answers (.trayPoll missed) s (syncLevels e) ∧ e.regs = s.dev.regs ∧ e.evt = s.dev.evt ∧ e.dram = s.dev.dram ∧
          e = { s.dev with tray := { s.dev.tray with trays := e.tray.trays } } ∧
          ∀ t, (e.trayX t) = if t < 24 ∧ s.dev.power t = 2 then
            { s.dev.trayX t with missed := if bitAt missed t then (s.dev.trayX t).missed + 1 else 0 } else s.dev.trayX t) ∧
      (∀ t, t < 24 → s.dev.power t = 2 → missed = 2 ^ t → 1 ≤ (s.dev.trayX t).missed →
        (∀ u, u < t → s.dev.power u ≠ 2) → (∀ u, t < u → u < 24 → (trayFault t s.dev).power u ≠ 2) →
        Answers (.trayPoll missed) s (syncLevels (trayFault t s.dev)))

/-- A dry tray takes the newest tickets of the first sibling in ring order that has enough (R103, R104). -/
def Obligations.DryTraySteals : Prop :=
  ∀ (s : State) (t : Nat), dry s.dev t = true → s.dev.draining t = false → (∀ x ∈ s.dev.tray.steals, x.dst ≠ t) →
      let gives := fun v => (siblings s.dev t).contains v && decide (stealTake (s.dev.draining v) (stealable s.dev v).length > 0)
      ((∀ v ∈ ringOrder t, gives v = false) → Answers (.traySteal t) s (syncLevels s.dev) ∧ Answers (.stealRetryTimer t) s (syncLevels s.dev)) ∧
      ∀ before v after, ringOrder t = before ++ v :: after → (∀ x ∈ before, gives x = false) → gives v = true →
        let u := stealable s.dev v
        let n := stealTake (s.dev.draining v) u.length
        let taken := u.drop (u.length - n)
        let e1 := s.dev.modTray v fun x => { x with ring := x.ring.filter fun k => !taken.contains k }
        let e2 := (e1.stat (R.TRY_TC_STEAL_OUT v) n).stat (R.TRY_TC_STEAL_IN t) n
        n ≤ 8 ∧ taken.length = n ∧ (s.dev.draining v = false → 2 * n ≤ u.length) ∧
        Answers (.traySteal t) s (syncLevels (syncDepth v
          { e2 with tray := { e2.tray with steals := e2.tray.steals ++ [⟨v, t, taken.map stolen⟩] } }))

/-- A journal record written as 64 bytes reads back as the same record (R144, R145, R11). -/
def Obligations.JournalRecordRoundTrip : Prop :=
  ∀ (d : Dev) (g : Grp) (i : Nat) (r : JRec),
      r.type ∈ [1, 2, 3, 0x0F, 0x10, 0x11, 0x12, 0x13, 0x14, 0x20, 0x21, 0x22, 0x23] →
      r.nsg < 2 ^ 32 → r.subject < 2 ^ 64 → r.a < 2 ^ 64 → r.b < 2 ^ 64 → r.c < 2 ^ 64 → g.time < 2 ^ 64 →
      (recBytes d g i r).length = 64 ∧ parseRec (recBytes d g i r) = some ((g.jsn + i) % 2 ^ 32, r, g.time)

/-- A block's summary page reads back as the entries it was written from (R270, R271, R11). -/
def Obligations.SummaryPageRoundTrip : Prop :=
  ∀ (d : Dev) (k idx : Nat) (es : List SumEnt), es.length ≤ 254 →
      (∀ e ∈ es, e.handle < 2 ^ 64 ∧ e.off < 2 ^ 24 ∧ 1 ≤ e.len ∧ e.len ≤ 64 ∧ e.dom < 2 ^ 16) →
      (summaryPage d k idx es).length = 4096 ∧ summaryEntries (summaryPage d k idx es) = some es

/-- The order of Sequence-class values holds across the wrap (R571). -/
def Obligations.SequenceOrder : Prop :=
  ∀ a b : Nat, a < 2 ^ 32 → b < 2 ^ 32 →
      newerW 32 a a = false ∧ ¬ (newerW 32 a b = true ∧ newerW 32 b a = true) ∧
      (a ≠ b → (a + 2 ^ 32 - b) % 2 ^ 32 ≠ 2 ^ 31 → newerW 32 a b = true ∨ newerW 32 b a = true) ∧
      (∀ k, 1 ≤ k → k < 2 ^ 31 → newerW 32 ((a + k) % 2 ^ 32) a = true ∧ newerW 32 a ((a + k) % 2 ^ 32) = false)

/-- Bytes stored in DRAM read back, and every other byte is as before (R94). -/
def Obligations.StoredBytesRead : Prop :=
  ∀ (d : Dev) (a : Nat) (b : Bytes), memWf d.dram = true →
      (d.memStore a b).memBytes a b.length = b ∧
      (∀ c n, c + n ≤ a ∨ a + b.length ≤ c → (d.memStore a b).memBytes c n = d.memBytes c n) ∧
      (∀ c, c < a ∨ a + b.length ≤ c → memRead (d.memStore a b).dram c = memRead d.dram c) ∧
      memWf (d.memStore a b).dram = true

/-- The dirty budget is taken or refused, and admission waits for a serving head (R127, R128, R132, R151, R152, R168). -/
def Obligations.WritePathOrders : Prop :=
  ∀ (s : State) (v cmd chunk page mib : Nat),
      let d := dropLatches s.dev
      let m := rxMsg s.dev
      let taken := hostSetAll R.CMQ_DIRTY_BUDGET (d.setF R.CMQ_DIRTY_BUDGET_B_MIB (v % 2 ^ 24))
      (v % 2 ^ 24 < 64 → Answers (.dirtyBudgetWrite v) s
        (settleDown (d.post 0x0C01 [s.dev.getF R.CMQ_DIRTY_BUDGET_B_MIB, v % 2 ^ 24]))) ∧
      (64 ≤ v % 2 ^ 24 → s.dev.peerUp = false → Answers (.dirtyBudgetWrite v) s (settleDown (syncWrite (compareBudgets taken)))) ∧
      (64 ≤ v % 2 ^ 24 → s.dev.peerUp = true → Answers (.dirtyBudgetWrite v) s
        (settleDown (syncWrite (compareBudgets (sendPeer 0x0C 0 [v % 2 ^ 24] [] taken))))) ∧
      Answers (.budget mib) s (settleDown (syncWrite (compareBudgets
        { m with write := { m.write with peerBudget := some (mib % 2 ^ 24) } }))) ∧
      (s.dev.serving = false → Answers .writeAdmit s (settleDown s.dev) ∧ Answers .readAdmit s (settleDown s.dev)) ∧
      ((s.dev.stage page).state ≠ 4 ∨ (s.dev.stage page).releaseSent = true → Answers (.stagingProgrammed page) s (settleDown s.dev)) ∧
      ((s.dev.stage page).state = 4 → (s.dev.stage page).releaseSent = false →
        Answers (.stagingProgrammed page) s (settleDown (pageProgrammed page s.dev))) ∧
      (s.dev.write.batches = [] → Answers .soloBatchDurable s (settleDown s.dev)) ∧
      (s.dev.wChunk cmd chunk = none → Answers (.beforeImageDone cmd chunk) s (settleDown s.dev))

/-- The Pantry goes from learning to warming to ready, and drops travel with their acknowledgement (R194, R198, R205). -/
def Obligations.PantryOrders : Prop :=
  ∀ (s : State) (h cmd chunk : Nat),
      let m := rxMsg s.dev
      (s.dev.getF R.PAN_STATE_STATE ≠ 1 → Answers .learningEnd s (settleDown s.dev)) ∧
      (s.dev.getF R.PAN_STATE_STATE = 1 →
        let l := learnJournal (s.dev.write.ring.map fun e => (e.1, e.2.rec')) s.dev
        Answers .learningEnd s (settleDown (({ l with pan := { l.pan with learned := [], warmAt := 0 } } : Dev).setF R.PAN_STATE_STATE 2))) ∧
      (s.dev.getF R.PAN_STATE_STATE ≠ 2 → Answers .warmingEnd s (settleDown s.dev)) ∧
      (s.dev.getF R.PAN_STATE_STATE = 2 → ∃ (e : Dev) (wrapped : Bool), Answers .warmingEnd s (settleDown
        (if wrapped = true then (e.setF R.PAN_STATE_STATE 3).postAt 0x1104 (ownPage 0x11) [] else e))) ∧
      Answers (.drop h) s (settleDown (sendPeer 0x21 0 [h] [] (removeEntry (bucketOf h) (locOf h) m))) ∧
      Answers (.dropAck h) s (settleDown (finishDrops { m with pan := { m.pan with
        drops := mapWhere (fun x => x.handle == h) (fun x => { x with peerOk := true }) m.pan.drops } })) ∧
      ((∀ w ∈ s.dev.pan.waits, ¬ (w.cmd = cmd ∧ w.chunk = chunk)) → Answers (.probeWaitEnd cmd chunk) s (syncLevels s.dev))

/-- Map commands start when the map is free and are rejected when it is busy (R44, R239, R248, R258, R260, R261, R263). -/
def Obligations.MapOrders : Prop :=
  ∀ (s : State) (pin key span set : Nat) (valid : Bool),
      let d := dropLatches s.dev
      let t : Dev := { s.dev with map := { s.dev.map with lines := s.dev.map.lines.filter fun l => l.1 / 16 != set } }
      let p := (d.wr (R.MAP_PIN_KEY pin) (key % 2 ^ 51)).setB (R.MAP_PIN_CTL_VALID pin) valid
      let q := if span ≤ 8 then p.setF (R.MAP_PIN_CTL_SPAN pin) span else p
      (s.dev.getF R.MAP_STATE_INV ≠ 0 → Answers .mapInvalidate s (settleDown (d.setB R.MAP_STATE_CMD_REJECTED true))) ∧
      (s.dev.getF R.MAP_STATE_INV = 0 → Answers .mapInvalidate s (settleDown (d.setF R.MAP_STATE_INV 1)) ∧
        Answers .invalidatePhaseEnd s (settleDown s.dev)) ∧
      (s.dev.map.cut ≠ none → Answers .mapAnchorCmd s (settleDown (d.setB R.MAP_STATE_CMD_REJECTED true)) ∧
        Answers .anchorTimer s (settleDown s.dev)) ∧
      (s.dev.map.cut = none → Answers .mapAnchorCmd s (settleDown (pumpAnchor (cutAnchor d))) ∧
        Answers .anchorTimer s (settleDown (pumpAnchor (cutAnchor s.dev))) ∧ Answers .anchorDurable s (settleDown s.dev)) ∧
      (s.dev.getF R.MAP_STATE_INV = 2 →
        let w := s.dev.setF R.MAP_STATE_INV 3
        Answers .invalidatePhaseEnd s (settleDown (syncMap { w with map := { w.map with lines := [], walkSince := s.dev.now } }))) ∧
      (s.dev.getB R.MAP_STATE_RESET_WALK = false → Answers .resetWalkEnd s (settleDown s.dev)) ∧
      (s.dev.getB R.MAP_STATE_RESET_WALK = true →
        let w := (endWalk s.dev).setB R.MAP_STATE_RESET_WALK false
        Answers .resetWalkEnd s (settleDown (resumeStalled (applyDeferred (syncMap { w with map := { w.map with lines := [], plru := [] } }))))) ∧
      Answers (.tagParityError set) s (settleDown (syncMap (forEach ((s.dev.map.fifo.filter fun e => setIndex e.1 == set).map (·.1)) markRebuild
        (t.err R.E_MAP_TAG_PARITY)))) ∧
      ∃ hs, Answers (.mapPinWrite pin key valid span) s (settleDown { q with img := { q.img with hostSet := hs } })

/-- Media commands with nothing to do change nothing; the loss walk, the scrub and a failed module start their work (R279, R289, R290, R293, R294, R300,
R308). -/
def Obligations.MediaOrders : Prop :=
  ∀ (s : State) (m ebn h copy : Nat),
      let d := dropLatches s.dev
      let roots := ((s.dev.nvm.namespaces.map (·.2)).filter fun n => s.dev.serves n.inst).map fun n => mkKey n.nsg (logicalRoot n.chunks) 0
      Answers .scrubAll s (settleDown (forEach (onModules s.dev) (fun m e => e.modModule m fun x => { x with scrub := 0 }) d)) ∧
      Answers .lossWalk s (settleDown (({ d with med := { d.med with lossWalk := roots } } : Dev).setB R.MED_LOSS_WALK_ACTIVE (!roots.isEmpty))) ∧
      Answers (.moduleFail m) s (settleDown (failModule m 3 d)) ∧
      (s.dev.getB (R.MED_M_STATE_FAILED m) = true → Answers (.moduleFail m) s (settleDown d)) ∧
      ((s.dev.module m).unavail = none → Answers (.moduleFailTimeout m) s (settleDown s.dev)) ∧
      (s.dev.modOn m = false ∨ s.dev.med.pla.phase ≠ 0 → Answers (.scrubTick m) s (settleDown s.dev)) ∧
      ((s.dev.eblock (blkKey m ebn)).state ≠ 4 → Answers (.victimErase m ebn) s (settleDown s.dev)) ∧
      (h ∉ s.dev.med.dead → Answers (.reclaim h) s (settleDown s.dev)) ∧
      ((s.dev.module m).mPage = none → Answers (.mPageTimer m) s (settleDown s.dev)) ∧
      ((∀ e ∈ s.dev.med.tallies, ¬ (e.1 = m ∧ e.2.1 = ebn)) → Answers (.tallyTimer m ebn) s (settleDown s.dev)) ∧
      (s.dev.med.sweep = none → Answers .sweepPhaseEnd s (settleDown s.dev)) ∧
      (s.dev.med.pla.phase ≠ 1 → Answers .plaSettleEnd s (settleDown s.dev)) ∧
      (s.dev.med.pla.phase ≠ 2 → Answers (.plaSectionsWritten copy) s (settleDown s.dev))

/-- A media link comes up through Detect, Equalise, Lock, Ident and Credit, and only through them (R334, R335, R336, R337). -/
def Obligations.MediaLinkBringUp : Prop :=
  ∀ (s : State) (m port id role ver : Nat),
      let ph := s.dev.linkPhase m
      (ph = 1 → Answers (.linkDetected m) s (settleDown (setPhase m 2 s.dev))) ∧
      (ph ≠ 1 → Answers (.linkDetected m) s (settleDown s.dev)) ∧
      (ph = 2 → Answers (.equaliseDone m) s (settleDown (setPhase m 3 (s.dev.modLink m fun l => { l with idleRun := 0 })))) ∧
      (ph ≠ 2 → Answers (.equaliseDone m) s (settleDown s.dev)) ∧
      ((s.dev.link m).idleRun < 64 → Answers (.blockLock m) s (settleDown s.dev)) ∧
      (64 ≤ (s.dev.link m).idleRun → ph = 3 → Answers (.blockLock m) s (settleDown ((setPhase m 4 s.dev).emit
        (.mediaCtl m 5 (256 + s.dev.per.head.getD 255 * 65536 + s.dev.sec.fuses.deviceId * 2 ^ 24))))) ∧
      (ph = 4 → Answers (.train m 1 1 port id) s (settleDown
        (setPhase m 5 ((s.dev.setF (R.MED_L_STATE_PORT m) port).modModule m fun x => { x with id := id })))) ∧
      (ph = 4 → role ≠ 1 ∨ ver ≠ 1 → Answers (.train m role ver port id) s (settleDown (trainFailed m s.dev))) ∧
      (ph ≠ 4 → Answers (.train m role ver port id) s (settleDown s.dev)) ∧
      Answers (.trainingFailed m) s (settleDown (trainFailed m s.dev)) ∧
      (ph ≠ 6 → Answers (.mediaSignalLoss m) s (settleDown s.dev) ∧ Answers (.linkRetrain m) s (settleDown (dropLatches s.dev))) ∧
      (ph = 0 → (s.dev.link m).hostDown = true →
        Answers (.mediaLinkUp m) s (settleDown (setPhase m 1 ((dropLatches s.dev).modLink m fun l => { l with hostDown := false }))) ∧
        Answers (.linkRestartTimer m) s (settleDown s.dev)) ∧
      (ph = 0 → Answers (.mediaLinkDown m) s (settleDown ((dropLatches s.dev).modLink m fun l => { l with hostDown := true }))) ∧
      (s.dev.linkUp m = false → Answers (.mediaBringupTimeout m) s (settleDown
        ((s.dev.setB (R.MED_M_STATE_IN_SERVICE m) false).modModule m fun x => { x with unavail := some (x.unavail.getD s.dev.now) })))

/-- Acknowledged frames leave the replay buffer, credits add up, and a bad frame is answered with a NAK (R319, R320, R324, R326, R335). -/
def Obligations.MediaLinkFrames : Prop :=
  ∀ (s : State) (m lseq cmds units tag : Nat) (ok : Bool),
      let ph := s.dev.linkPhase m
      let bad := ((s.dev.err (R.E_MED_L_CRC_ERR m)).modLink m fun l => { l with discard := true }).emit (.mediaCtl m 3 (s.dev.link m).lseqRx)
      Answers (.ack m lseq) s (settleDown (s.dev.modLink m fun l => { l with
        replay := l.replay.filter fun e => newerW 32 e.1 lseq
        replays := if l.replay.any (fun e => !newerW 32 e.1 lseq) then 0 else l.replays })) ∧
      (ph = 6 ∨ ph = 7 → Answers (.credit m cmds units) s (settleDown (syncLink m (pumpLink m (s.dev.modLink m fun l => { l with
        cmdCred := l.cmdCred + cmds, dataCred := l.dataCred + units }))))) ∧
      (ph ≠ 5 → ph ≠ 6 → ph ≠ 7 → Answers (.credit m cmds units) s (settleDown s.dev)) ∧
      (ph = 6 → Answers (.mediaFrameError m) s (settleDown bad) ∧ Answers (.idleBlock m false) s (settleDown bad) ∧
        Answers (.idleBlock m true) s (settleDown s.dev)) ∧
      (ph ≠ 6 → Answers (.mediaFrameError m) s (settleDown s.dev) ∧ Answers (.nak m lseq) s (settleDown s.dev)) ∧
      (ph = 3 ∨ ph = 7 → Answers (.idleBlock m ok) s (settleDown
        (s.dev.modLink m fun l => { l with idleRun := if ok then l.idleRun + 1 else 0 }))) ∧
      ((∀ c ∈ (s.dev.link m).tags, c.tag ≠ tag) → Answers (.responseTimeout m tag) s (settleDown s.dev)) ∧
      (s.dev.linkUp m = false → Answers (.statusPoll m) s (settleDown s.dev))

/-- A received frame is counted once and taken, or dropped under the counter that says why (R341, R342, R345). -/
def Obligations.FrameCounting : Prop :=
  ∀ (s : State) (p len tags prio fill : Nat) (fcsOk full ipBad : Bool) (k : FrameKind),
      let seen := (s.dev.stat (R.FRT_P_RX_FRAMES p) 1).stat (R.FRT_P_RX_BYTES p) len
      let lossy := prio ≠ s.dev.getF R.FRT_CLASS_ROCE_PRIO ∧ full = true
      (s.dev.portUp p = false → Answers (.frameReceive p len tags prio fill fcsOk full ipBad k) s (settleDown s.dev)) ∧
      (s.dev.portUp p = true →
        Answers (.frameReceive p len tags prio fill false full ipBad k) s (settleDown (s.dev.err (R.E_FRT_P_FCS_ERR p))) ∧
        (9216 < len ∨ 2 ≤ tags → Answers (.frameReceive p len tags prio fill true full ipBad k) s
          (settleDown (seen.stat (R.FRT_P_DROP_OTHER p) 1))) ∧
        (len ≤ 9216 → tags < 2 → lossy → Answers (.frameReceive p len tags prio fill true full ipBad k) s
          (settleDown (seen.stat (R.FRT_P_DROP_LOSSY p) 1))) ∧
        (len ≤ 9216 → tags < 2 → ¬ lossy → Answers (.frameReceive p len tags prio fill true full true k) s
          (settleDown (seen.stat (R.FRT_P_DROP_OTHER p) 1))) ∧
        (len ≤ 9216 → tags < 2 → ¬ lossy → Answers (.frameReceive p len tags prio fill true full false k) s
          (settleDown (flowControl p fill (takeFrame p k seen)))))

/-- Ports pause, storm, go down and come up as ordered (R343, R345, R346, R380). -/
def Obligations.PortOrders : Prop :=
  ∀ (s : State) (p prio : Nat) (on : Bool),
      let d := dropLatches s.dev
      (s.dev.portUp p = false → Answers (.pfcFrame p prio on) s (settleDown s.dev) ∧ Answers (.pfcStorm p) s (settleDown s.dev) ∧
        Answers (.portLinkDown p) s (settleDown s.dev)) ∧
      (s.dev.portUp p = true → Answers (.pfcFrame p prio false) s (settleDown (syncPause p
        (s.dev.modPort p fun x => { x with pause := x.pause.filter (· != prio) })))) ∧
      (s.dev.portUp p = true → prio = s.dev.getF R.FRT_CLASS_ROCE_PRIO → prio ∉ (s.dev.port p).pause →
        Answers (.pfcFrame p prio true) s (settleDown (syncPause p
          ((s.dev.modPort p fun x => { x with pause := x.pause ++ [prio] }).stat (R.FRT_P_XOFF_RX p) 1)))) ∧
      Answers (.pfcPauseExpiry p prio) s (settleDown (syncPause p
        (s.dev.modPort p fun x => { x with pause := x.pause.filter (· != prio) }))) ∧
      (s.dev.portUp p = true → s.dev.getB (R.FRT_P_STATE_PAUSED p) = true → Answers (.pfcStorm p) s (settleDown
        (portLinkDown p 2 ((s.dev.postAt 0x0A01 (sa 0x0A p 0 0) [p]).err (R.E_FRT_P_STORMS p))))) ∧
      (s.dev.getB (R.FRT_P_STATE_PAUSED p) = false → Answers (.pfcStorm p) s (settleDown s.dev)) ∧
      (s.dev.portUp p = true → Answers (.portLinkDown p) s (settleDown (portLinkDown p 1 s.dev))) ∧
      (s.dev.portCount ≤ p → Answers (.portDown p) s (settleDown d)) ∧
      (p < s.dev.portCount → Answers (.portDown p) s (settleDown
        ((portLinkDown p 3 d).modPort p fun x => { x with hostDown := true, bringUp := false }))) ∧
      ((s.dev.port p).hostDown = true → Answers (.portUp p) s (settleDown
        (startBringUp p (d.modPort p fun x => { x with hostDown := false })))) ∧
      ((s.dev.port p).hostDown = false → Answers (.portUp p) s (settleDown d)) ∧
      Answers (.portRestartTimer p) s (settleDown (startBringUp p s.dev))

/-- The rate of a queue pair falls with congestion, holds and climbs again, within its bounds (R348). -/
def Obligations.RateControl : Prop :=
  ∀ (s : State) (n : Nat),
    ((s.dev.qp n).st = .reset ∨ isPeerQp n = true → Answers (.cnpReceive n) s (settleDown s.dev) ∧ Answers (.ccInterval n) s (settleDown s.dev)) ∧
    (isPeerQp n = false → (s.dev.qp n).st ≠ .reset →
      let q := s.dev.qp n
      let top := portRate s.dev q.port
      let rmin := s.dev.getF R.TRN_CC_RATE_MIN_100M * 100000000
      let cut := min q.cnps (s.dev.getF R.TRN_CC_CUT_CAP) * s.dev.getF R.TRN_CC_CUT
      let calm := min (q.calm + 1) 255
      let hold := s.dev.getF R.TRN_CC_HOLD
      let step := min ((calm - hold) * (s.dev.getF R.TRN_CC_STEP_STEP_100M * 100000000)) (s.dev.getF R.TRN_CC_STEP_STEP_MAX_100M * 100000000)
      Answers (.cnpReceive n) s (settleDown ((s.dev.modQp n fun x => { x with cnps := x.cnps + 1 }).stat R.TRN_CNP_RX 1)) ∧
      ∃ rate calm', Answers (.ccInterval n) s (settleDown (s.dev.modQp n fun x => { x with rate := rate, calm := calm', cnps := 0 })) ∧
        (0 < q.cnps → rate = max rmin (q.rate * (16 - cut) / 16) ∧ calm' = 0) ∧
        (q.cnps = 0 → calm' = calm ∧ (calm ≤ hold → rate = q.rate) ∧ (hold < calm → rate = min top (q.rate + step))))

/-- Packets and timers act on the queue pairs they name, and on no queue pair that cannot take them (R351, R352, R355, R358, R360, R361, R374, R376,
R378). -/
def Obligations.TransportOrders : Prop :=
  ∀ (s : State) (n psn syn key va len cm w msn : Nat) (b : Bytes) (first last ar : Bool),
      Answers (.mra cm) s (settleDown s.dev) ∧
      (s.dev.conn cm = none → Answers (.rtu cm) s (settleDown s.dev) ∧ Answers (.rej cm) s (settleDown s.dev) ∧
        Answers (.dreq cm) s (settleDown s.dev) ∧ Answers (.drep cm) s (settleDown s.dev)) ∧
      (rcLive (s.dev.qp n) = false →
        ∀ c ∈ [Instr.rcSendPacket n psn first last len ar, .rcWritePacket n psn first last key va len b ar, .rcReadRequest n psn key va len,
          .rcAck n psn, .rcNak n psn syn, .rnrNak n psn, .rcFlush n psn key va len, .rcAtomic n psn, .ackTimer n, .retransmitTimeout n,
          .rnrTimer n], Answers c s (settleDown s.dev)) ∧
      (rcLive (s.dev.qp n) = true → psnPlace (s.dev.qp n) psn ≠ .ahead → Answers (.rcAtomic n psn) s (settleDown (rcInvalid n s.dev))) ∧
      (rcLive (s.dev.qp n) = true → psnPlace (s.dev.qp n) psn = .ahead →
        ∀ c ∈ [Instr.rcSendPacket n psn first last len ar, .rcWritePacket n psn first last key va len b ar, .rcReadRequest n psn key va len,
          .rcFlush n psn key va len, .rcAtomic n psn],
        ((s.dev.qp n).nakSent = true → Answers c s (settleDown s.dev)) ∧
        ((s.dev.qp n).nakSent = false → Answers c s (settleDown ((sendNak n 0x60 s.dev).modQp n fun q => { q with nakSent := true })))) ∧
      (rcLive (s.dev.qp n) = true → (s.dev.qp n).ackPending = 0 → Answers (.ackTimer n) s (settleDown s.dev)) ∧
      (rcLive (s.dev.qp n) = true → (s.dev.qp n).pkts = [] → Answers (.retransmitTimeout n) s (settleDown s.dev)) ∧
      (rcLive (s.dev.qp n) = true → (s.dev.qp n).pkts ≠ [] → s.dev.getF R.TRN_STD_RETRY_CNT ≤ (s.dev.qp n).timeouts + 1 →
        Answers (.retransmitTimeout n) s (settleDown (qpError n s.dev))) ∧
      (rcLive (s.dev.qp n) = true → (s.dev.qp n).rnrWait = false → Answers (.rnrTimer n) s (settleDown s.dev)) ∧
      ((∀ m ∈ (s.dev.qp n).msgs, m.msn ≠ msn) → Answers (.spNak n msn) s (settleDown s.dev)) ∧
      ((s.dev.win w).rewriting = true → Answers (.mwRewriteComplete w) s (settleDown { s.dev with net := { s.dev.net with
        windows := tabPut s.dev.net.windows w { s.dev.win w with rewriting := false } } }))

/-- Admin commands of a controller complete with their result, and an unknown controller's change nothing (R383, R386, R387, R388, R400). -/
def Obligations.AdminCommands : Prop :=
  ∀ (s : State) (c cid : Nat) (e : Sqe) (cap : Bytes) (x : Ctrl),
      let o := Origin.fabric c 0 cid
      let d := (newId s.dev).2
      let head := fun (opc : Nat) => mkHead s.dev true (Origin.fabric c 0 e.cid) { e with opc := opc } cap x.inst 0
      (s.dev.ctrl c = none →
        ∀ i ∈ [Instr.keepAlive o e cap, .getFeatures o e cap, .setFeatures o e cap, .propertyGet o e cap, .propertySet o e cap, .getLogPage o e cap,
          .identify o e cap, .abortCommand o e cap, .asynchronousEventRequest o e cap, .disconnect o e cap, .unsupportedCommand o e cap,
          .keepAliveExpiry c], Answers i s (settleDown s.dev)) ∧
      (s.dev.ctrl c = some x → x.kato = 0 → Answers (.keepAliveExpiry c) s (settleDown s.dev)) ∧
      (s.dev.ctrl c = some x → x.kato ≠ 0 → Answers (.keepAliveExpiry c) s (settleDown (endAssociation c (s.dev.err R.E_CMQ_KATO_EXP)))) ∧
      (s.dev.ctrl c = some x → e.fuse = 0 → e.cdw2 = 0 → e.cdw3 = 0 → (∀ opc st, dataPtr (head opc) ≠ .bad st) →
        Answers (.keepAlive o e cap) s (settleDown (sendCompletion (head 0x18) stOk 0 0 d)) ∧
        (e.cdw10 % 256 = 0x0F → Answers (.getFeatures o e cap) s (settleDown (sendCompletion (head 0x0A) stOk x.kato 0 d)) ∧
          Answers (.setFeatures o e cap) s (settleDown (sendCompletion (head 0x09) stOk 0 0 (d.modCtrl c fun y => { y with kato := e.cdw11 })))) ∧
        (e.cdw10 % 256 = 0x0B → Answers (.getFeatures o e cap) s (settleDown (sendCompletion (head 0x0A) stOk (tabGet 0 x.feats 0x0B) 0 d)) ∧
          Answers (.setFeatures o e cap) s (settleDown (sendCompletion (head 0x09) stOk 0 0
            (d.modCtrl c fun y => { y with feats := tabPut y.feats 0x0B e.cdw11 })))) ∧
        (property x e.cdw11 = none → Answers (.propertyGet o e cap) s (settleDown (sendCompletion (head 0x7F) stField 0 0 d))) ∧
        (∀ v, property x e.cdw11 = some v → e.cdw10 % 8 = 1 →
          Answers (.propertyGet o e cap) s (settleDown (sendCompletion (head 0x7F) stOk v 0 d))) ∧
        (e.cdw11 ≠ 0x14 → Answers (.propertySet o e cap) s (settleDown (sendCompletion (head 0x7F) stField 0 0 d))) ∧
        (e.cdw11 = 0x14 → Answers (.propertySet o e cap) s (settleDown (sendCompletion (head 0x7F) stOk 0 0
          (d.modCtrl c fun y => { y with cc := e.cdw12 % 2 ^ 32, csts := cstsOf e.cdw12 })))))

/-- Set-up commands are counted and refused out of service, and rings and doorbells move their indexes (R412, R415, R416, R418, R420, R423, R424). -/
def Obligations.InstanceOrders : Prop :=
  ∀ (s : State) (tag sl q v inst : Nat) (b : Bytes),
      let d := dropLatches s.dev
      let n := s.dev.stat R.INS_SETUP_CMDS 1
      (s.dev.inService = false →
        ∀ c ∈ [Instr.createInstance tag b, .deleteInstance tag b, .resetInstance tag b, .setQos tag b, .setHosts tag b, .createNs tag b,
          .deleteNs tag b, .bindSlice tag b, .unbindSlice tag b, .answer tag b], Answers c s (settleDown (setupCpl tag 6 0 n))) ∧
      (s.dev.getB R.INS_MQ_CTL_EN = true → Answers .mqEnable s (settleDown d)) ∧
      (s.dev.getB R.INS_MQ_CTL_EN = false →
        let z := (((d.setF R.INS_UP_HEAD_INDEX 0).setF R.INS_UP_TAIL_INDEX 0).setF R.INS_DN_HEAD_INDEX 0).setF R.INS_DN_TAIL_INDEX 0
        Answers .mqEnable s (settleDown (pumpUp (modRings (fun r => { r with
          ents := (r.ents.filter fun e => !e.done).map fun e => { e with place := 0 }
          phase := true, fetching := false }) (z.setB R.INS_MQ_CTL_EN true))))) ∧
      Answers (.dnTailWrite v) s (settleDown (fetchDown (d.setF R.INS_DN_TAIL_INDEX (v % 4096)))) ∧
      ((s.dev.slice sl).bound = false ∨ (s.dev.slice sl).nq ≤ q →
        Answers (.sqTailDoorbell sl q v) s (settleDown s.dev) ∧ Answers (.cqHeadDoorbell sl q v) s (settleDown s.dev)) ∧
      ((s.dev.slice sl).bound = true → q < (s.dev.slice sl).nq →
        Answers (.sqTailDoorbell sl q v) s (settleDown
          (fetchSq sl q (modSliceQ sl q (fun y => { y with sqTail := v % (s.dev.slice sl).depth }) s.dev))) ∧
        Answers (.cqHeadDoorbell sl q v) s (settleDown
          (flushCq sl q (modSliceQ sl q (fun y => { y with cqHead := v % (s.dev.slice sl).depth }) s.dev)))) ∧
      ((s.dev.inst inst).rateQueue = [] → Answers (.rateQueueRelease inst) s (settleDown s.dev))

/-- A migration freezes only when allowed, and its messages act only on the migration they name (R426, R428, R434, R435). -/
def Obligations.MigrationOrders : Prop :=
  ∀ (s : State) (i reason code : Nat) (b : Bytes) (g : Migration),
      let m := rxMsg s.dev
      (migAllowed s.dev reason = false → Answers (.migrationFreeze i reason) s (settleDown s.dev)) ∧
      (migAllowed s.dev reason = true → s.dev.getF (R.INS_I_STATE_STATE i) = 1 → migReason s.dev i reason = true →
        Answers (.migrationFreeze i reason) s (settleDown (freezeSource i reason s.dev))) ∧
      (migAllowed s.dev reason = true → s.dev.getF (R.INS_I_STATE_STATE i) = 2 →
        Answers (.migrationFreeze i reason) s (settleDown
          (putMig (some ⟨i, false, 1, reason, s.dev.now⟩) (anaChange i (s.dev.setF (R.INS_I_STATE_STATE i) 3))))) ∧
      (s.dev.nvm.mig = none → Answers .migrationPhaseTimeout s (settleDown s.dev) ∧ Answers .migrationThawEnd s (settleDown s.dev) ∧
        Answers .migrationDrainEnd s (settleDown s.dev) ∧
        Answers (.migAck i code) s (settleDown m) ∧ Answers (.migAbort i) s (settleDown m)) ∧
      (s.dev.nvm.mig = none → m.getF (R.INS_I_STATE_STATE i) ≠ 2 → Answers (.migBlob i b) s (settleDown (sendPeer 0x41 0 [i, 1] [] m))) ∧
      (s.dev.nvm.mig = some g → g.inst ≠ i → Answers (.migAck i code) s (settleDown m) ∧ Answers (.migAbort i) s (settleDown m)) ∧
      (s.dev.nvm.mig = some g → 6 ≤ g.phase → Answers .migrationPhaseTimeout s (settleDown s.dev)) ∧
      (s.dev.nvm.mig = some g → g.inst = i → g.outbound = true → g.phase = 4 →
        Answers (.migAck i 0) s (settleDown (switchSource g m)) ∧
        (code ≠ 0 → Answers (.migAck i code) s (settleDown (abortMig false m))))

/-- A stream starts from idle, resumes from halted, and takes only control messages that are its own and whole (R446, R448, R453, R455, R456, R457). -/
def Obligations.StreamOrders : Prop :=
  ∀ (s : State) (u id seq arg arg2 reason nsg snap : Nat),
      let d := dropLatches s.dev
      let st := strState s.dev u
      let again : Stream := { streamFresh with
        resumed := true, commit := (s.dev.stream u).commit, ahead := (s.dev.stream u).ahead, label := (s.dev.stream u).label }
      (st ≠ 0 → Answers (.streamStart u) s (settleDown d)) ∧
      (st = 0 → Answers (.streamStart u) s (settleDown (strBegin u streamFresh (d.setB (R.SNP_S_STATE_REPLICA u) false)))) ∧
      (st ≠ 6 → Answers (.streamResume u) s (settleDown d)) ∧
      (st = 6 → Answers (.streamResume u) s (settleDown (strBegin u again d))) ∧
      (st = 5 ∨ st = 6 → Answers (.streamStop u) s (settleDown
        (setStr u 0 (putStream u streamFresh ((cmClose (s.dev.stream u).qpn d).setF (R.SNP_S_STATE_REASON u) 0))))) ∧
      (st = 0 → Answers (.streamStop u) s (settleDown d)) ∧
      (st ≠ 0 → st ≠ 5 → st ≠ 6 → Answers (.streamStop u) s (settleDown (haltStream u 5 true d))) ∧
      (∀ c ∈ [Instr.ready u false id seq arg arg2, .commit u false id seq, .resend u false id seq, .endStream u false id seq,
        .doneStream u false id, .haltMsg u false reason id], Answers c s (settleDown (s.dev.err (R.E_SNP_S_CTRL_ERR u)))) ∧
      (id ≠ s.dev.rd (R.SNP_S_ID u) → ∀ c ∈ [Instr.ready u true id seq arg arg2, .commit u true id seq, .resend u true id seq,
        .endStream u true id seq, .doneStream u true id, .haltMsg u true reason id], Answers c s (settleDown s.dev)) ∧
      (id = s.dev.rd (R.SNP_S_ID u) →
        Answers (.haltMsg u true reason id) s (settleDown (haltStream u (reason % 16) false s.dev)) ∧
        (st = 4 → strRx s.dev u = false → Answers (.doneStream u true id) s (settleDown
          ((setStr u 5 s.dev).setB (R.SNP_S_STATE_REPLICA u) true))) ∧
        (st = 3 → strRx s.dev u = true → Answers (.endStream u true id seq) s (settleDown
          (setStr u 4 (modStream u (fun x => { x with endSeq := some seq }) s.dev))))) ∧
      (s.dev.ns nsg = none → Answers (.snapshotSeal nsg snap) s (settleDown s.dev) ∧ Answers (.deletionWalkEnd nsg) s (settleDown s.dev) ∧
        Answers (.nuseUpdate nsg) s (settleDown s.dev))

/-- Life-cycle orders need their confirmation, the right state and a free steward, and say why they are refused (R473, R477, R486, R487, R488, R489). -/
def Obligations.LifeCycleCommands : Prop :=
  ∀ (s : State) (cfm slot dom : Nat),
      let d := dropLatches s.dev
      let err := fun (n : Nat) => settleDown (d.setF R.SEC_LC_STATUS_ERR n)
      let refuse := fun (n : Nat) => settleDown ((d.setF R.SEC_DOMAIN_STATUS_DOMAIN dom).setF R.SEC_DOMAIN_STATUS_ERR n)
      (s.dev.sec.lcOp ≠ 0 → ∀ c ∈ [Instr.provision cfm, .enroll cfm slot, .fieldLock cfm, .returnHead cfm, .challenge, .respond],
        Answers c s (settleDown d)) ∧
      (s.dev.sec.lcOp = 0 → cfm ≠ 0x5AC3 → ∀ c ∈ [Instr.provision cfm, .enroll cfm slot, .fieldLock cfm, .returnHead cfm], Answers c s (err 2)) ∧
      (s.dev.sec.lcOp = 0 → lcState s.dev ≠ 0 → Answers (.provision 0x5AC3) s (err 1)) ∧
      (s.dev.sec.lcOp = 0 → lcState s.dev = 0 → s.dev.getB R.SEC_TRNG_FAILED = true → Answers (.provision 0x5AC3) s (err 5)) ∧
      (s.dev.sec.lcOp = 0 → 2 ≤ lcState s.dev → Answers (.enroll 0x5AC3 slot) s (err 1)) ∧
      (s.dev.sec.lcOp = 0 → lcState s.dev < 2 → slot = 0 ∨ 3 < slot ∨ tabFind s.dev.sec.fuses.hashes slot ≠ none →
        Answers (.enroll 0x5AC3 slot) s (err 9)) ∧
      (s.dev.sec.lcOp = 0 → lcState s.dev ≠ 1 → Answers (.fieldLock 0x5AC3) s (err 1)) ∧
      (s.dev.sec.lcOp = 0 → lcState s.dev = 1 → Answers (.fieldLock 0x5AC3) s (settleDown (lcStart 3 0 [] d))) ∧
      (s.dev.sec.lcOp = 0 → lcState s.dev = 0 ∨ lcState s.dev = 3 → Answers (.returnHead 0x5AC3) s (err 1)) ∧
      (s.dev.sec.lcOp = 0 → lcState s.dev ≠ 3 → Answers .challenge s (err 1) ∧ Answers .respond s (err 1)) ∧
      (s.dev.inService = false → Answers (.raise dom) s (refuse 3)) ∧
      (s.dev.inService = true → (s.dev.domain dom).inUse = false → Answers (.raise dom) s (refuse 2)) ∧
      (s.dev.inService = true → (s.dev.domain dom).inUse = true → s.dev.sec.raise ≠ none → Answers (.raise dom) s (refuse 1)) ∧
      (s.dev.sec.replBusy = false → s.dev.sec.root = none → ∀ c ∈ [Instr.replSet slot, .replClear slot],
        Answers c s (settleDown (d.setF R.SEC_REPL_CMD_ERR 1))) ∧
      Answers .trngTestFail s (settleDown
        ((((s.dev.setB R.SEC_TRNG_FAILED true).setB R.SEC_TRNG_HEALTHY false).err R.E_SEC_TRNG_FAIL).post 0x0403 [])) ∧
      (s.dev.getB R.SEC_TRNG_FAILED = true →
        Answers (.trngRestart true) s (settleDown ((s.dev.setB R.SEC_TRNG_FAILED false).setB R.SEC_TRNG_HEALTHY true)) ∧
        Answers (.trngRestart false) s (settleDown s.dev))

/-- The raw cipher and digest engines take keys, data and orders in their sequence and report misuse (R478, R479, R480, R481, R482, R483). -/
def Obligations.CipherAndDigestOrders : Prop :=
  ∀ (s : State) (n k w tail v alg keyLen : Nat) (mac : Bool),
      let d := dropLatches s.dev
      let g := dgSel s.dev
      let c := s.dev.digest g
      (ccState s.dev n = 1 ∨ ccState s.dev n = 2 ∨ ccState s.dev n = 3 → Answers (.cipherGo n) s (settleDown d)) ∧
      (ccState s.dev n = 2 → Answers (.cipherAbort n) s (settleDown (d.modCipher n fun x => { x with aborting := true }))) ∧
      (ccState s.dev n = 1 ∨ ccState s.dev n = 3 → Answers (.cipherAbort n) s (settleDown (endCipher n 0 0 d))) ∧
      (ccState s.dev n = 0 ∨ 4 ≤ ccState s.dev n → Answers (.cipherAbort n) s (settleDown d)) ∧
      Answers (.cipherKeyWrite n k true v) s (settleDown (d.modCipher n fun x => { x with hctx := overlay x.hctx (8 * k) (leBytes 8 v) })) ∧
      Answers (.cipherKeyWrite n k false v) s (settleDown (d.modCipher n fun x => { x with
        key := overlay x.key (8 * k) (leBytes 8 v), keyWords := if bitAt x.keyWords k then x.keyWords else x.keyWords + 2 ^ k })) ∧
      (c.busy = true → ∀ i ∈ [Instr.digestKeyWrite w, .digestDataWrite w, .digestFinal tail w], Answers i s (settleDown (dgErr g 1 d))) ∧
      (c.busy = false → dgTakes c = false → ∀ i ∈ [Instr.digestDataWrite w, .digestFinal tail w], Answers i s (settleDown (dgErr g 3 d))) ∧
      (c.busy = false → c.active = false → Answers (.digestKeyWrite w) s (settleDown (dgErr g 3 d))) ∧
      (c.busy = false → dgTakes c = true → (c.msg.length + 4) % (dgAlg c.alg).block ≠ 0 → Answers (.digestDataWrite w) s
        (settleDown (d.modDigest g fun x => { x with msg := x.msg ++ leBytes 4 w }))) ∧
      (c.done = true → Answers (.digestResultRead k) s (settleDown (d.emit (.busRead (dgWord c k))))) ∧
      (c.done = false → Answers (.digestResultRead k) s (settleDown (dgErr g 0 (d.emit (.busRead (dgWord c k)))))) ∧
      Answers (.compressionDone n) s (settleDown (s.dev.modDigest (n % 8) fun x => { x with busy := false })) ∧
      (2 < alg →
        let e := ((d.setF R.SEC_DG_CTL_ALG alg).setB R.SEC_DG_CTL_HMAC mac).setF R.SEC_DG_CTL_KEY_LEN keyLen
        Answers (.digestInit alg mac keyLen) s (settleDown (dgErr g 3 (e.modDigest g fun _ => { digestFresh with
          alg := alg, hmac := mac, keyLen := keyLen, errs := (e.digest g).errs }))))

/-- Heartbeats, messages and their loss act only between heads that are paired and not fenced (R466, R491, R494, R495, R496, R497, R499). -/
def Obligations.HeadsTalk : Prop :=
  ∀ (s : State) (sub stg desc jrn fwd bulk cause line : Nat) (b : Bytes),
      let m := rxMsg s.dev
      m = s.dev.wr R.PER_MSGS_RX ((s.dev.rd R.PER_MSGS_RX + 1) % 2 ^ 64) ∧
      Answers (.windows stg desc jrn fwd bulk) s (settleDown { m with per := { m.per with
        windows := [(0, stg), (1, desc), (2, jrn), (3, fwd), (4, bulk)] } }) ∧
      Answers (.lineWb line) s (settleDown { m with map := { m.map with handed := m.map.handed.filter fun e => e.1 != line } }) ∧
      (b.length ≠ 8192 → Answers (.anchor b) s (settleDown m)) ∧
      (sub ∉ upSublinks s.dev → Answers (.heartbeatFrame sub b) s (settleDown s.dev)) ∧
      (beating s.dev = false → Answers .heartbeatTimer s (settleDown s.dev)) ∧
      (beating s.dev = true →
        let e : Dev := { s.dev with per := { s.dev.per with hbSeq := (s.dev.per.hbSeq + 1) % 2 ^ 32 } }
        Answers .heartbeatTimer s (settleDown ((sendFrame 1 (beatBytes e) e).stat R.PER_HB_TX (upSublinks e).length))) ∧
      (s.dev.peerUp = false ∨ s.dev.fenced = true → Answers .heartbeatLoss s (settleDown s.dev) ∧ Answers .selfFenceFrame s (settleDown s.dev)) ∧
      (s.dev.peerUp = true → s.dev.fenced = false → Answers .selfFenceFrame s (settleDown (startContest s.dev)) ∧
        Answers .heartbeatLoss s (settleDown (startContest (((s.dev.err R.E_PER_HB_MISSED).err R.E_PER_HB_MISSED).err R.E_PER_HB_MISSED)))) ∧
      (s.dev.fenced = true → Answers .perSelfFence s (settleDown (dropLatches s.dev))) ∧
      (s.dev.getF R.PER_STATE_STATE ≠ 1 → Answers .pairingTimeout s (settleDown s.dev) ∧ Answers .pairingRetry s (settleDown s.dev)) ∧
      (s.dev.sec.pairing.phase = 0 ∨ s.dev.sec.pairing.phase = 9 → Answers (.pairFailMsg cause) s (settleDown m)) ∧
      (s.dev.sec.pairing.phase ≠ 0 → s.dev.sec.pairing.phase ≠ 9 → Answers (.pairFailMsg cause) s (settleDown (failPairing false cause m))) ∧
      (2 ≤ sub → Answers (.thagraitSublinkDown sub) s (settleDown s.dev) ∧ Answers (.thagraitSublinkUp sub) s (settleDown s.dev))

/-- Take-over and return go through their states in order and nowhere else (R502, R506, R508, R509, R510, R511). -/
def Obligations.TakeOverOrders : Prop :=
  ∀ (s : State) (word jsn first : Nat),
      let m := rxMsg s.dev
      let st := s.dev.getF R.PER_STATE_STATE
      (s.dev.per.contest = none → Answers .contestTimeout s (settleDown s.dev)) ∧
      (s.dev.per.contest ≠ none → Answers .contestTimeout s (settleDown
        (selfFence 3 (({ s.dev with per := { s.dev.per with contest := none } } : Dev).err R.E_PER_CONTEST_LOST)))) ∧
      (st ≠ 5 → Answers .adoptEnd s (settleDown s.dev) ∧ Answers .publishEnd s (settleDown s.dev)) ∧
      (s.dev.per.adopted = true → Answers .adoptEnd s (settleDown s.dev)) ∧
      (s.dev.per.adopted = false → Answers .publishEnd s (settleDown s.dev) ∧ Answers .secured s (settleDown s.dev)) ∧
      (st = 6 → s.dev.per.adopted = true → s.dev.write.batches.all (fun b => b.head == s.dev.headNum) = true →
        Answers .secured s (settleDown (s.dev.setB R.PER_STATE_SECURED true))) ∧
      (st ≠ 6 → Answers .secured s (settleDown s.dev)) ∧
      (st ≠ 2 → Answers (.join word jsn) s (settleDown m) ∧ Answers (.resyncDone first word) s (settleDown m)) ∧
      (s.dev.peerUp = false ∨ s.dev.per.holdoff = false → Answers .returnHoldoffExpiry s (settleDown s.dev)) ∧
      (s.dev.peerUp = true → s.dev.per.holdoff = true → Answers .returnHoldoffExpiry s (settleDown (syncReclaim
        (({ s.dev with per := { s.dev.per with holdoff := false, reclaim := toReclaim s.dev } } : Dev).setF R.PER_HOLDOFF_REMAINING_S 0))))

/-- The endpoint stops and resumes DMA, sends or keeps interrupts, and counts completions (R517, R520, R530, R531, R533, R535, R536, R537, R538). -/
def Obligations.EndpointOrders : Prop :=
  ∀ (s : State) (v tag st speed width sl : Nat) (pasid : Option Nat) (hdr b : Bytes) (flit : Bool) (r : DmaRd),
      (s.dev.getB R.HEP_FUNC_MSIX_EN = false ∨ s.dev.hep.funcMask = true ∨ (s.dev.vector v).masked = true →
        s.dev.msix v pasid = { s.dev with hep := { s.dev.hep with pba := tabSet false s.dev.hep.pba v true } }) ∧
      (s.dev.getB R.HEP_FUNC_MSIX_EN = true → s.dev.hep.funcMask = false → (s.dev.vector v).masked = false → s.dev.dmaOn = true →
        s.dev.msix v pasid = (s.dev.emit (.msix (s.dev.vector v).addr (s.dev.vector v).data pasid)).stat R.HEP_MSIX_SENT 1) ∧
      (2048 ≤ v → Answers (.msixUnmask v) s (settleDown s.dev)) ∧
      ((tabGet ⟨false, 0⟩ s.dev.hep.slices sl).holdoff = false → Answers (.msixHoldoffExpiry sl) s (settleDown s.dev)) ∧
      (s.dev.hep.reads.find? (fun x => x.tag == tag) = none →
        Answers (.dmaReadCompletion tag st hdr b) s (settleDown (aerReport .unexpectedCompletion hdr s.dev)) ∧
        Answers (.completionTimeout tag) s (settleDown s.dev)) ∧
      (s.dev.hep.reads.find? (fun x => x.tag == tag) = some r → r.discard = true →
        Answers (.dmaReadCompletion tag 0 hdr b) s (settleDown
          (((freeTag tag s.dev).stat R.HEP_DMA_RD_BYTES b.length).stat R.HEP_DISCARDED_CPL 1)) ∧
        Answers (.completionTimeout tag) s (settleDown (freeTag tag (aerReport .completionTimeout [] (s.dev.err R.E_HEP_CPL_TIMEOUT))))) ∧
      (s.dev.dmaOn = true → Answers (.busMasterDisable false) s (settleDown (stopDma (s.dev.setB R.HEP_FUNC_BME false))) ∧
        Answers (.busMasterDisable true) s (settleDown (stopDma (s.dev.setB R.HEP_FUNC_D3HOT true)))) ∧
      (s.dev.dmaOn = false → Answers (.busMasterDisable false) s (settleDown (s.dev.setB R.HEP_FUNC_BME false))) ∧
      (s.dev.getB R.HEP_FUNC_BME = true → Answers .busMasterEnable s (settleDown s.dev)) ∧
      (s.dev.getB R.HEP_FUNC_BME = false → Answers .busMasterEnable s (settleDown (resumeDma (s.dev.setB R.HEP_FUNC_BME true)))) ∧
      (s.dev.getB R.HEP_FUNC_D3HOT = false → Answers .d3hotExit s (settleDown s.dev)) ∧
      (s.dev.getB R.HEP_FUNC_RESETTING = false → Answers .endpointReady s (settleDown s.dev)) ∧
      (s.dev.hep.training = false ∨ s.dev.hep.linkHeld = true ∨ speed < 1 ∨ 6 < speed ∨ width ∉ [1, 2, 4, 8] →
        Answers (.pcieLinkUp speed width flit) s (settleDown s.dev)) ∧
      (s.dev.hep.training = true → s.dev.hep.linkHeld = false → 1 ≤ speed → speed ≤ 6 → width ∈ [1, 2, 4, 8] →
        let u := (((s.dev.setF R.HEP_LINK_SPEED speed).setF R.HEP_LINK_WIDTH width).setB R.HEP_LINK_FLIT (flit || speed == 6)).setB R.HEP_LINK_UP true
        Answers (.pcieLinkUp speed width flit) s (settleDown { u with hep := { u.hep with training := false } }))

/-- Power, reset, restart and calibration orders act in the states the Hearth gives them (R541, R544, R547, R549, R554, R556, R559, R560). -/
def Obligations.HearthOrders : Prop :=
  ∀ (s : State) (k i stw : Nat) (ok : Bool),
      let d := dropLatches s.dev
      (s.dev.hth.pwrGood = false → Answers .powerFail s (settleDown s.dev) ∧ Answers .powerRestored s (settleDown s.dev) ∧
        Answers .hearthFault s (settleDown s.dev) ∧ Answers .pwrGoodFall s (settleDown s.dev)) ∧
      (s.dev.hth.pwrGood = true → Answers .powerOn s (settleDown s.dev)) ∧
      (s.dev.hth.pwrGood = true → s.dev.hth.pwrFailL = true → s.dev.getF R.HTH_STATE_STATE = 2 →
        let f := ({ s.dev with hth := { s.dev.hth with pwrFailL := false, flushStart := s.dev.now } } : Dev).setB R.HTH_STATE_PWR_FAIL true
        let g := traysForFlush (cancelPrograms (stopApply (setHeadState 3 f)))
        Answers .powerFail s (settleDown (plaStart { g with per := { g.per with mirrorOpen := false } }))) ∧
      (s.dev.hth.pwrGood = true → s.dev.getF R.HTH_STATE_STATE = 4 → Answers .powerRestored s (settleDown (warmRestart 5
        (({ s.dev with hth := { s.dev.hth with pwrFailL := true } } : Dev).setB R.HTH_STATE_PWR_FAIL false)))) ∧
      (s.dev.hth.sysResetL = false → Answers .sysReset s (settleDown s.dev)) ∧
      (s.dev.hth.sysResetL = true → Answers .sysResetRelease s (settleDown s.dev)) ∧
      (s.dev.hth.perstL = true → Answers .perstRelease s (settleDown s.dev)) ∧
      (s.dev.hth.resetHold = false → Answers .resetHoldEnd s (settleDown s.dev)) ∧
      (s.dev.fenced = false → Answers .restart s (settleDown d) ∧ Answers .fenceRestart s (settleDown s.dev)) ∧
      (s.dev.fenced = true → s.dev.hth.fenceCause ≠ 2 → Answers .restart s (settleDown (warmRestart 6 d)) ∧
        (s.dev.getB R.HTH_STATE_LOCKOUT = false → Answers .fenceRestart s (settleDown (warmRestart 4 s.dev)))) ∧
      (k = 0 ∨ 4 < k → Answers (.calibrationRequest k i true) s (settleDown d)) ∧
      Answers (.calibrationRequest k i false) s (settleDown d) ∧
      Answers (.calibrationRequest 4 i true) s (settleDown (d.setF R.CLK_CAL_STATUS_RESULT 4)) ∧
      (1 ≤ k → k ≤ 3 → s.dev.hth.cal.phase ≠ 0 → Answers (.calibrationRequest k i true) s (settleDown (d.setF R.CLK_CAL_STATUS_RESULT 3))) ∧
      (s.dev.hth.cal.phase ≠ 1 → Answers .calibrationDrainEnd s (settleDown s.dev)) ∧
      (s.dev.hth.cal.phase ≠ 2 → Answers (.calibrationDone ok) s (settleDown s.dev)) ∧
      (s.dev.hth.avsBusy = none → Answers (.avsResponse ok) s (settleDown s.dev)) ∧
      (stw = 0 ∨ 0x14 < stw → Answers (.stewardFailure stw ok) s (settleDown s.dev))
end

