-- ==== Sys2Proof/Laws/Bits.lean ====
section
/-! SUPPORT. Laws of bit fields and byte strings. -/

namespace Sys2Proof.Machine

/-- A field reads as what was put into it, cut to its width. -/
@[simp] theorem bitsAt_set_same (v lo w x : Nat) : bitsAt (setBitsAt v lo w x) lo w = x % 2 ^ w := by
  unfold bitsAt setBitsAt
  have h1 : v % 2 ^ lo < 2 ^ lo := Nat.mod_lt _ (by positivity)
  have e : v % 2 ^ lo + x % 2 ^ w * 2 ^ lo + v / 2 ^ (lo + w) * 2 ^ (lo + w) =
      v % 2 ^ lo + 2 ^ lo * (x % 2 ^ w + 2 ^ w * (v / 2 ^ (lo + w))) := by
    rw [pow_add]; ring
  rw [e, Nat.add_mul_div_left _ _ (by positivity), Nat.div_eq_of_lt h1, Nat.zero_add, Nat.add_mul_mod_self_left, Nat.mod_mod]

/-- A field below the one written keeps its value. -/
theorem bitsAt_set_below (v lo w x l n : Nat) (h : l + n ≤ lo) : bitsAt (setBitsAt v lo w x) l n = bitsAt v l n := by
  unfold bitsAt setBitsAt
  obtain ⟨k, rfl⟩ : ∃ k, lo = l + n + k := ⟨lo - (l + n), by omega⟩
  have key : ∀ y, y % 2 ^ (l + n + k) / 2 ^ l % 2 ^ n = y / 2 ^ l % 2 ^ n := by
    intro y
    rw [show l + n + k = l + (n + k) by ring, pow_add, Nat.mod_mul_right_div_self, pow_add 2 n k,
      Nat.mod_mul_right_mod]
  have e : v % 2 ^ (l + n + k) + x % 2 ^ w * 2 ^ (l + n + k) + v / 2 ^ (l + n + k + w) * 2 ^ (l + n + k + w) =
      v % 2 ^ (l + n + k) + 2 ^ (l + n + k) * (x % 2 ^ w + 2 ^ w * (v / 2 ^ (l + n + k + w))) := by
    rw [pow_add _ (l + n + k) w]; ring
  rw [e, ← key, Nat.add_mul_mod_self_left, Nat.mod_mod, key]

/-- A field above the one written keeps its value. -/
theorem bitsAt_set_above (v lo w x l n : Nat) (h : lo + w ≤ l) : bitsAt (setBitsAt v lo w x) l n = bitsAt v l n := by
  unfold bitsAt setBitsAt
  obtain ⟨k, rfl⟩ : ∃ k, l = lo + w + k := ⟨l - (lo + w), by omega⟩
  have h1 : v % 2 ^ lo + x % 2 ^ w * 2 ^ lo < 2 ^ (lo + w) := by
    have a : v % 2 ^ lo < 2 ^ lo := Nat.mod_lt _ (by positivity)
    have b : x % 2 ^ w + 1 ≤ 2 ^ w := Nat.mod_lt _ (by positivity)
    calc v % 2 ^ lo + x % 2 ^ w * 2 ^ lo < 2 ^ lo + x % 2 ^ w * 2 ^ lo := by omega
      _ = (x % 2 ^ w + 1) * 2 ^ lo := by ring
      _ ≤ 2 ^ w * 2 ^ lo := Nat.mul_le_mul_right _ b
      _ = 2 ^ (lo + w) := by rw [pow_add]; ring
  rw [pow_add _ (lo + w) k, ← Nat.div_div_eq_div_mul, Nat.add_mul_div_right _ _ (by positivity), Nat.div_eq_of_lt h1, Nat.zero_add,
    Nat.div_div_eq_div_mul, ← pow_add]

/-- Fields that do not meet do not disturb each other. -/
theorem bitsAt_set_other (v lo w x l n : Nat) (h : l + n ≤ lo ∨ lo + w ≤ l) : bitsAt (setBitsAt v lo w x) l n = bitsAt v l n := by
  rcases h with h | h
  · exact bitsAt_set_below _ _ _ _ _ _ h
  · exact bitsAt_set_above _ _ _ _ _ _ h

/-- A number of `n` bits stays one. -/
theorem setBitsAt_lt (v lo w x n : Nat) (hv : v < 2 ^ n) (h : lo + w ≤ n) : setBitsAt v lo w x < 2 ^ n := by
  unfold setBitsAt
  obtain ⟨k, rfl⟩ : ∃ k, n = lo + w + k := ⟨n - (lo + w), by omega⟩
  have a : v % 2 ^ lo < 2 ^ lo := Nat.mod_lt _ (by positivity)
  have b : x % 2 ^ w + 1 ≤ 2 ^ w := Nat.mod_lt _ (by positivity)
  have c : v / 2 ^ (lo + w) + 1 ≤ 2 ^ k := by
    have : v / 2 ^ (lo + w) < 2 ^ k := by
      rw [Nat.div_lt_iff_lt_mul (by positivity), ← pow_add]
      rwa [Nat.add_comm k]
    omega
  have d : v % 2 ^ lo + x % 2 ^ w * 2 ^ lo < 2 ^ (lo + w) := by
    calc v % 2 ^ lo + x % 2 ^ w * 2 ^ lo < 2 ^ lo + x % 2 ^ w * 2 ^ lo := by omega
      _ = (x % 2 ^ w + 1) * 2 ^ lo := by ring
      _ ≤ 2 ^ w * 2 ^ lo := Nat.mul_le_mul_right _ b
      _ = 2 ^ (lo + w) := by rw [pow_add]; ring
  calc v % 2 ^ lo + x % 2 ^ w * 2 ^ lo + v / 2 ^ (lo + w) * 2 ^ (lo + w)
      < 2 ^ (lo + w) + v / 2 ^ (lo + w) * 2 ^ (lo + w) := by omega
    _ = (v / 2 ^ (lo + w) + 1) * 2 ^ (lo + w) := by ring
    _ ≤ 2 ^ k * 2 ^ (lo + w) := Nat.mul_le_mul_right _ c
    _ = 2 ^ (lo + w + k) := by rw [pow_add _ (lo + w) k]; ring

theorem bitsAt_lt (v lo w : Nat) : bitsAt v lo w < 2 ^ w := Nat.mod_lt _ (by positivity)

/-- Cutting a number to more bits than a field reaches leaves the field. -/
theorem bitsAt_mod (v lo w n : Nat) (h : lo + w ≤ n) : bitsAt (v % 2 ^ n) lo w = bitsAt v lo w := by
  unfold bitsAt
  obtain ⟨k, rfl⟩ : ∃ k, n = lo + (w + k) := ⟨n - (lo + w), by omega⟩
  rw [pow_add, Nat.mod_mul_right_div_self, pow_add, Nat.mod_mul_right_mod]

@[simp] theorem leBytes_length (n v : Nat) : (leBytes n v).length = n := by
  induction n generalizing v with
  | zero => rfl
  | succ n ih => simp [leBytes, ih]

@[simp] theorem leNat_leBytes (n v : Nat) : leNat (leBytes n v) = v % 256 ^ n := by
  induction n generalizing v with
  | zero => simp [leBytes, leNat, Nat.mod_one]
  | succ n ih =>
    simp only [leBytes, leNat, ih, BitVec.toNat_ofNat]
    rw [show (256 : Nat) ^ (n + 1) = 256 * 256 ^ n by ring, Nat.mod_mul]

theorem leNat_append (a b : Bytes) : leNat (a ++ b) = leNat a + 256 ^ a.length * leNat b := by
  induction a with
  | nil => simp [leNat]
  | cons x r ih =>
    simp only [List.cons_append, leNat, ih, List.length_cons]
    ring

@[simp] theorem leNat_zeros (n : Nat) : leNat (zeros n) = 0 := by
  induction n with
  | zero => rfl
  | succ n ih => simpa [zeros, List.replicate_succ, leNat] using ih

theorem zeros_length (n : Nat) : (zeros n).length = n := by simp [zeros]

/-- A slice within a string is the part itself. -/
theorem slice_mid (a b c : Bytes) : slice (a ++ b ++ c) a.length b.length = b := by
  simp [slice, zeros]

/-- The number at a place within a string. -/
theorem fieldAt_mid (a c : Bytes) (n v : Nat) : fieldAt (a ++ leBytes n v ++ c) a.length n = v % 256 ^ n := by
  have h := slice_mid a (leBytes n v) c
  rw [leBytes_length] at h
  rw [fieldAt, h, leNat_leBytes]

theorem slice_length (b : Bytes) (o n : Nat) : (slice b o n).length = n := by
  simp [slice, zeros]

end Sys2Proof.Machine
end

