-- ==== Sys2Proof/Laws/Store.lean ====
section
/-! SUPPORT. Laws of the sparse tables: what is read after a write, and that every operation keeps the canonical form. -/

namespace Sys2Proof.Machine

variable {α : Type}

@[simp] theorem tabFind_put_same (t : Tab α) (k : Nat) (v : α) : tabFind (tabPut t k v) k = some v := by
  induction t with
  | nil => simp [tabPut, tabFind]
  | cons e r ih =>
    obtain ⟨j, w⟩ := e
    unfold tabPut
    split
    · simp [tabFind]
    · split
      · simp [tabFind]
      · rename_i h _
        simp [tabFind, h, ih]

@[simp] theorem tabFind_put_other (t : Tab α) (k i : Nat) (v : α) (h : k ≠ i) : tabFind (tabPut t k v) i = tabFind t i := by
  induction t with
  | nil => simp [tabPut, tabFind, h]
  | cons e r ih =>
    obtain ⟨j, w⟩ := e
    unfold tabPut
    split
    · rename_i hj
      subst hj
      simp [tabFind, h]
    · split
      · simp [tabFind, h]
      · by_cases hi : j = i
        · simp [tabFind, hi]
        · simp [tabFind, hi, ih]

@[simp] theorem tabFind_del_same (t : Tab α) (k : Nat) : tabFind (tabDel t k) k = none := by
  induction t with
  | nil => rfl
  | cons e r ih =>
    by_cases h : e.1 = k
    · simpa [tabDel, h] using ih
    · simpa [tabDel, h, tabFind] using ih

@[simp] theorem tabFind_del_other (t : Tab α) (k i : Nat) (h : k ≠ i) : tabFind (tabDel t k) i = tabFind t i := by
  induction t with
  | nil => rfl
  | cons e r ih =>
    by_cases hk : e.1 = k
    · have hi : ¬ e.1 = i := by omega
      simpa [tabDel, hk, tabFind, hi, h] using ih
    · by_cases hi : e.1 = i
      · subst hi
        simp [tabDel, hk, tabFind]
      · simpa [tabDel, hk, tabFind, hi] using ih

@[simp] theorem tabGet_put_same (d : α) (t : Tab α) (k : Nat) (v : α) : tabGet d (tabPut t k v) k = v := by simp [tabGet]

@[simp] theorem tabGet_put_other (d : α) (t : Tab α) (k i : Nat) (v : α) (h : k ≠ i) :
    tabGet d (tabPut t k v) i = tabGet d t i := by simp [tabGet, h]

@[simp] theorem tabGet_set_same [DecidableEq α] (d : α) (t : Tab α) (k : Nat) (v : α) : tabGet d (tabSet d t k v) k = v := by
  unfold tabSet
  split
  · rename_i h
    simp [tabGet, h]
  · simp

@[simp] theorem tabGet_set_other [DecidableEq α] (d e : α) (t : Tab α) (k i : Nat) (v : α) (h : k ≠ i) :
    tabGet e (tabSet d t k v) i = tabGet e t i := by
  unfold tabSet
  split <;> simp [tabGet, h]

/-- Keys strictly rising, as Mathlib says it. -/
theorem tabSorted_iff (t : Tab α) : tabSorted t = true ↔ (t.map (·.1)).Pairwise (· < ·) := by
  induction t with
  | nil => simp [tabSorted]
  | cons e r ih =>
    obtain ⟨j, v⟩ := e
    cases r with
    | nil => simp [tabSorted]
    | cons f r =>
      obtain ⟨k, w⟩ := f
      simp only [tabSorted, Bool.and_eq_true, decide_eq_true_eq, ih, List.map_cons, List.pairwise_cons, List.mem_cons,
        List.mem_map]
      constructor
      · rintro ⟨h, h1, h2⟩
        refine ⟨?_, h1, h2⟩
        rintro a (rfl | h3)
        · exact h
        · exact lt_trans h (h1 a h3)
      · rintro ⟨h, h1, h2⟩
        exact ⟨h k (Or.inl rfl), h1, h2⟩

/-- Every key of a table after a put is one of the table's or the new one. -/
theorem mem_put_key (t : Tab α) (k : Nat) (v : α) (e : Nat × α) (h : e ∈ tabPut t k v) : e ∈ t ∨ e = (k, v) := by
  induction t with
  | nil => simpa [tabPut] using h
  | cons f r ih =>
    obtain ⟨j, w⟩ := f
    unfold tabPut at h
    split at h
    · rcases List.mem_cons.1 h with h | h
      · exact Or.inr h
      · exact Or.inl (List.mem_cons_of_mem _ h)
    · split at h
      · rcases List.mem_cons.1 h with h | h
        · exact Or.inr h
        · exact Or.inl h
      · rcases List.mem_cons.1 h with h | h
        · exact Or.inl (h ▸ List.mem_cons_self)
        · rcases ih h with h | h
          · exact Or.inl (List.mem_cons_of_mem _ h)
          · exact Or.inr h

theorem tabSorted_put (t : Tab α) (k : Nat) (v : α) (h : tabSorted t = true) : tabSorted (tabPut t k v) = true := by
  rw [tabSorted_iff] at *
  induction t with
  | nil => simp [tabPut]
  | cons e r ih =>
    obtain ⟨j, w⟩ := e
    simp only [List.map_cons, List.pairwise_cons] at h
    unfold tabPut
    split
    · rename_i hj
      subst hj
      simpa using h
    · split
      · rename_i hj hk
        simp only [List.map_cons, List.pairwise_cons, List.mem_cons]
        refine ⟨?_, h⟩
        rintro a (rfl | ha)
        · exact hk
        · exact lt_trans hk (h.1 a ha)
      · rename_i hj hk
        simp only [List.map_cons, List.pairwise_cons]
        refine ⟨?_, ih h.2⟩
        intro a ha
        obtain ⟨e, he, rfl⟩ := List.mem_map.1 ha
        rcases mem_put_key _ _ _ _ he with he | rfl
        · exact h.1 _ (List.mem_map_of_mem he)
        · show j < k
          omega

theorem tabSorted_del (t : Tab α) (k : Nat) (h : tabSorted t = true) : tabSorted (tabDel t k) = true := by
  rw [tabSorted_iff] at *
  exact List.Pairwise.sublist (List.Sublist.map _ List.filter_sublist) h

theorem tabNoDefault_put [DecidableEq α] (d : Nat → α) (t : Tab α) (k : Nat) (v : α) (h : tabNoDefault d t = true)
    (hv : v ≠ d k) : tabNoDefault d (tabPut t k v) = true := by
  simp only [tabNoDefault, List.all_eq_true, decide_eq_true_eq] at *
  intro e he
  rcases mem_put_key _ _ _ _ he with he | rfl
  · exact h e he
  · exact hv

theorem tabNoDefault_del [DecidableEq α] (d : Nat → α) (t : Tab α) (k : Nat) (h : tabNoDefault d t = true) :
    tabNoDefault d (tabDel t k) = true := by
  simp only [tabNoDefault, List.all_eq_true] at *
  intro e he
  exact h e (List.mem_filter.1 he).1

/-- A write keeps the canonical form: keys rising, nothing listed at what an unlisted key reads as. -/
theorem tabSet_canonical [DecidableEq α] (d : Nat → α) (t : Tab α) (k : Nat) (v : α)
    (h : (tabSorted t && tabNoDefault d t) = true) :
    (tabSorted (tabSet (d k) t k v) && tabNoDefault d (tabSet (d k) t k v)) = true := by
  simp only [Bool.and_eq_true] at *
  unfold tabSet
  split
  · exact ⟨tabSorted_del _ _ h.1, tabNoDefault_del _ _ _ h.2⟩
  · rename_i hv
    exact ⟨tabSorted_put _ _ _ h.1, tabNoDefault_put _ _ _ _ h.2 hv⟩

end Sys2Proof.Machine
end

