-- ==== Sys2Proof/Laws/Memory.lean ====
section
/-! SUPPORT. Laws of the DRAM that tickets address: what is read after a store, and that every operation keeps the canonical form. -/

namespace Sys2Proof.Machine

/-- Writing one byte keeps the canonical form. -/
theorem memWf_write (m : List Host.Cell) (a : Nat) (b : Byte) (h : memWf m = true) : memWf (memWrite m a b) = true :=
  tabSet_canonical (fun _ => 0#8) m a b h

@[simp] theorem memRead_write_same (m : List Host.Cell) (a : Nat) (b : Byte) : memRead (memWrite m a b) a = b := by
  simp [memRead, memWrite]

@[simp] theorem memRead_write_other (m : List Host.Cell) (a c : Nat) (b : Byte) (h : a ≠ c) :
    memRead (memWrite m a b) c = memRead m c := by
  simp [memRead, memWrite, h]

/-- Cells made of bytes lie at the bytes' addresses and hold no zero. -/
theorem memCells_bound (a : Nat) (b : Bytes) : ∀ e ∈ memCells a b, a ≤ e.1 ∧ e.1 < a + b.length ∧ e.2 ≠ 0#8 := by
  induction b generalizing a with
  | nil => simp [memCells]
  | cons x r ih =>
    intro e he
    unfold memCells at he
    split at he
    · have := ih (a + 1) e he
      simp only [List.length_cons]
      exact ⟨by omega, by omega, this.2.2⟩
    · rename_i hx
      rcases List.mem_cons.1 he with rfl | he
      · simp only [List.length_cons]
        exact ⟨le_refl _, by omega, hx⟩
      · have := ih (a + 1) e he
        simp only [List.length_cons]
        exact ⟨by omega, by omega, this.2.2⟩

theorem memCells_sorted (a : Nat) (b : Bytes) : ((memCells a b).map (·.1)).Pairwise (· < ·) := by
  induction b generalizing a with
  | nil => simp [memCells]
  | cons x r ih =>
    unfold memCells
    split
    · exact ih (a + 1)
    · simp only [List.map_cons, List.pairwise_cons]
      refine ⟨?_, ih (a + 1)⟩
      intro k hk
      obtain ⟨e, he, rfl⟩ := List.mem_map.1 hk
      have := memCells_bound (a + 1) r e he
      omega

/-- Storing bytes keeps the canonical form. -/
theorem memWf_writeAll (m : List Host.Cell) (a : Nat) (b : Bytes) (h : memWf m = true) : memWf (memWriteAll m a b) = true := by
  simp only [memWf, Bool.and_eq_true, tabSorted_iff] at *
  obtain ⟨hs, hd⟩ := h
  have hlow : ∀ e ∈ m.takeWhile (fun e => decide (e.1 < a)), e.1 < a := by
    intro e he
    simpa using List.mem_takeWhile_imp he
  have hhigh : ∀ e ∈ m.dropWhile (fun e => decide (e.1 < a + b.length)), a + b.length ≤ e.1 := by
    have sub : ∀ l : List Host.Cell, (l.map (·.1)).Pairwise (· < ·) →
        ∀ e ∈ l.dropWhile (fun e => decide (e.1 < a + b.length)), a + b.length ≤ e.1 := by
      intro l
      induction l with
      | nil => simp
      | cons f r ih =>
        intro hp e he
        simp only [List.map_cons, List.pairwise_cons] at hp
        by_cases hf : f.1 < a + b.length
        · rw [List.dropWhile_cons_of_pos (by simpa using hf)] at he
          exact ih hp.2 e he
        · rw [List.dropWhile_cons_of_neg (by simpa using hf)] at he
          rcases List.mem_cons.1 he with rfl | he
          · omega
          · have := hp.1 e.1 (List.mem_map_of_mem he)
            omega
    exact sub m hs
  constructor
  · unfold memWriteAll
    simp only [List.map_append]
    rw [List.pairwise_append, List.pairwise_append]
    refine ⟨⟨?_, memCells_sorted a b, ?_⟩, ?_, ?_⟩
    · exact List.Pairwise.sublist (List.Sublist.map _ (List.takeWhile_sublist _)) hs
    · intro x hx y hy
      obtain ⟨e, he, rfl⟩ := List.mem_map.1 hx
      obtain ⟨f, hf, rfl⟩ := List.mem_map.1 hy
      have := hlow e he
      have := memCells_bound a b f hf
      omega
    · exact List.Pairwise.sublist (List.Sublist.map _ (List.dropWhile_sublist _)) hs
    · intro x hx y hy
      obtain ⟨f, hf, rfl⟩ := List.mem_map.1 hy
      have h2 := hhigh f hf
      rcases List.mem_append.1 hx with hx | hx
      · obtain ⟨e, he, rfl⟩ := List.mem_map.1 hx
        have := hlow e he
        omega
      · obtain ⟨e, he, rfl⟩ := List.mem_map.1 hx
        have := memCells_bound a b e he
        omega
  · simp only [tabNoDefault, List.all_eq_true, decide_eq_true_eq] at *
    intro e he
    unfold memWriteAll at he
    rcases List.mem_append.1 he with he | he
    · rcases List.mem_append.1 he with he | he
      · exact hd e ((List.takeWhile_sublist _).subset he)
      · exact (memCells_bound a b e he).2.2
    · exact hd e ((List.dropWhile_sublist _).subset he)

/-- Storing bytes in the head's DRAM keeps the canonical form. -/
theorem memWf_memStore (d : Dev) (a : Nat) (b : Bytes) (h : memWf d.dram = true) : memWf (d.memStore a b).dram = true :=
  memWf_writeAll _ _ _ h

end Sys2Proof.Machine
end

