-- ==== Sys2Proof/Laws/Regs.lean ====
section
/-! SUPPORT. Laws of the register store: reading after a write, field by field, and the canonical form. -/

namespace Sys2Proof.Machine

theorem rd_lt (d : Dev) (a : Nat) : d.rd a < 2 ^ 64 := by
  unfold Dev.rd
  exact BitVec.isLt _

@[simp] theorem rd_wr_same (d : Dev) (a v : Nat) : (d.wr a v).rd a = v % 2 ^ 64 := by
  unfold Dev.rd Dev.wr
  simp

@[simp] theorem rd_wr_other (d : Dev) (a b v : Nat) (h : a ≠ b) : (d.wr a v).rd b = d.rd b := by
  unfold Dev.rd Dev.wr
  simp [h]

/-- A field of a register reads as what was written into it, cut to its width. -/
theorem getF_setF_same (d : Dev) (f : Field) (v : Nat) (h : f.lo + f.w ≤ 64) : (d.setF f v).getF f = v % 2 ^ f.w := by
  unfold Dev.getF Dev.setF
  rw [rd_wr_same, bitsAt_mod _ _ _ _ h, bitsAt_set_same]

/-- Two fields that do not meet. -/
def Field.apart (f g : Field) : Prop := f.sa ≠ g.sa ∨ g.lo + g.w ≤ f.lo ∨ f.lo + f.w ≤ g.lo

/-- A field that does not meet the one written keeps its value. -/
theorem getF_setF_other (d : Dev) (f g : Field) (v : Nat) (h : g.lo + g.w ≤ 64) (hd : f.apart g) :
    (d.setF f v).getF g = d.getF g := by
  unfold Dev.getF Dev.setF
  by_cases hs : f.sa = g.sa
  · rw [hs, rd_wr_same, bitsAt_mod _ _ _ _ h]
    rcases hd with hd | hd
    · exact absurd hs hd
    · exact bitsAt_set_other _ _ _ _ _ _ hd
  · rw [rd_wr_other _ _ _ _ hs]

/-- A register other than the field's keeps its value. -/
theorem rd_setF_other (d : Dev) (f : Field) (a v : Nat) (h : f.sa ≠ a) : (d.setF f v).rd a = d.rd a := rd_wr_other _ _ _ _ h

/-- A field of another register than the one written keeps its value. -/
theorem getF_wr_other (d : Dev) (g : Field) (a v : Nat) (h : a ≠ g.sa) : (d.wr a v).getF g = d.getF g := by
  unfold Dev.getF
  rw [rd_wr_other _ _ _ _ h]

theorem getF_lt (d : Dev) (f : Field) : d.getF f < 2 ^ f.w := bitsAt_lt _ _ _

theorem getB_setB_same (d : Dev) (f : Field) (b : Bool) (h : f.lo + f.w ≤ 64) (hw : 1 ≤ f.w) : (d.setB f b).getB f = b := by
  unfold Dev.getB Dev.setB
  rw [getF_setF_same _ _ _ h]
  have : 2 ≤ 2 ^ f.w := by
    calc 2 = 2 ^ 1 := rfl
      _ ≤ 2 ^ f.w := Nat.pow_le_pow_right (by norm_num) hw
  cases b
  · simp [b2n]
  · have h1 : 1 % 2 ^ f.w = 1 := Nat.mod_eq_of_lt (by omega)
    simp [b2n, h1]

/-- A level that is shown reads as the level, cut to the field's width. -/
theorem getF_setIf_same (d : Dev) (f : Field) (v : Nat) (h : f.lo + f.w ≤ 64) : (d.setIf f v).getF f = v % 2 ^ f.w := by
  unfold Dev.setIf
  split
  · rename_i e
    rw [← e, Nat.mod_eq_of_lt (getF_lt d f)]
  · exact getF_setF_same _ _ _ h

theorem getF_setIf_other (d : Dev) (f g : Field) (v : Nat) (h : g.lo + g.w ≤ 64) (hd : f.apart g) :
    (d.setIf f v).getF g = d.getF g := by
  unfold Dev.setIf
  split
  · rfl
  · exact getF_setF_other _ _ _ _ h hd

/-- Showing a level that is shown already changes nothing. -/
theorem setIf_eq (d : Dev) (f : Field) (v : Nat) (h : d.getF f = v) : d.setIf f v = d := by simp [Dev.setIf, h]

/-- A write keeps the register store in its canonical form. -/
theorem regsWf_wr (d : Dev) (a v : Nat) (h : regsWf d.regs = true) : regsWf (d.wr a v).regs = true :=
  tabSet_canonical (fun a => BitVec.ofNat 64 (regReset a)) d.regs a (BitVec.ofNat 64 v) h

theorem regsWf_setF (d : Dev) (f : Field) (v : Nat) (h : regsWf d.regs = true) : regsWf (d.setF f v).regs = true := regsWf_wr _ _ _ h

end Sys2Proof.Machine
end

