-- ==== Sys2Proof/Laws/State.lean ====
section
/-! SUPPORT. What the updates of the head leave alone: one lemma for each part of the head and each update, and what the updated entry of a
table reads as. With them no proof unfolds an update. -/

namespace Sys2Proof.Machine


/-! ### `wr` -/

@[simp] theorem Dev.wr_readLatch (d : Dev) (a v : Nat) : (d.wr a v).readLatch = d.readLatch := rfl
@[simp] theorem Dev.wr_writeLatch (d : Dev) (a v : Nat) : (d.wr a v).writeLatch = d.writeLatch := rfl
@[simp] theorem Dev.wr_dram (d : Dev) (a v : Nat) : (d.wr a v).dram = d.dram := rfl
@[simp] theorem Dev.wr_freeCtr (d : Dev) (a v : Nat) : (d.wr a v).freeCtr = d.freeCtr := rfl
@[simp] theorem Dev.wr_out (d : Dev) (a v : Nat) : (d.wr a v).out = d.out := rfl
@[simp] theorem Dev.wr_evt (d : Dev) (a v : Nat) : (d.wr a v).evt = d.evt := rfl
@[simp] theorem Dev.wr_jtag (d : Dev) (a v : Nat) : (d.wr a v).jtag = d.jtag := rfl
@[simp] theorem Dev.wr_hep (d : Dev) (a v : Nat) : (d.wr a v).hep = d.hep := rfl
@[simp] theorem Dev.wr_img (d : Dev) (a v : Nat) : (d.wr a v).img = d.img := rfl
@[simp] theorem Dev.wr_tray (d : Dev) (a v : Nat) : (d.wr a v).tray = d.tray := rfl
@[simp] theorem Dev.wr_write (d : Dev) (a v : Nat) : (d.wr a v).write = d.write := rfl
@[simp] theorem Dev.wr_read (d : Dev) (a v : Nat) : (d.wr a v).read = d.read := rfl
@[simp] theorem Dev.wr_pan (d : Dev) (a v : Nat) : (d.wr a v).pan = d.pan := rfl
@[simp] theorem Dev.wr_map (d : Dev) (a v : Nat) : (d.wr a v).map = d.map := rfl
@[simp] theorem Dev.wr_med (d : Dev) (a v : Nat) : (d.wr a v).med = d.med := rfl
@[simp] theorem Dev.wr_links (d : Dev) (a v : Nat) : (d.wr a v).links = d.links := rfl
@[simp] theorem Dev.wr_net (d : Dev) (a v : Nat) : (d.wr a v).net = d.net := rfl
@[simp] theorem Dev.wr_nvm (d : Dev) (a v : Nat) : (d.wr a v).nvm = d.nvm := rfl
@[simp] theorem Dev.wr_sec (d : Dev) (a v : Nat) : (d.wr a v).sec = d.sec := rfl
@[simp] theorem Dev.wr_per (d : Dev) (a v : Nat) : (d.wr a v).per = d.per := rfl
@[simp] theorem Dev.wr_hth (d : Dev) (a v : Nat) : (d.wr a v).hth = d.hth := rfl

/-! ### `setF` -/

@[simp] theorem Dev.setF_readLatch (d : Dev) (f : Field) (v : Nat) : (d.setF f v).readLatch = d.readLatch := rfl
@[simp] theorem Dev.setF_writeLatch (d : Dev) (f : Field) (v : Nat) : (d.setF f v).writeLatch = d.writeLatch := rfl
@[simp] theorem Dev.setF_dram (d : Dev) (f : Field) (v : Nat) : (d.setF f v).dram = d.dram := rfl
@[simp] theorem Dev.setF_freeCtr (d : Dev) (f : Field) (v : Nat) : (d.setF f v).freeCtr = d.freeCtr := rfl
@[simp] theorem Dev.setF_out (d : Dev) (f : Field) (v : Nat) : (d.setF f v).out = d.out := rfl
@[simp] theorem Dev.setF_evt (d : Dev) (f : Field) (v : Nat) : (d.setF f v).evt = d.evt := rfl
@[simp] theorem Dev.setF_jtag (d : Dev) (f : Field) (v : Nat) : (d.setF f v).jtag = d.jtag := rfl
@[simp] theorem Dev.setF_hep (d : Dev) (f : Field) (v : Nat) : (d.setF f v).hep = d.hep := rfl
@[simp] theorem Dev.setF_img (d : Dev) (f : Field) (v : Nat) : (d.setF f v).img = d.img := rfl
@[simp] theorem Dev.setF_tray (d : Dev) (f : Field) (v : Nat) : (d.setF f v).tray = d.tray := rfl
@[simp] theorem Dev.setF_write (d : Dev) (f : Field) (v : Nat) : (d.setF f v).write = d.write := rfl
@[simp] theorem Dev.setF_read (d : Dev) (f : Field) (v : Nat) : (d.setF f v).read = d.read := rfl
@[simp] theorem Dev.setF_pan (d : Dev) (f : Field) (v : Nat) : (d.setF f v).pan = d.pan := rfl
@[simp] theorem Dev.setF_map (d : Dev) (f : Field) (v : Nat) : (d.setF f v).map = d.map := rfl
@[simp] theorem Dev.setF_med (d : Dev) (f : Field) (v : Nat) : (d.setF f v).med = d.med := rfl
@[simp] theorem Dev.setF_links (d : Dev) (f : Field) (v : Nat) : (d.setF f v).links = d.links := rfl
@[simp] theorem Dev.setF_net (d : Dev) (f : Field) (v : Nat) : (d.setF f v).net = d.net := rfl
@[simp] theorem Dev.setF_nvm (d : Dev) (f : Field) (v : Nat) : (d.setF f v).nvm = d.nvm := rfl
@[simp] theorem Dev.setF_sec (d : Dev) (f : Field) (v : Nat) : (d.setF f v).sec = d.sec := rfl
@[simp] theorem Dev.setF_per (d : Dev) (f : Field) (v : Nat) : (d.setF f v).per = d.per := rfl
@[simp] theorem Dev.setF_hth (d : Dev) (f : Field) (v : Nat) : (d.setF f v).hth = d.hth := rfl

/-! ### `setB` -/

@[simp] theorem Dev.setB_readLatch (d : Dev) (f : Field) (b : Bool) : (d.setB f b).readLatch = d.readLatch := rfl
@[simp] theorem Dev.setB_writeLatch (d : Dev) (f : Field) (b : Bool) : (d.setB f b).writeLatch = d.writeLatch := rfl
@[simp] theorem Dev.setB_dram (d : Dev) (f : Field) (b : Bool) : (d.setB f b).dram = d.dram := rfl
@[simp] theorem Dev.setB_freeCtr (d : Dev) (f : Field) (b : Bool) : (d.setB f b).freeCtr = d.freeCtr := rfl
@[simp] theorem Dev.setB_out (d : Dev) (f : Field) (b : Bool) : (d.setB f b).out = d.out := rfl
@[simp] theorem Dev.setB_evt (d : Dev) (f : Field) (b : Bool) : (d.setB f b).evt = d.evt := rfl
@[simp] theorem Dev.setB_jtag (d : Dev) (f : Field) (b : Bool) : (d.setB f b).jtag = d.jtag := rfl
@[simp] theorem Dev.setB_hep (d : Dev) (f : Field) (b : Bool) : (d.setB f b).hep = d.hep := rfl
@[simp] theorem Dev.setB_img (d : Dev) (f : Field) (b : Bool) : (d.setB f b).img = d.img := rfl
@[simp] theorem Dev.setB_tray (d : Dev) (f : Field) (b : Bool) : (d.setB f b).tray = d.tray := rfl
@[simp] theorem Dev.setB_write (d : Dev) (f : Field) (b : Bool) : (d.setB f b).write = d.write := rfl
@[simp] theorem Dev.setB_read (d : Dev) (f : Field) (b : Bool) : (d.setB f b).read = d.read := rfl
@[simp] theorem Dev.setB_pan (d : Dev) (f : Field) (b : Bool) : (d.setB f b).pan = d.pan := rfl
@[simp] theorem Dev.setB_map (d : Dev) (f : Field) (b : Bool) : (d.setB f b).map = d.map := rfl
@[simp] theorem Dev.setB_med (d : Dev) (f : Field) (b : Bool) : (d.setB f b).med = d.med := rfl
@[simp] theorem Dev.setB_links (d : Dev) (f : Field) (b : Bool) : (d.setB f b).links = d.links := rfl
@[simp] theorem Dev.setB_net (d : Dev) (f : Field) (b : Bool) : (d.setB f b).net = d.net := rfl
@[simp] theorem Dev.setB_nvm (d : Dev) (f : Field) (b : Bool) : (d.setB f b).nvm = d.nvm := rfl
@[simp] theorem Dev.setB_sec (d : Dev) (f : Field) (b : Bool) : (d.setB f b).sec = d.sec := rfl
@[simp] theorem Dev.setB_per (d : Dev) (f : Field) (b : Bool) : (d.setB f b).per = d.per := rfl
@[simp] theorem Dev.setB_hth (d : Dev) (f : Field) (b : Bool) : (d.setB f b).hth = d.hth := rfl

/-! ### `stat` -/

@[simp] theorem Dev.stat_readLatch (d : Dev) (a n : Nat) : (d.stat a n).readLatch = d.readLatch := rfl
@[simp] theorem Dev.stat_writeLatch (d : Dev) (a n : Nat) : (d.stat a n).writeLatch = d.writeLatch := rfl
@[simp] theorem Dev.stat_dram (d : Dev) (a n : Nat) : (d.stat a n).dram = d.dram := rfl
@[simp] theorem Dev.stat_freeCtr (d : Dev) (a n : Nat) : (d.stat a n).freeCtr = d.freeCtr := rfl
@[simp] theorem Dev.stat_out (d : Dev) (a n : Nat) : (d.stat a n).out = d.out := rfl
@[simp] theorem Dev.stat_evt (d : Dev) (a n : Nat) : (d.stat a n).evt = d.evt := rfl
@[simp] theorem Dev.stat_jtag (d : Dev) (a n : Nat) : (d.stat a n).jtag = d.jtag := rfl
@[simp] theorem Dev.stat_hep (d : Dev) (a n : Nat) : (d.stat a n).hep = d.hep := rfl
@[simp] theorem Dev.stat_img (d : Dev) (a n : Nat) : (d.stat a n).img = d.img := rfl
@[simp] theorem Dev.stat_tray (d : Dev) (a n : Nat) : (d.stat a n).tray = d.tray := rfl
@[simp] theorem Dev.stat_write (d : Dev) (a n : Nat) : (d.stat a n).write = d.write := rfl
@[simp] theorem Dev.stat_read (d : Dev) (a n : Nat) : (d.stat a n).read = d.read := rfl
@[simp] theorem Dev.stat_pan (d : Dev) (a n : Nat) : (d.stat a n).pan = d.pan := rfl
@[simp] theorem Dev.stat_map (d : Dev) (a n : Nat) : (d.stat a n).map = d.map := rfl
@[simp] theorem Dev.stat_med (d : Dev) (a n : Nat) : (d.stat a n).med = d.med := rfl
@[simp] theorem Dev.stat_links (d : Dev) (a n : Nat) : (d.stat a n).links = d.links := rfl
@[simp] theorem Dev.stat_net (d : Dev) (a n : Nat) : (d.stat a n).net = d.net := rfl
@[simp] theorem Dev.stat_nvm (d : Dev) (a n : Nat) : (d.stat a n).nvm = d.nvm := rfl
@[simp] theorem Dev.stat_sec (d : Dev) (a n : Nat) : (d.stat a n).sec = d.sec := rfl
@[simp] theorem Dev.stat_per (d : Dev) (a n : Nat) : (d.stat a n).per = d.per := rfl
@[simp] theorem Dev.stat_hth (d : Dev) (a n : Nat) : (d.stat a n).hth = d.hth := rfl

/-! ### `emit` -/

@[simp] theorem Dev.emit_regs (d : Dev) (o : Out) : (d.emit o).regs = d.regs := rfl
@[simp] theorem Dev.emit_readLatch (d : Dev) (o : Out) : (d.emit o).readLatch = d.readLatch := rfl
@[simp] theorem Dev.emit_writeLatch (d : Dev) (o : Out) : (d.emit o).writeLatch = d.writeLatch := rfl
@[simp] theorem Dev.emit_dram (d : Dev) (o : Out) : (d.emit o).dram = d.dram := rfl
@[simp] theorem Dev.emit_freeCtr (d : Dev) (o : Out) : (d.emit o).freeCtr = d.freeCtr := rfl
@[simp] theorem Dev.emit_evt (d : Dev) (o : Out) : (d.emit o).evt = d.evt := rfl
@[simp] theorem Dev.emit_jtag (d : Dev) (o : Out) : (d.emit o).jtag = d.jtag := rfl
@[simp] theorem Dev.emit_hep (d : Dev) (o : Out) : (d.emit o).hep = d.hep := rfl
@[simp] theorem Dev.emit_img (d : Dev) (o : Out) : (d.emit o).img = d.img := rfl
@[simp] theorem Dev.emit_tray (d : Dev) (o : Out) : (d.emit o).tray = d.tray := rfl
@[simp] theorem Dev.emit_write (d : Dev) (o : Out) : (d.emit o).write = d.write := rfl
@[simp] theorem Dev.emit_read (d : Dev) (o : Out) : (d.emit o).read = d.read := rfl
@[simp] theorem Dev.emit_pan (d : Dev) (o : Out) : (d.emit o).pan = d.pan := rfl
@[simp] theorem Dev.emit_map (d : Dev) (o : Out) : (d.emit o).map = d.map := rfl
@[simp] theorem Dev.emit_med (d : Dev) (o : Out) : (d.emit o).med = d.med := rfl
@[simp] theorem Dev.emit_links (d : Dev) (o : Out) : (d.emit o).links = d.links := rfl
@[simp] theorem Dev.emit_net (d : Dev) (o : Out) : (d.emit o).net = d.net := rfl
@[simp] theorem Dev.emit_nvm (d : Dev) (o : Out) : (d.emit o).nvm = d.nvm := rfl
@[simp] theorem Dev.emit_sec (d : Dev) (o : Out) : (d.emit o).sec = d.sec := rfl
@[simp] theorem Dev.emit_per (d : Dev) (o : Out) : (d.emit o).per = d.per := rfl
@[simp] theorem Dev.emit_hth (d : Dev) (o : Out) : (d.emit o).hth = d.hth := rfl
@[simp] theorem Dev.emit_rd (d : Dev) (o : Out) (x : Nat) : (d.emit o).rd x = d.rd x := rfl
@[simp] theorem Dev.emit_getF (d : Dev) (o : Out) (x : Field) : (d.emit o).getF x = d.getF x := rfl
@[simp] theorem Dev.emit_getB (d : Dev) (o : Out) (x : Field) : (d.emit o).getB x = d.getB x := rfl

/-! ### `memStore` -/

@[simp] theorem Dev.memStore_regs (d : Dev) (a : Nat) (b : Bytes) : (d.memStore a b).regs = d.regs := rfl
@[simp] theorem Dev.memStore_readLatch (d : Dev) (a : Nat) (b : Bytes) : (d.memStore a b).readLatch = d.readLatch := rfl
@[simp] theorem Dev.memStore_writeLatch (d : Dev) (a : Nat) (b : Bytes) : (d.memStore a b).writeLatch = d.writeLatch := rfl
@[simp] theorem Dev.memStore_freeCtr (d : Dev) (a : Nat) (b : Bytes) : (d.memStore a b).freeCtr = d.freeCtr := rfl
@[simp] theorem Dev.memStore_out (d : Dev) (a : Nat) (b : Bytes) : (d.memStore a b).out = d.out := rfl
@[simp] theorem Dev.memStore_evt (d : Dev) (a : Nat) (b : Bytes) : (d.memStore a b).evt = d.evt := rfl
@[simp] theorem Dev.memStore_jtag (d : Dev) (a : Nat) (b : Bytes) : (d.memStore a b).jtag = d.jtag := rfl
@[simp] theorem Dev.memStore_hep (d : Dev) (a : Nat) (b : Bytes) : (d.memStore a b).hep = d.hep := rfl
@[simp] theorem Dev.memStore_img (d : Dev) (a : Nat) (b : Bytes) : (d.memStore a b).img = d.img := rfl
@[simp] theorem Dev.memStore_tray (d : Dev) (a : Nat) (b : Bytes) : (d.memStore a b).tray = d.tray := rfl
@[simp] theorem Dev.memStore_write (d : Dev) (a : Nat) (b : Bytes) : (d.memStore a b).write = d.write := rfl
@[simp] theorem Dev.memStore_read (d : Dev) (a : Nat) (b : Bytes) : (d.memStore a b).read = d.read := rfl
@[simp] theorem Dev.memStore_pan (d : Dev) (a : Nat) (b : Bytes) : (d.memStore a b).pan = d.pan := rfl
@[simp] theorem Dev.memStore_map (d : Dev) (a : Nat) (b : Bytes) : (d.memStore a b).map = d.map := rfl
@[simp] theorem Dev.memStore_med (d : Dev) (a : Nat) (b : Bytes) : (d.memStore a b).med = d.med := rfl
@[simp] theorem Dev.memStore_links (d : Dev) (a : Nat) (b : Bytes) : (d.memStore a b).links = d.links := rfl
@[simp] theorem Dev.memStore_net (d : Dev) (a : Nat) (b : Bytes) : (d.memStore a b).net = d.net := rfl
@[simp] theorem Dev.memStore_nvm (d : Dev) (a : Nat) (b : Bytes) : (d.memStore a b).nvm = d.nvm := rfl
@[simp] theorem Dev.memStore_sec (d : Dev) (a : Nat) (b : Bytes) : (d.memStore a b).sec = d.sec := rfl
@[simp] theorem Dev.memStore_per (d : Dev) (a : Nat) (b : Bytes) : (d.memStore a b).per = d.per := rfl
@[simp] theorem Dev.memStore_hth (d : Dev) (a : Nat) (b : Bytes) : (d.memStore a b).hth = d.hth := rfl
@[simp] theorem Dev.memStore_rd (d : Dev) (a : Nat) (b : Bytes) (x : Nat) : (d.memStore a b).rd x = d.rd x := rfl
@[simp] theorem Dev.memStore_getF (d : Dev) (a : Nat) (b : Bytes) (x : Field) : (d.memStore a b).getF x = d.getF x := rfl
@[simp] theorem Dev.memStore_getB (d : Dev) (a : Nat) (b : Bytes) (x : Field) : (d.memStore a b).getB x = d.getB x := rfl

/-! ### `hostWrite` -/

@[simp] theorem Dev.hostWrite_readLatch (d : Dev) (a : Nat) (b : Bytes) (p : Option Nat) : (d.hostWrite a b p).readLatch = d.readLatch := rfl
@[simp] theorem Dev.hostWrite_writeLatch (d : Dev) (a : Nat) (b : Bytes) (p : Option Nat) : (d.hostWrite a b p).writeLatch = d.writeLatch := rfl
@[simp] theorem Dev.hostWrite_dram (d : Dev) (a : Nat) (b : Bytes) (p : Option Nat) : (d.hostWrite a b p).dram = d.dram := rfl
@[simp] theorem Dev.hostWrite_freeCtr (d : Dev) (a : Nat) (b : Bytes) (p : Option Nat) : (d.hostWrite a b p).freeCtr = d.freeCtr := rfl
@[simp] theorem Dev.hostWrite_evt (d : Dev) (a : Nat) (b : Bytes) (p : Option Nat) : (d.hostWrite a b p).evt = d.evt := rfl
@[simp] theorem Dev.hostWrite_jtag (d : Dev) (a : Nat) (b : Bytes) (p : Option Nat) : (d.hostWrite a b p).jtag = d.jtag := rfl
@[simp] theorem Dev.hostWrite_hep (d : Dev) (a : Nat) (b : Bytes) (p : Option Nat) : (d.hostWrite a b p).hep = d.hep := rfl
@[simp] theorem Dev.hostWrite_img (d : Dev) (a : Nat) (b : Bytes) (p : Option Nat) : (d.hostWrite a b p).img = d.img := rfl
@[simp] theorem Dev.hostWrite_tray (d : Dev) (a : Nat) (b : Bytes) (p : Option Nat) : (d.hostWrite a b p).tray = d.tray := rfl
@[simp] theorem Dev.hostWrite_write (d : Dev) (a : Nat) (b : Bytes) (p : Option Nat) : (d.hostWrite a b p).write = d.write := rfl
@[simp] theorem Dev.hostWrite_read (d : Dev) (a : Nat) (b : Bytes) (p : Option Nat) : (d.hostWrite a b p).read = d.read := rfl
@[simp] theorem Dev.hostWrite_pan (d : Dev) (a : Nat) (b : Bytes) (p : Option Nat) : (d.hostWrite a b p).pan = d.pan := rfl
@[simp] theorem Dev.hostWrite_map (d : Dev) (a : Nat) (b : Bytes) (p : Option Nat) : (d.hostWrite a b p).map = d.map := rfl
@[simp] theorem Dev.hostWrite_med (d : Dev) (a : Nat) (b : Bytes) (p : Option Nat) : (d.hostWrite a b p).med = d.med := rfl
@[simp] theorem Dev.hostWrite_links (d : Dev) (a : Nat) (b : Bytes) (p : Option Nat) : (d.hostWrite a b p).links = d.links := rfl
@[simp] theorem Dev.hostWrite_net (d : Dev) (a : Nat) (b : Bytes) (p : Option Nat) : (d.hostWrite a b p).net = d.net := rfl
@[simp] theorem Dev.hostWrite_nvm (d : Dev) (a : Nat) (b : Bytes) (p : Option Nat) : (d.hostWrite a b p).nvm = d.nvm := rfl
@[simp] theorem Dev.hostWrite_sec (d : Dev) (a : Nat) (b : Bytes) (p : Option Nat) : (d.hostWrite a b p).sec = d.sec := rfl
@[simp] theorem Dev.hostWrite_per (d : Dev) (a : Nat) (b : Bytes) (p : Option Nat) : (d.hostWrite a b p).per = d.per := rfl
@[simp] theorem Dev.hostWrite_hth (d : Dev) (a : Nat) (b : Bytes) (p : Option Nat) : (d.hostWrite a b p).hth = d.hth := rfl

/-! ### `modLink` -/

@[simp] theorem Dev.modLink_regs (d : Dev) (m : Nat) (f : Link → Link) : (d.modLink m f).regs = d.regs := rfl
@[simp] theorem Dev.modLink_readLatch (d : Dev) (m : Nat) (f : Link → Link) : (d.modLink m f).readLatch = d.readLatch := rfl
@[simp] theorem Dev.modLink_writeLatch (d : Dev) (m : Nat) (f : Link → Link) : (d.modLink m f).writeLatch = d.writeLatch := rfl
@[simp] theorem Dev.modLink_dram (d : Dev) (m : Nat) (f : Link → Link) : (d.modLink m f).dram = d.dram := rfl
@[simp] theorem Dev.modLink_freeCtr (d : Dev) (m : Nat) (f : Link → Link) : (d.modLink m f).freeCtr = d.freeCtr := rfl
@[simp] theorem Dev.modLink_out (d : Dev) (m : Nat) (f : Link → Link) : (d.modLink m f).out = d.out := rfl
@[simp] theorem Dev.modLink_evt (d : Dev) (m : Nat) (f : Link → Link) : (d.modLink m f).evt = d.evt := rfl
@[simp] theorem Dev.modLink_jtag (d : Dev) (m : Nat) (f : Link → Link) : (d.modLink m f).jtag = d.jtag := rfl
@[simp] theorem Dev.modLink_hep (d : Dev) (m : Nat) (f : Link → Link) : (d.modLink m f).hep = d.hep := rfl
@[simp] theorem Dev.modLink_img (d : Dev) (m : Nat) (f : Link → Link) : (d.modLink m f).img = d.img := rfl
@[simp] theorem Dev.modLink_tray (d : Dev) (m : Nat) (f : Link → Link) : (d.modLink m f).tray = d.tray := rfl
@[simp] theorem Dev.modLink_write (d : Dev) (m : Nat) (f : Link → Link) : (d.modLink m f).write = d.write := rfl
@[simp] theorem Dev.modLink_read (d : Dev) (m : Nat) (f : Link → Link) : (d.modLink m f).read = d.read := rfl
@[simp] theorem Dev.modLink_pan (d : Dev) (m : Nat) (f : Link → Link) : (d.modLink m f).pan = d.pan := rfl
@[simp] theorem Dev.modLink_map (d : Dev) (m : Nat) (f : Link → Link) : (d.modLink m f).map = d.map := rfl
@[simp] theorem Dev.modLink_med (d : Dev) (m : Nat) (f : Link → Link) : (d.modLink m f).med = d.med := rfl
@[simp] theorem Dev.modLink_net (d : Dev) (m : Nat) (f : Link → Link) : (d.modLink m f).net = d.net := rfl
@[simp] theorem Dev.modLink_nvm (d : Dev) (m : Nat) (f : Link → Link) : (d.modLink m f).nvm = d.nvm := rfl
@[simp] theorem Dev.modLink_sec (d : Dev) (m : Nat) (f : Link → Link) : (d.modLink m f).sec = d.sec := rfl
@[simp] theorem Dev.modLink_per (d : Dev) (m : Nat) (f : Link → Link) : (d.modLink m f).per = d.per := rfl
@[simp] theorem Dev.modLink_hth (d : Dev) (m : Nat) (f : Link → Link) : (d.modLink m f).hth = d.hth := rfl
@[simp] theorem Dev.modLink_rd (d : Dev) (m : Nat) (f : Link → Link) (x : Nat) : (d.modLink m f).rd x = d.rd x := rfl
@[simp] theorem Dev.modLink_getF (d : Dev) (m : Nat) (f : Link → Link) (x : Field) : (d.modLink m f).getF x = d.getF x := rfl
@[simp] theorem Dev.modLink_getB (d : Dev) (m : Nat) (f : Link → Link) (x : Field) : (d.modLink m f).getB x = d.getB x := rfl

/-! ### `modPort` -/

@[simp] theorem Dev.modPort_regs (d : Dev) (p : Nat) (f : Port → Port) : (d.modPort p f).regs = d.regs := rfl
@[simp] theorem Dev.modPort_readLatch (d : Dev) (p : Nat) (f : Port → Port) : (d.modPort p f).readLatch = d.readLatch := rfl
@[simp] theorem Dev.modPort_writeLatch (d : Dev) (p : Nat) (f : Port → Port) : (d.modPort p f).writeLatch = d.writeLatch := rfl
@[simp] theorem Dev.modPort_dram (d : Dev) (p : Nat) (f : Port → Port) : (d.modPort p f).dram = d.dram := rfl
@[simp] theorem Dev.modPort_freeCtr (d : Dev) (p : Nat) (f : Port → Port) : (d.modPort p f).freeCtr = d.freeCtr := rfl
@[simp] theorem Dev.modPort_out (d : Dev) (p : Nat) (f : Port → Port) : (d.modPort p f).out = d.out := rfl
@[simp] theorem Dev.modPort_evt (d : Dev) (p : Nat) (f : Port → Port) : (d.modPort p f).evt = d.evt := rfl
@[simp] theorem Dev.modPort_jtag (d : Dev) (p : Nat) (f : Port → Port) : (d.modPort p f).jtag = d.jtag := rfl
@[simp] theorem Dev.modPort_hep (d : Dev) (p : Nat) (f : Port → Port) : (d.modPort p f).hep = d.hep := rfl
@[simp] theorem Dev.modPort_img (d : Dev) (p : Nat) (f : Port → Port) : (d.modPort p f).img = d.img := rfl
@[simp] theorem Dev.modPort_tray (d : Dev) (p : Nat) (f : Port → Port) : (d.modPort p f).tray = d.tray := rfl
@[simp] theorem Dev.modPort_write (d : Dev) (p : Nat) (f : Port → Port) : (d.modPort p f).write = d.write := rfl
@[simp] theorem Dev.modPort_read (d : Dev) (p : Nat) (f : Port → Port) : (d.modPort p f).read = d.read := rfl
@[simp] theorem Dev.modPort_pan (d : Dev) (p : Nat) (f : Port → Port) : (d.modPort p f).pan = d.pan := rfl
@[simp] theorem Dev.modPort_map (d : Dev) (p : Nat) (f : Port → Port) : (d.modPort p f).map = d.map := rfl
@[simp] theorem Dev.modPort_med (d : Dev) (p : Nat) (f : Port → Port) : (d.modPort p f).med = d.med := rfl
@[simp] theorem Dev.modPort_links (d : Dev) (p : Nat) (f : Port → Port) : (d.modPort p f).links = d.links := rfl
@[simp] theorem Dev.modPort_nvm (d : Dev) (p : Nat) (f : Port → Port) : (d.modPort p f).nvm = d.nvm := rfl
@[simp] theorem Dev.modPort_sec (d : Dev) (p : Nat) (f : Port → Port) : (d.modPort p f).sec = d.sec := rfl
@[simp] theorem Dev.modPort_per (d : Dev) (p : Nat) (f : Port → Port) : (d.modPort p f).per = d.per := rfl
@[simp] theorem Dev.modPort_hth (d : Dev) (p : Nat) (f : Port → Port) : (d.modPort p f).hth = d.hth := rfl
@[simp] theorem Dev.modPort_rd (d : Dev) (p : Nat) (f : Port → Port) (x : Nat) : (d.modPort p f).rd x = d.rd x := rfl
@[simp] theorem Dev.modPort_getF (d : Dev) (p : Nat) (f : Port → Port) (x : Field) : (d.modPort p f).getF x = d.getF x := rfl
@[simp] theorem Dev.modPort_getB (d : Dev) (p : Nat) (f : Port → Port) (x : Field) : (d.modPort p f).getB x = d.getB x := rfl

/-! ### `modQp` -/

@[simp] theorem Dev.modQp_regs (d : Dev) (n : Nat) (f : Qp → Qp) : (d.modQp n f).regs = d.regs := rfl
@[simp] theorem Dev.modQp_readLatch (d : Dev) (n : Nat) (f : Qp → Qp) : (d.modQp n f).readLatch = d.readLatch := rfl
@[simp] theorem Dev.modQp_writeLatch (d : Dev) (n : Nat) (f : Qp → Qp) : (d.modQp n f).writeLatch = d.writeLatch := rfl
@[simp] theorem Dev.modQp_dram (d : Dev) (n : Nat) (f : Qp → Qp) : (d.modQp n f).dram = d.dram := rfl
@[simp] theorem Dev.modQp_freeCtr (d : Dev) (n : Nat) (f : Qp → Qp) : (d.modQp n f).freeCtr = d.freeCtr := rfl
@[simp] theorem Dev.modQp_out (d : Dev) (n : Nat) (f : Qp → Qp) : (d.modQp n f).out = d.out := rfl
@[simp] theorem Dev.modQp_evt (d : Dev) (n : Nat) (f : Qp → Qp) : (d.modQp n f).evt = d.evt := rfl
@[simp] theorem Dev.modQp_jtag (d : Dev) (n : Nat) (f : Qp → Qp) : (d.modQp n f).jtag = d.jtag := rfl
@[simp] theorem Dev.modQp_hep (d : Dev) (n : Nat) (f : Qp → Qp) : (d.modQp n f).hep = d.hep := rfl
@[simp] theorem Dev.modQp_img (d : Dev) (n : Nat) (f : Qp → Qp) : (d.modQp n f).img = d.img := rfl
@[simp] theorem Dev.modQp_tray (d : Dev) (n : Nat) (f : Qp → Qp) : (d.modQp n f).tray = d.tray := rfl
@[simp] theorem Dev.modQp_write (d : Dev) (n : Nat) (f : Qp → Qp) : (d.modQp n f).write = d.write := rfl
@[simp] theorem Dev.modQp_read (d : Dev) (n : Nat) (f : Qp → Qp) : (d.modQp n f).read = d.read := rfl
@[simp] theorem Dev.modQp_pan (d : Dev) (n : Nat) (f : Qp → Qp) : (d.modQp n f).pan = d.pan := rfl
@[simp] theorem Dev.modQp_map (d : Dev) (n : Nat) (f : Qp → Qp) : (d.modQp n f).map = d.map := rfl
@[simp] theorem Dev.modQp_med (d : Dev) (n : Nat) (f : Qp → Qp) : (d.modQp n f).med = d.med := rfl
@[simp] theorem Dev.modQp_links (d : Dev) (n : Nat) (f : Qp → Qp) : (d.modQp n f).links = d.links := rfl
@[simp] theorem Dev.modQp_nvm (d : Dev) (n : Nat) (f : Qp → Qp) : (d.modQp n f).nvm = d.nvm := rfl
@[simp] theorem Dev.modQp_sec (d : Dev) (n : Nat) (f : Qp → Qp) : (d.modQp n f).sec = d.sec := rfl
@[simp] theorem Dev.modQp_per (d : Dev) (n : Nat) (f : Qp → Qp) : (d.modQp n f).per = d.per := rfl
@[simp] theorem Dev.modQp_hth (d : Dev) (n : Nat) (f : Qp → Qp) : (d.modQp n f).hth = d.hth := rfl
@[simp] theorem Dev.modQp_rd (d : Dev) (n : Nat) (f : Qp → Qp) (x : Nat) : (d.modQp n f).rd x = d.rd x := rfl
@[simp] theorem Dev.modQp_getF (d : Dev) (n : Nat) (f : Qp → Qp) (x : Field) : (d.modQp n f).getF x = d.getF x := rfl
@[simp] theorem Dev.modQp_getB (d : Dev) (n : Nat) (f : Qp → Qp) (x : Field) : (d.modQp n f).getB x = d.getB x := rfl

/-! ### `modModule` -/

@[simp] theorem Dev.modModule_regs (d : Dev) (m : Nat) (f : Module → Module) : (d.modModule m f).regs = d.regs := rfl
@[simp] theorem Dev.modModule_readLatch (d : Dev) (m : Nat) (f : Module → Module) : (d.modModule m f).readLatch = d.readLatch := rfl
@[simp] theorem Dev.modModule_writeLatch (d : Dev) (m : Nat) (f : Module → Module) : (d.modModule m f).writeLatch = d.writeLatch := rfl
@[simp] theorem Dev.modModule_dram (d : Dev) (m : Nat) (f : Module → Module) : (d.modModule m f).dram = d.dram := rfl
@[simp] theorem Dev.modModule_freeCtr (d : Dev) (m : Nat) (f : Module → Module) : (d.modModule m f).freeCtr = d.freeCtr := rfl
@[simp] theorem Dev.modModule_out (d : Dev) (m : Nat) (f : Module → Module) : (d.modModule m f).out = d.out := rfl
@[simp] theorem Dev.modModule_evt (d : Dev) (m : Nat) (f : Module → Module) : (d.modModule m f).evt = d.evt := rfl
@[simp] theorem Dev.modModule_jtag (d : Dev) (m : Nat) (f : Module → Module) : (d.modModule m f).jtag = d.jtag := rfl
@[simp] theorem Dev.modModule_hep (d : Dev) (m : Nat) (f : Module → Module) : (d.modModule m f).hep = d.hep := rfl
@[simp] theorem Dev.modModule_img (d : Dev) (m : Nat) (f : Module → Module) : (d.modModule m f).img = d.img := rfl
@[simp] theorem Dev.modModule_tray (d : Dev) (m : Nat) (f : Module → Module) : (d.modModule m f).tray = d.tray := rfl
@[simp] theorem Dev.modModule_write (d : Dev) (m : Nat) (f : Module → Module) : (d.modModule m f).write = d.write := rfl
@[simp] theorem Dev.modModule_read (d : Dev) (m : Nat) (f : Module → Module) : (d.modModule m f).read = d.read := rfl
@[simp] theorem Dev.modModule_pan (d : Dev) (m : Nat) (f : Module → Module) : (d.modModule m f).pan = d.pan := rfl
@[simp] theorem Dev.modModule_map (d : Dev) (m : Nat) (f : Module → Module) : (d.modModule m f).map = d.map := rfl
@[simp] theorem Dev.modModule_links (d : Dev) (m : Nat) (f : Module → Module) : (d.modModule m f).links = d.links := rfl
@[simp] theorem Dev.modModule_net (d : Dev) (m : Nat) (f : Module → Module) : (d.modModule m f).net = d.net := rfl
@[simp] theorem Dev.modModule_nvm (d : Dev) (m : Nat) (f : Module → Module) : (d.modModule m f).nvm = d.nvm := rfl
@[simp] theorem Dev.modModule_sec (d : Dev) (m : Nat) (f : Module → Module) : (d.modModule m f).sec = d.sec := rfl
@[simp] theorem Dev.modModule_per (d : Dev) (m : Nat) (f : Module → Module) : (d.modModule m f).per = d.per := rfl
@[simp] theorem Dev.modModule_hth (d : Dev) (m : Nat) (f : Module → Module) : (d.modModule m f).hth = d.hth := rfl
@[simp] theorem Dev.modModule_rd (d : Dev) (m : Nat) (f : Module → Module) (x : Nat) : (d.modModule m f).rd x = d.rd x := rfl
@[simp] theorem Dev.modModule_getF (d : Dev) (m : Nat) (f : Module → Module) (x : Field) : (d.modModule m f).getF x = d.getF x := rfl
@[simp] theorem Dev.modModule_getB (d : Dev) (m : Nat) (f : Module → Module) (x : Field) : (d.modModule m f).getB x = d.getB x := rfl

/-! ### `modBlock` -/

@[simp] theorem Dev.modBlock_regs (d : Dev) (k : Nat) (f : EBlock → EBlock) : (d.modBlock k f).regs = d.regs := rfl
@[simp] theorem Dev.modBlock_readLatch (d : Dev) (k : Nat) (f : EBlock → EBlock) : (d.modBlock k f).readLatch = d.readLatch := rfl
@[simp] theorem Dev.modBlock_writeLatch (d : Dev) (k : Nat) (f : EBlock → EBlock) : (d.modBlock k f).writeLatch = d.writeLatch := rfl
@[simp] theorem Dev.modBlock_dram (d : Dev) (k : Nat) (f : EBlock → EBlock) : (d.modBlock k f).dram = d.dram := rfl
@[simp] theorem Dev.modBlock_freeCtr (d : Dev) (k : Nat) (f : EBlock → EBlock) : (d.modBlock k f).freeCtr = d.freeCtr := rfl
@[simp] theorem Dev.modBlock_out (d : Dev) (k : Nat) (f : EBlock → EBlock) : (d.modBlock k f).out = d.out := rfl
@[simp] theorem Dev.modBlock_evt (d : Dev) (k : Nat) (f : EBlock → EBlock) : (d.modBlock k f).evt = d.evt := rfl
@[simp] theorem Dev.modBlock_jtag (d : Dev) (k : Nat) (f : EBlock → EBlock) : (d.modBlock k f).jtag = d.jtag := rfl
@[simp] theorem Dev.modBlock_hep (d : Dev) (k : Nat) (f : EBlock → EBlock) : (d.modBlock k f).hep = d.hep := rfl
@[simp] theorem Dev.modBlock_img (d : Dev) (k : Nat) (f : EBlock → EBlock) : (d.modBlock k f).img = d.img := rfl
@[simp] theorem Dev.modBlock_tray (d : Dev) (k : Nat) (f : EBlock → EBlock) : (d.modBlock k f).tray = d.tray := rfl
@[simp] theorem Dev.modBlock_write (d : Dev) (k : Nat) (f : EBlock → EBlock) : (d.modBlock k f).write = d.write := rfl
@[simp] theorem Dev.modBlock_read (d : Dev) (k : Nat) (f : EBlock → EBlock) : (d.modBlock k f).read = d.read := rfl
@[simp] theorem Dev.modBlock_pan (d : Dev) (k : Nat) (f : EBlock → EBlock) : (d.modBlock k f).pan = d.pan := rfl
@[simp] theorem Dev.modBlock_map (d : Dev) (k : Nat) (f : EBlock → EBlock) : (d.modBlock k f).map = d.map := rfl
@[simp] theorem Dev.modBlock_links (d : Dev) (k : Nat) (f : EBlock → EBlock) : (d.modBlock k f).links = d.links := rfl
@[simp] theorem Dev.modBlock_net (d : Dev) (k : Nat) (f : EBlock → EBlock) : (d.modBlock k f).net = d.net := rfl
@[simp] theorem Dev.modBlock_nvm (d : Dev) (k : Nat) (f : EBlock → EBlock) : (d.modBlock k f).nvm = d.nvm := rfl
@[simp] theorem Dev.modBlock_sec (d : Dev) (k : Nat) (f : EBlock → EBlock) : (d.modBlock k f).sec = d.sec := rfl
@[simp] theorem Dev.modBlock_per (d : Dev) (k : Nat) (f : EBlock → EBlock) : (d.modBlock k f).per = d.per := rfl
@[simp] theorem Dev.modBlock_hth (d : Dev) (k : Nat) (f : EBlock → EBlock) : (d.modBlock k f).hth = d.hth := rfl
@[simp] theorem Dev.modBlock_rd (d : Dev) (k : Nat) (f : EBlock → EBlock) (x : Nat) : (d.modBlock k f).rd x = d.rd x := rfl
@[simp] theorem Dev.modBlock_getF (d : Dev) (k : Nat) (f : EBlock → EBlock) (x : Field) : (d.modBlock k f).getF x = d.getF x := rfl
@[simp] theorem Dev.modBlock_getB (d : Dev) (k : Nat) (f : EBlock → EBlock) (x : Field) : (d.modBlock k f).getB x = d.getB x := rfl

/-! ### `modGrp` -/

@[simp] theorem Dev.modGrp_regs (d : Dev) (j : Nat) (f : Grp → Grp) : (d.modGrp j f).regs = d.regs := rfl
@[simp] theorem Dev.modGrp_readLatch (d : Dev) (j : Nat) (f : Grp → Grp) : (d.modGrp j f).readLatch = d.readLatch := rfl
@[simp] theorem Dev.modGrp_writeLatch (d : Dev) (j : Nat) (f : Grp → Grp) : (d.modGrp j f).writeLatch = d.writeLatch := rfl
@[simp] theorem Dev.modGrp_dram (d : Dev) (j : Nat) (f : Grp → Grp) : (d.modGrp j f).dram = d.dram := rfl
@[simp] theorem Dev.modGrp_freeCtr (d : Dev) (j : Nat) (f : Grp → Grp) : (d.modGrp j f).freeCtr = d.freeCtr := rfl
@[simp] theorem Dev.modGrp_out (d : Dev) (j : Nat) (f : Grp → Grp) : (d.modGrp j f).out = d.out := rfl
@[simp] theorem Dev.modGrp_evt (d : Dev) (j : Nat) (f : Grp → Grp) : (d.modGrp j f).evt = d.evt := rfl
@[simp] theorem Dev.modGrp_jtag (d : Dev) (j : Nat) (f : Grp → Grp) : (d.modGrp j f).jtag = d.jtag := rfl
@[simp] theorem Dev.modGrp_hep (d : Dev) (j : Nat) (f : Grp → Grp) : (d.modGrp j f).hep = d.hep := rfl
@[simp] theorem Dev.modGrp_img (d : Dev) (j : Nat) (f : Grp → Grp) : (d.modGrp j f).img = d.img := rfl
@[simp] theorem Dev.modGrp_tray (d : Dev) (j : Nat) (f : Grp → Grp) : (d.modGrp j f).tray = d.tray := rfl
@[simp] theorem Dev.modGrp_read (d : Dev) (j : Nat) (f : Grp → Grp) : (d.modGrp j f).read = d.read := rfl
@[simp] theorem Dev.modGrp_pan (d : Dev) (j : Nat) (f : Grp → Grp) : (d.modGrp j f).pan = d.pan := rfl
@[simp] theorem Dev.modGrp_map (d : Dev) (j : Nat) (f : Grp → Grp) : (d.modGrp j f).map = d.map := rfl
@[simp] theorem Dev.modGrp_med (d : Dev) (j : Nat) (f : Grp → Grp) : (d.modGrp j f).med = d.med := rfl
@[simp] theorem Dev.modGrp_links (d : Dev) (j : Nat) (f : Grp → Grp) : (d.modGrp j f).links = d.links := rfl
@[simp] theorem Dev.modGrp_net (d : Dev) (j : Nat) (f : Grp → Grp) : (d.modGrp j f).net = d.net := rfl
@[simp] theorem Dev.modGrp_nvm (d : Dev) (j : Nat) (f : Grp → Grp) : (d.modGrp j f).nvm = d.nvm := rfl
@[simp] theorem Dev.modGrp_sec (d : Dev) (j : Nat) (f : Grp → Grp) : (d.modGrp j f).sec = d.sec := rfl
@[simp] theorem Dev.modGrp_per (d : Dev) (j : Nat) (f : Grp → Grp) : (d.modGrp j f).per = d.per := rfl
@[simp] theorem Dev.modGrp_hth (d : Dev) (j : Nat) (f : Grp → Grp) : (d.modGrp j f).hth = d.hth := rfl
@[simp] theorem Dev.modGrp_rd (d : Dev) (j : Nat) (f : Grp → Grp) (x : Nat) : (d.modGrp j f).rd x = d.rd x := rfl
@[simp] theorem Dev.modGrp_getF (d : Dev) (j : Nat) (f : Grp → Grp) (x : Field) : (d.modGrp j f).getF x = d.getF x := rfl
@[simp] theorem Dev.modGrp_getB (d : Dev) (j : Nat) (f : Grp → Grp) (x : Field) : (d.modGrp j f).getB x = d.getB x := rfl

/-! ### `modStage` -/

@[simp] theorem Dev.modStage_regs (d : Dev) (p : Nat) (f : StagePage → StagePage) : (d.modStage p f).regs = d.regs := rfl
@[simp] theorem Dev.modStage_readLatch (d : Dev) (p : Nat) (f : StagePage → StagePage) : (d.modStage p f).readLatch = d.readLatch := rfl
@[simp] theorem Dev.modStage_writeLatch (d : Dev) (p : Nat) (f : StagePage → StagePage) : (d.modStage p f).writeLatch = d.writeLatch := rfl
@[simp] theorem Dev.modStage_dram (d : Dev) (p : Nat) (f : StagePage → StagePage) : (d.modStage p f).dram = d.dram := rfl
@[simp] theorem Dev.modStage_freeCtr (d : Dev) (p : Nat) (f : StagePage → StagePage) : (d.modStage p f).freeCtr = d.freeCtr := rfl
@[simp] theorem Dev.modStage_out (d : Dev) (p : Nat) (f : StagePage → StagePage) : (d.modStage p f).out = d.out := rfl
@[simp] theorem Dev.modStage_evt (d : Dev) (p : Nat) (f : StagePage → StagePage) : (d.modStage p f).evt = d.evt := rfl
@[simp] theorem Dev.modStage_jtag (d : Dev) (p : Nat) (f : StagePage → StagePage) : (d.modStage p f).jtag = d.jtag := rfl
@[simp] theorem Dev.modStage_hep (d : Dev) (p : Nat) (f : StagePage → StagePage) : (d.modStage p f).hep = d.hep := rfl
@[simp] theorem Dev.modStage_img (d : Dev) (p : Nat) (f : StagePage → StagePage) : (d.modStage p f).img = d.img := rfl
@[simp] theorem Dev.modStage_tray (d : Dev) (p : Nat) (f : StagePage → StagePage) : (d.modStage p f).tray = d.tray := rfl
@[simp] theorem Dev.modStage_read (d : Dev) (p : Nat) (f : StagePage → StagePage) : (d.modStage p f).read = d.read := rfl
@[simp] theorem Dev.modStage_pan (d : Dev) (p : Nat) (f : StagePage → StagePage) : (d.modStage p f).pan = d.pan := rfl
@[simp] theorem Dev.modStage_map (d : Dev) (p : Nat) (f : StagePage → StagePage) : (d.modStage p f).map = d.map := rfl
@[simp] theorem Dev.modStage_med (d : Dev) (p : Nat) (f : StagePage → StagePage) : (d.modStage p f).med = d.med := rfl
@[simp] theorem Dev.modStage_links (d : Dev) (p : Nat) (f : StagePage → StagePage) : (d.modStage p f).links = d.links := rfl
@[simp] theorem Dev.modStage_net (d : Dev) (p : Nat) (f : StagePage → StagePage) : (d.modStage p f).net = d.net := rfl
@[simp] theorem Dev.modStage_nvm (d : Dev) (p : Nat) (f : StagePage → StagePage) : (d.modStage p f).nvm = d.nvm := rfl
@[simp] theorem Dev.modStage_sec (d : Dev) (p : Nat) (f : StagePage → StagePage) : (d.modStage p f).sec = d.sec := rfl
@[simp] theorem Dev.modStage_per (d : Dev) (p : Nat) (f : StagePage → StagePage) : (d.modStage p f).per = d.per := rfl
@[simp] theorem Dev.modStage_hth (d : Dev) (p : Nat) (f : StagePage → StagePage) : (d.modStage p f).hth = d.hth := rfl
@[simp] theorem Dev.modStage_rd (d : Dev) (p : Nat) (f : StagePage → StagePage) (x : Nat) : (d.modStage p f).rd x = d.rd x := rfl
@[simp] theorem Dev.modStage_getF (d : Dev) (p : Nat) (f : StagePage → StagePage) (x : Field) : (d.modStage p f).getF x = d.getF x := rfl
@[simp] theorem Dev.modStage_getB (d : Dev) (p : Nat) (f : StagePage → StagePage) (x : Field) : (d.modStage p f).getB x = d.getB x := rfl

/-! ### `modW` -/

@[simp] theorem Dev.modW_regs (d : Dev) (i : Nat) (f : WCmd → WCmd) : (d.modW i f).regs = d.regs := rfl
@[simp] theorem Dev.modW_readLatch (d : Dev) (i : Nat) (f : WCmd → WCmd) : (d.modW i f).readLatch = d.readLatch := rfl
@[simp] theorem Dev.modW_writeLatch (d : Dev) (i : Nat) (f : WCmd → WCmd) : (d.modW i f).writeLatch = d.writeLatch := rfl
@[simp] theorem Dev.modW_dram (d : Dev) (i : Nat) (f : WCmd → WCmd) : (d.modW i f).dram = d.dram := rfl
@[simp] theorem Dev.modW_freeCtr (d : Dev) (i : Nat) (f : WCmd → WCmd) : (d.modW i f).freeCtr = d.freeCtr := rfl
@[simp] theorem Dev.modW_out (d : Dev) (i : Nat) (f : WCmd → WCmd) : (d.modW i f).out = d.out := rfl
@[simp] theorem Dev.modW_evt (d : Dev) (i : Nat) (f : WCmd → WCmd) : (d.modW i f).evt = d.evt := rfl
@[simp] theorem Dev.modW_jtag (d : Dev) (i : Nat) (f : WCmd → WCmd) : (d.modW i f).jtag = d.jtag := rfl
@[simp] theorem Dev.modW_hep (d : Dev) (i : Nat) (f : WCmd → WCmd) : (d.modW i f).hep = d.hep := rfl
@[simp] theorem Dev.modW_img (d : Dev) (i : Nat) (f : WCmd → WCmd) : (d.modW i f).img = d.img := rfl
@[simp] theorem Dev.modW_tray (d : Dev) (i : Nat) (f : WCmd → WCmd) : (d.modW i f).tray = d.tray := rfl
@[simp] theorem Dev.modW_read (d : Dev) (i : Nat) (f : WCmd → WCmd) : (d.modW i f).read = d.read := rfl
@[simp] theorem Dev.modW_pan (d : Dev) (i : Nat) (f : WCmd → WCmd) : (d.modW i f).pan = d.pan := rfl
@[simp] theorem Dev.modW_map (d : Dev) (i : Nat) (f : WCmd → WCmd) : (d.modW i f).map = d.map := rfl
@[simp] theorem Dev.modW_med (d : Dev) (i : Nat) (f : WCmd → WCmd) : (d.modW i f).med = d.med := rfl
@[simp] theorem Dev.modW_links (d : Dev) (i : Nat) (f : WCmd → WCmd) : (d.modW i f).links = d.links := rfl
@[simp] theorem Dev.modW_net (d : Dev) (i : Nat) (f : WCmd → WCmd) : (d.modW i f).net = d.net := rfl
@[simp] theorem Dev.modW_nvm (d : Dev) (i : Nat) (f : WCmd → WCmd) : (d.modW i f).nvm = d.nvm := rfl
@[simp] theorem Dev.modW_sec (d : Dev) (i : Nat) (f : WCmd → WCmd) : (d.modW i f).sec = d.sec := rfl
@[simp] theorem Dev.modW_per (d : Dev) (i : Nat) (f : WCmd → WCmd) : (d.modW i f).per = d.per := rfl
@[simp] theorem Dev.modW_hth (d : Dev) (i : Nat) (f : WCmd → WCmd) : (d.modW i f).hth = d.hth := rfl
@[simp] theorem Dev.modW_rd (d : Dev) (i : Nat) (f : WCmd → WCmd) (x : Nat) : (d.modW i f).rd x = d.rd x := rfl
@[simp] theorem Dev.modW_getF (d : Dev) (i : Nat) (f : WCmd → WCmd) (x : Field) : (d.modW i f).getF x = d.getF x := rfl
@[simp] theorem Dev.modW_getB (d : Dev) (i : Nat) (f : WCmd → WCmd) (x : Field) : (d.modW i f).getB x = d.getB x := rfl

/-! ### `modRd` -/

@[simp] theorem Dev.modRd_regs (d : Dev) (i : Nat) (f : RCmd → RCmd) : (d.modRd i f).regs = d.regs := rfl
@[simp] theorem Dev.modRd_readLatch (d : Dev) (i : Nat) (f : RCmd → RCmd) : (d.modRd i f).readLatch = d.readLatch := rfl
@[simp] theorem Dev.modRd_writeLatch (d : Dev) (i : Nat) (f : RCmd → RCmd) : (d.modRd i f).writeLatch = d.writeLatch := rfl
@[simp] theorem Dev.modRd_dram (d : Dev) (i : Nat) (f : RCmd → RCmd) : (d.modRd i f).dram = d.dram := rfl
@[simp] theorem Dev.modRd_freeCtr (d : Dev) (i : Nat) (f : RCmd → RCmd) : (d.modRd i f).freeCtr = d.freeCtr := rfl
@[simp] theorem Dev.modRd_out (d : Dev) (i : Nat) (f : RCmd → RCmd) : (d.modRd i f).out = d.out := rfl
@[simp] theorem Dev.modRd_evt (d : Dev) (i : Nat) (f : RCmd → RCmd) : (d.modRd i f).evt = d.evt := rfl
@[simp] theorem Dev.modRd_jtag (d : Dev) (i : Nat) (f : RCmd → RCmd) : (d.modRd i f).jtag = d.jtag := rfl
@[simp] theorem Dev.modRd_hep (d : Dev) (i : Nat) (f : RCmd → RCmd) : (d.modRd i f).hep = d.hep := rfl
@[simp] theorem Dev.modRd_img (d : Dev) (i : Nat) (f : RCmd → RCmd) : (d.modRd i f).img = d.img := rfl
@[simp] theorem Dev.modRd_tray (d : Dev) (i : Nat) (f : RCmd → RCmd) : (d.modRd i f).tray = d.tray := rfl
@[simp] theorem Dev.modRd_write (d : Dev) (i : Nat) (f : RCmd → RCmd) : (d.modRd i f).write = d.write := rfl
@[simp] theorem Dev.modRd_pan (d : Dev) (i : Nat) (f : RCmd → RCmd) : (d.modRd i f).pan = d.pan := rfl
@[simp] theorem Dev.modRd_map (d : Dev) (i : Nat) (f : RCmd → RCmd) : (d.modRd i f).map = d.map := rfl
@[simp] theorem Dev.modRd_med (d : Dev) (i : Nat) (f : RCmd → RCmd) : (d.modRd i f).med = d.med := rfl
@[simp] theorem Dev.modRd_links (d : Dev) (i : Nat) (f : RCmd → RCmd) : (d.modRd i f).links = d.links := rfl
@[simp] theorem Dev.modRd_net (d : Dev) (i : Nat) (f : RCmd → RCmd) : (d.modRd i f).net = d.net := rfl
@[simp] theorem Dev.modRd_nvm (d : Dev) (i : Nat) (f : RCmd → RCmd) : (d.modRd i f).nvm = d.nvm := rfl
@[simp] theorem Dev.modRd_sec (d : Dev) (i : Nat) (f : RCmd → RCmd) : (d.modRd i f).sec = d.sec := rfl
@[simp] theorem Dev.modRd_per (d : Dev) (i : Nat) (f : RCmd → RCmd) : (d.modRd i f).per = d.per := rfl
@[simp] theorem Dev.modRd_hth (d : Dev) (i : Nat) (f : RCmd → RCmd) : (d.modRd i f).hth = d.hth := rfl
@[simp] theorem Dev.modRd_rd (d : Dev) (i : Nat) (f : RCmd → RCmd) (x : Nat) : (d.modRd i f).rd x = d.rd x := rfl
@[simp] theorem Dev.modRd_getF (d : Dev) (i : Nat) (f : RCmd → RCmd) (x : Field) : (d.modRd i f).getF x = d.getF x := rfl
@[simp] theorem Dev.modRd_getB (d : Dev) (i : Nat) (f : RCmd → RCmd) (x : Field) : (d.modRd i f).getB x = d.getB x := rfl

/-! ### `modSlice` -/

@[simp] theorem Dev.modSlice_regs (d : Dev) (s : Nat) (f : Slice → Slice) : (d.modSlice s f).regs = d.regs := rfl
@[simp] theorem Dev.modSlice_readLatch (d : Dev) (s : Nat) (f : Slice → Slice) : (d.modSlice s f).readLatch = d.readLatch := rfl
@[simp] theorem Dev.modSlice_writeLatch (d : Dev) (s : Nat) (f : Slice → Slice) : (d.modSlice s f).writeLatch = d.writeLatch := rfl
@[simp] theorem Dev.modSlice_dram (d : Dev) (s : Nat) (f : Slice → Slice) : (d.modSlice s f).dram = d.dram := rfl
@[simp] theorem Dev.modSlice_freeCtr (d : Dev) (s : Nat) (f : Slice → Slice) : (d.modSlice s f).freeCtr = d.freeCtr := rfl
@[simp] theorem Dev.modSlice_out (d : Dev) (s : Nat) (f : Slice → Slice) : (d.modSlice s f).out = d.out := rfl
@[simp] theorem Dev.modSlice_evt (d : Dev) (s : Nat) (f : Slice → Slice) : (d.modSlice s f).evt = d.evt := rfl
@[simp] theorem Dev.modSlice_jtag (d : Dev) (s : Nat) (f : Slice → Slice) : (d.modSlice s f).jtag = d.jtag := rfl
@[simp] theorem Dev.modSlice_hep (d : Dev) (s : Nat) (f : Slice → Slice) : (d.modSlice s f).hep = d.hep := rfl
@[simp] theorem Dev.modSlice_img (d : Dev) (s : Nat) (f : Slice → Slice) : (d.modSlice s f).img = d.img := rfl
@[simp] theorem Dev.modSlice_tray (d : Dev) (s : Nat) (f : Slice → Slice) : (d.modSlice s f).tray = d.tray := rfl
@[simp] theorem Dev.modSlice_write (d : Dev) (s : Nat) (f : Slice → Slice) : (d.modSlice s f).write = d.write := rfl
@[simp] theorem Dev.modSlice_read (d : Dev) (s : Nat) (f : Slice → Slice) : (d.modSlice s f).read = d.read := rfl
@[simp] theorem Dev.modSlice_pan (d : Dev) (s : Nat) (f : Slice → Slice) : (d.modSlice s f).pan = d.pan := rfl
@[simp] theorem Dev.modSlice_map (d : Dev) (s : Nat) (f : Slice → Slice) : (d.modSlice s f).map = d.map := rfl
@[simp] theorem Dev.modSlice_med (d : Dev) (s : Nat) (f : Slice → Slice) : (d.modSlice s f).med = d.med := rfl
@[simp] theorem Dev.modSlice_links (d : Dev) (s : Nat) (f : Slice → Slice) : (d.modSlice s f).links = d.links := rfl
@[simp] theorem Dev.modSlice_net (d : Dev) (s : Nat) (f : Slice → Slice) : (d.modSlice s f).net = d.net := rfl
@[simp] theorem Dev.modSlice_sec (d : Dev) (s : Nat) (f : Slice → Slice) : (d.modSlice s f).sec = d.sec := rfl
@[simp] theorem Dev.modSlice_per (d : Dev) (s : Nat) (f : Slice → Slice) : (d.modSlice s f).per = d.per := rfl
@[simp] theorem Dev.modSlice_hth (d : Dev) (s : Nat) (f : Slice → Slice) : (d.modSlice s f).hth = d.hth := rfl
@[simp] theorem Dev.modSlice_rd (d : Dev) (s : Nat) (f : Slice → Slice) (x : Nat) : (d.modSlice s f).rd x = d.rd x := rfl
@[simp] theorem Dev.modSlice_getF (d : Dev) (s : Nat) (f : Slice → Slice) (x : Field) : (d.modSlice s f).getF x = d.getF x := rfl
@[simp] theorem Dev.modSlice_getB (d : Dev) (s : Nat) (f : Slice → Slice) (x : Field) : (d.modSlice s f).getB x = d.getB x := rfl

/-! ### `modN` -/

@[simp] theorem Dev.modN_regs (d : Dev) (i : Nat) (f : NCmd → NCmd) : (d.modN i f).regs = d.regs := rfl
@[simp] theorem Dev.modN_readLatch (d : Dev) (i : Nat) (f : NCmd → NCmd) : (d.modN i f).readLatch = d.readLatch := rfl
@[simp] theorem Dev.modN_writeLatch (d : Dev) (i : Nat) (f : NCmd → NCmd) : (d.modN i f).writeLatch = d.writeLatch := rfl
@[simp] theorem Dev.modN_dram (d : Dev) (i : Nat) (f : NCmd → NCmd) : (d.modN i f).dram = d.dram := rfl
@[simp] theorem Dev.modN_freeCtr (d : Dev) (i : Nat) (f : NCmd → NCmd) : (d.modN i f).freeCtr = d.freeCtr := rfl
@[simp] theorem Dev.modN_out (d : Dev) (i : Nat) (f : NCmd → NCmd) : (d.modN i f).out = d.out := rfl
@[simp] theorem Dev.modN_evt (d : Dev) (i : Nat) (f : NCmd → NCmd) : (d.modN i f).evt = d.evt := rfl
@[simp] theorem Dev.modN_jtag (d : Dev) (i : Nat) (f : NCmd → NCmd) : (d.modN i f).jtag = d.jtag := rfl
@[simp] theorem Dev.modN_hep (d : Dev) (i : Nat) (f : NCmd → NCmd) : (d.modN i f).hep = d.hep := rfl
@[simp] theorem Dev.modN_img (d : Dev) (i : Nat) (f : NCmd → NCmd) : (d.modN i f).img = d.img := rfl
@[simp] theorem Dev.modN_tray (d : Dev) (i : Nat) (f : NCmd → NCmd) : (d.modN i f).tray = d.tray := rfl
@[simp] theorem Dev.modN_write (d : Dev) (i : Nat) (f : NCmd → NCmd) : (d.modN i f).write = d.write := rfl
@[simp] theorem Dev.modN_read (d : Dev) (i : Nat) (f : NCmd → NCmd) : (d.modN i f).read = d.read := rfl
@[simp] theorem Dev.modN_pan (d : Dev) (i : Nat) (f : NCmd → NCmd) : (d.modN i f).pan = d.pan := rfl
@[simp] theorem Dev.modN_map (d : Dev) (i : Nat) (f : NCmd → NCmd) : (d.modN i f).map = d.map := rfl
@[simp] theorem Dev.modN_med (d : Dev) (i : Nat) (f : NCmd → NCmd) : (d.modN i f).med = d.med := rfl
@[simp] theorem Dev.modN_links (d : Dev) (i : Nat) (f : NCmd → NCmd) : (d.modN i f).links = d.links := rfl
@[simp] theorem Dev.modN_net (d : Dev) (i : Nat) (f : NCmd → NCmd) : (d.modN i f).net = d.net := rfl
@[simp] theorem Dev.modN_sec (d : Dev) (i : Nat) (f : NCmd → NCmd) : (d.modN i f).sec = d.sec := rfl
@[simp] theorem Dev.modN_per (d : Dev) (i : Nat) (f : NCmd → NCmd) : (d.modN i f).per = d.per := rfl
@[simp] theorem Dev.modN_hth (d : Dev) (i : Nat) (f : NCmd → NCmd) : (d.modN i f).hth = d.hth := rfl
@[simp] theorem Dev.modN_rd (d : Dev) (i : Nat) (f : NCmd → NCmd) (x : Nat) : (d.modN i f).rd x = d.rd x := rfl
@[simp] theorem Dev.modN_getF (d : Dev) (i : Nat) (f : NCmd → NCmd) (x : Field) : (d.modN i f).getF x = d.getF x := rfl
@[simp] theorem Dev.modN_getB (d : Dev) (i : Nat) (f : NCmd → NCmd) (x : Field) : (d.modN i f).getB x = d.getB x := rfl

/-! ### `modInst` -/

@[simp] theorem Dev.modInst_regs (d : Dev) (i : Nat) (f : Inst → Inst) : (d.modInst i f).regs = d.regs := rfl
@[simp] theorem Dev.modInst_readLatch (d : Dev) (i : Nat) (f : Inst → Inst) : (d.modInst i f).readLatch = d.readLatch := rfl
@[simp] theorem Dev.modInst_writeLatch (d : Dev) (i : Nat) (f : Inst → Inst) : (d.modInst i f).writeLatch = d.writeLatch := rfl
@[simp] theorem Dev.modInst_dram (d : Dev) (i : Nat) (f : Inst → Inst) : (d.modInst i f).dram = d.dram := rfl
@[simp] theorem Dev.modInst_freeCtr (d : Dev) (i : Nat) (f : Inst → Inst) : (d.modInst i f).freeCtr = d.freeCtr := rfl
@[simp] theorem Dev.modInst_out (d : Dev) (i : Nat) (f : Inst → Inst) : (d.modInst i f).out = d.out := rfl
@[simp] theorem Dev.modInst_evt (d : Dev) (i : Nat) (f : Inst → Inst) : (d.modInst i f).evt = d.evt := rfl
@[simp] theorem Dev.modInst_jtag (d : Dev) (i : Nat) (f : Inst → Inst) : (d.modInst i f).jtag = d.jtag := rfl
@[simp] theorem Dev.modInst_hep (d : Dev) (i : Nat) (f : Inst → Inst) : (d.modInst i f).hep = d.hep := rfl
@[simp] theorem Dev.modInst_img (d : Dev) (i : Nat) (f : Inst → Inst) : (d.modInst i f).img = d.img := rfl
@[simp] theorem Dev.modInst_tray (d : Dev) (i : Nat) (f : Inst → Inst) : (d.modInst i f).tray = d.tray := rfl
@[simp] theorem Dev.modInst_write (d : Dev) (i : Nat) (f : Inst → Inst) : (d.modInst i f).write = d.write := rfl
@[simp] theorem Dev.modInst_read (d : Dev) (i : Nat) (f : Inst → Inst) : (d.modInst i f).read = d.read := rfl
@[simp] theorem Dev.modInst_pan (d : Dev) (i : Nat) (f : Inst → Inst) : (d.modInst i f).pan = d.pan := rfl
@[simp] theorem Dev.modInst_map (d : Dev) (i : Nat) (f : Inst → Inst) : (d.modInst i f).map = d.map := rfl
@[simp] theorem Dev.modInst_med (d : Dev) (i : Nat) (f : Inst → Inst) : (d.modInst i f).med = d.med := rfl
@[simp] theorem Dev.modInst_links (d : Dev) (i : Nat) (f : Inst → Inst) : (d.modInst i f).links = d.links := rfl
@[simp] theorem Dev.modInst_net (d : Dev) (i : Nat) (f : Inst → Inst) : (d.modInst i f).net = d.net := rfl
@[simp] theorem Dev.modInst_sec (d : Dev) (i : Nat) (f : Inst → Inst) : (d.modInst i f).sec = d.sec := rfl
@[simp] theorem Dev.modInst_per (d : Dev) (i : Nat) (f : Inst → Inst) : (d.modInst i f).per = d.per := rfl
@[simp] theorem Dev.modInst_hth (d : Dev) (i : Nat) (f : Inst → Inst) : (d.modInst i f).hth = d.hth := rfl
@[simp] theorem Dev.modInst_rd (d : Dev) (i : Nat) (f : Inst → Inst) (x : Nat) : (d.modInst i f).rd x = d.rd x := rfl
@[simp] theorem Dev.modInst_getF (d : Dev) (i : Nat) (f : Inst → Inst) (x : Field) : (d.modInst i f).getF x = d.getF x := rfl
@[simp] theorem Dev.modInst_getB (d : Dev) (i : Nat) (f : Inst → Inst) (x : Field) : (d.modInst i f).getB x = d.getB x := rfl

/-! ### `modCipher` -/

@[simp] theorem Dev.modCipher_regs (d : Dev) (n : Nat) (f : CipherCtx → CipherCtx) : (d.modCipher n f).regs = d.regs := rfl
@[simp] theorem Dev.modCipher_readLatch (d : Dev) (n : Nat) (f : CipherCtx → CipherCtx) : (d.modCipher n f).readLatch = d.readLatch := rfl
@[simp] theorem Dev.modCipher_writeLatch (d : Dev) (n : Nat) (f : CipherCtx → CipherCtx) : (d.modCipher n f).writeLatch = d.writeLatch := rfl
@[simp] theorem Dev.modCipher_dram (d : Dev) (n : Nat) (f : CipherCtx → CipherCtx) : (d.modCipher n f).dram = d.dram := rfl
@[simp] theorem Dev.modCipher_freeCtr (d : Dev) (n : Nat) (f : CipherCtx → CipherCtx) : (d.modCipher n f).freeCtr = d.freeCtr := rfl
@[simp] theorem Dev.modCipher_out (d : Dev) (n : Nat) (f : CipherCtx → CipherCtx) : (d.modCipher n f).out = d.out := rfl
@[simp] theorem Dev.modCipher_evt (d : Dev) (n : Nat) (f : CipherCtx → CipherCtx) : (d.modCipher n f).evt = d.evt := rfl
@[simp] theorem Dev.modCipher_jtag (d : Dev) (n : Nat) (f : CipherCtx → CipherCtx) : (d.modCipher n f).jtag = d.jtag := rfl
@[simp] theorem Dev.modCipher_hep (d : Dev) (n : Nat) (f : CipherCtx → CipherCtx) : (d.modCipher n f).hep = d.hep := rfl
@[simp] theorem Dev.modCipher_img (d : Dev) (n : Nat) (f : CipherCtx → CipherCtx) : (d.modCipher n f).img = d.img := rfl
@[simp] theorem Dev.modCipher_tray (d : Dev) (n : Nat) (f : CipherCtx → CipherCtx) : (d.modCipher n f).tray = d.tray := rfl
@[simp] theorem Dev.modCipher_write (d : Dev) (n : Nat) (f : CipherCtx → CipherCtx) : (d.modCipher n f).write = d.write := rfl
@[simp] theorem Dev.modCipher_read (d : Dev) (n : Nat) (f : CipherCtx → CipherCtx) : (d.modCipher n f).read = d.read := rfl
@[simp] theorem Dev.modCipher_pan (d : Dev) (n : Nat) (f : CipherCtx → CipherCtx) : (d.modCipher n f).pan = d.pan := rfl
@[simp] theorem Dev.modCipher_map (d : Dev) (n : Nat) (f : CipherCtx → CipherCtx) : (d.modCipher n f).map = d.map := rfl
@[simp] theorem Dev.modCipher_med (d : Dev) (n : Nat) (f : CipherCtx → CipherCtx) : (d.modCipher n f).med = d.med := rfl
@[simp] theorem Dev.modCipher_links (d : Dev) (n : Nat) (f : CipherCtx → CipherCtx) : (d.modCipher n f).links = d.links := rfl
@[simp] theorem Dev.modCipher_net (d : Dev) (n : Nat) (f : CipherCtx → CipherCtx) : (d.modCipher n f).net = d.net := rfl
@[simp] theorem Dev.modCipher_nvm (d : Dev) (n : Nat) (f : CipherCtx → CipherCtx) : (d.modCipher n f).nvm = d.nvm := rfl
@[simp] theorem Dev.modCipher_per (d : Dev) (n : Nat) (f : CipherCtx → CipherCtx) : (d.modCipher n f).per = d.per := rfl
@[simp] theorem Dev.modCipher_hth (d : Dev) (n : Nat) (f : CipherCtx → CipherCtx) : (d.modCipher n f).hth = d.hth := rfl
@[simp] theorem Dev.modCipher_rd (d : Dev) (n : Nat) (f : CipherCtx → CipherCtx) (x : Nat) : (d.modCipher n f).rd x = d.rd x := rfl
@[simp] theorem Dev.modCipher_getF (d : Dev) (n : Nat) (f : CipherCtx → CipherCtx) (x : Field) : (d.modCipher n f).getF x = d.getF x := rfl
@[simp] theorem Dev.modCipher_getB (d : Dev) (n : Nat) (f : CipherCtx → CipherCtx) (x : Field) : (d.modCipher n f).getB x = d.getB x := rfl

/-! ### `modDigest` -/

@[simp] theorem Dev.modDigest_regs (d : Dev) (n : Nat) (f : DigestCtx → DigestCtx) : (d.modDigest n f).regs = d.regs := rfl
@[simp] theorem Dev.modDigest_readLatch (d : Dev) (n : Nat) (f : DigestCtx → DigestCtx) : (d.modDigest n f).readLatch = d.readLatch := rfl
@[simp] theorem Dev.modDigest_writeLatch (d : Dev) (n : Nat) (f : DigestCtx → DigestCtx) : (d.modDigest n f).writeLatch = d.writeLatch := rfl
@[simp] theorem Dev.modDigest_dram (d : Dev) (n : Nat) (f : DigestCtx → DigestCtx) : (d.modDigest n f).dram = d.dram := rfl
@[simp] theorem Dev.modDigest_freeCtr (d : Dev) (n : Nat) (f : DigestCtx → DigestCtx) : (d.modDigest n f).freeCtr = d.freeCtr := rfl
@[simp] theorem Dev.modDigest_out (d : Dev) (n : Nat) (f : DigestCtx → DigestCtx) : (d.modDigest n f).out = d.out := rfl
@[simp] theorem Dev.modDigest_evt (d : Dev) (n : Nat) (f : DigestCtx → DigestCtx) : (d.modDigest n f).evt = d.evt := rfl
@[simp] theorem Dev.modDigest_jtag (d : Dev) (n : Nat) (f : DigestCtx → DigestCtx) : (d.modDigest n f).jtag = d.jtag := rfl
@[simp] theorem Dev.modDigest_hep (d : Dev) (n : Nat) (f : DigestCtx → DigestCtx) : (d.modDigest n f).hep = d.hep := rfl
@[simp] theorem Dev.modDigest_img (d : Dev) (n : Nat) (f : DigestCtx → DigestCtx) : (d.modDigest n f).img = d.img := rfl
@[simp] theorem Dev.modDigest_tray (d : Dev) (n : Nat) (f : DigestCtx → DigestCtx) : (d.modDigest n f).tray = d.tray := rfl
@[simp] theorem Dev.modDigest_write (d : Dev) (n : Nat) (f : DigestCtx → DigestCtx) : (d.modDigest n f).write = d.write := rfl
@[simp] theorem Dev.modDigest_read (d : Dev) (n : Nat) (f : DigestCtx → DigestCtx) : (d.modDigest n f).read = d.read := rfl
@[simp] theorem Dev.modDigest_pan (d : Dev) (n : Nat) (f : DigestCtx → DigestCtx) : (d.modDigest n f).pan = d.pan := rfl
@[simp] theorem Dev.modDigest_map (d : Dev) (n : Nat) (f : DigestCtx → DigestCtx) : (d.modDigest n f).map = d.map := rfl
@[simp] theorem Dev.modDigest_med (d : Dev) (n : Nat) (f : DigestCtx → DigestCtx) : (d.modDigest n f).med = d.med := rfl
@[simp] theorem Dev.modDigest_links (d : Dev) (n : Nat) (f : DigestCtx → DigestCtx) : (d.modDigest n f).links = d.links := rfl
@[simp] theorem Dev.modDigest_net (d : Dev) (n : Nat) (f : DigestCtx → DigestCtx) : (d.modDigest n f).net = d.net := rfl
@[simp] theorem Dev.modDigest_nvm (d : Dev) (n : Nat) (f : DigestCtx → DigestCtx) : (d.modDigest n f).nvm = d.nvm := rfl
@[simp] theorem Dev.modDigest_per (d : Dev) (n : Nat) (f : DigestCtx → DigestCtx) : (d.modDigest n f).per = d.per := rfl
@[simp] theorem Dev.modDigest_hth (d : Dev) (n : Nat) (f : DigestCtx → DigestCtx) : (d.modDigest n f).hth = d.hth := rfl
@[simp] theorem Dev.modDigest_rd (d : Dev) (n : Nat) (f : DigestCtx → DigestCtx) (x : Nat) : (d.modDigest n f).rd x = d.rd x := rfl
@[simp] theorem Dev.modDigest_getF (d : Dev) (n : Nat) (f : DigestCtx → DigestCtx) (x : Field) : (d.modDigest n f).getF x = d.getF x := rfl
@[simp] theorem Dev.modDigest_getB (d : Dev) (n : Nat) (f : DigestCtx → DigestCtx) (x : Field) : (d.modDigest n f).getB x = d.getB x := rfl

/-! ### `modTray` -/

@[simp] theorem Dev.modTray_regs (d : Dev) (t : Nat) (f : TrayX → TrayX) : (d.modTray t f).regs = d.regs := rfl
@[simp] theorem Dev.modTray_readLatch (d : Dev) (t : Nat) (f : TrayX → TrayX) : (d.modTray t f).readLatch = d.readLatch := rfl
@[simp] theorem Dev.modTray_writeLatch (d : Dev) (t : Nat) (f : TrayX → TrayX) : (d.modTray t f).writeLatch = d.writeLatch := rfl
@[simp] theorem Dev.modTray_dram (d : Dev) (t : Nat) (f : TrayX → TrayX) : (d.modTray t f).dram = d.dram := rfl
@[simp] theorem Dev.modTray_freeCtr (d : Dev) (t : Nat) (f : TrayX → TrayX) : (d.modTray t f).freeCtr = d.freeCtr := rfl
@[simp] theorem Dev.modTray_out (d : Dev) (t : Nat) (f : TrayX → TrayX) : (d.modTray t f).out = d.out := rfl
@[simp] theorem Dev.modTray_evt (d : Dev) (t : Nat) (f : TrayX → TrayX) : (d.modTray t f).evt = d.evt := rfl
@[simp] theorem Dev.modTray_jtag (d : Dev) (t : Nat) (f : TrayX → TrayX) : (d.modTray t f).jtag = d.jtag := rfl
@[simp] theorem Dev.modTray_hep (d : Dev) (t : Nat) (f : TrayX → TrayX) : (d.modTray t f).hep = d.hep := rfl
@[simp] theorem Dev.modTray_img (d : Dev) (t : Nat) (f : TrayX → TrayX) : (d.modTray t f).img = d.img := rfl
@[simp] theorem Dev.modTray_write (d : Dev) (t : Nat) (f : TrayX → TrayX) : (d.modTray t f).write = d.write := rfl
@[simp] theorem Dev.modTray_read (d : Dev) (t : Nat) (f : TrayX → TrayX) : (d.modTray t f).read = d.read := rfl
@[simp] theorem Dev.modTray_pan (d : Dev) (t : Nat) (f : TrayX → TrayX) : (d.modTray t f).pan = d.pan := rfl
@[simp] theorem Dev.modTray_map (d : Dev) (t : Nat) (f : TrayX → TrayX) : (d.modTray t f).map = d.map := rfl
@[simp] theorem Dev.modTray_med (d : Dev) (t : Nat) (f : TrayX → TrayX) : (d.modTray t f).med = d.med := rfl
@[simp] theorem Dev.modTray_links (d : Dev) (t : Nat) (f : TrayX → TrayX) : (d.modTray t f).links = d.links := rfl
@[simp] theorem Dev.modTray_net (d : Dev) (t : Nat) (f : TrayX → TrayX) : (d.modTray t f).net = d.net := rfl
@[simp] theorem Dev.modTray_nvm (d : Dev) (t : Nat) (f : TrayX → TrayX) : (d.modTray t f).nvm = d.nvm := rfl
@[simp] theorem Dev.modTray_sec (d : Dev) (t : Nat) (f : TrayX → TrayX) : (d.modTray t f).sec = d.sec := rfl
@[simp] theorem Dev.modTray_per (d : Dev) (t : Nat) (f : TrayX → TrayX) : (d.modTray t f).per = d.per := rfl
@[simp] theorem Dev.modTray_hth (d : Dev) (t : Nat) (f : TrayX → TrayX) : (d.modTray t f).hth = d.hth := rfl
@[simp] theorem Dev.modTray_rd (d : Dev) (t : Nat) (f : TrayX → TrayX) (x : Nat) : (d.modTray t f).rd x = d.rd x := rfl
@[simp] theorem Dev.modTray_getF (d : Dev) (t : Nat) (f : TrayX → TrayX) (x : Field) : (d.modTray t f).getF x = d.getF x := rfl
@[simp] theorem Dev.modTray_getB (d : Dev) (t : Nat) (f : TrayX → TrayX) (x : Field) : (d.modTray t f).getB x = d.getB x := rfl

/-! ### `modRoll` -/

@[simp] theorem Dev.modRoll_regs (d : Dev) (t r : Nat) (f : RollX → RollX) : (d.modRoll t r f).regs = d.regs := rfl
@[simp] theorem Dev.modRoll_readLatch (d : Dev) (t r : Nat) (f : RollX → RollX) : (d.modRoll t r f).readLatch = d.readLatch := rfl
@[simp] theorem Dev.modRoll_writeLatch (d : Dev) (t r : Nat) (f : RollX → RollX) : (d.modRoll t r f).writeLatch = d.writeLatch := rfl
@[simp] theorem Dev.modRoll_dram (d : Dev) (t r : Nat) (f : RollX → RollX) : (d.modRoll t r f).dram = d.dram := rfl
@[simp] theorem Dev.modRoll_freeCtr (d : Dev) (t r : Nat) (f : RollX → RollX) : (d.modRoll t r f).freeCtr = d.freeCtr := rfl
@[simp] theorem Dev.modRoll_out (d : Dev) (t r : Nat) (f : RollX → RollX) : (d.modRoll t r f).out = d.out := rfl
@[simp] theorem Dev.modRoll_evt (d : Dev) (t r : Nat) (f : RollX → RollX) : (d.modRoll t r f).evt = d.evt := rfl
@[simp] theorem Dev.modRoll_jtag (d : Dev) (t r : Nat) (f : RollX → RollX) : (d.modRoll t r f).jtag = d.jtag := rfl
@[simp] theorem Dev.modRoll_hep (d : Dev) (t r : Nat) (f : RollX → RollX) : (d.modRoll t r f).hep = d.hep := rfl
@[simp] theorem Dev.modRoll_img (d : Dev) (t r : Nat) (f : RollX → RollX) : (d.modRoll t r f).img = d.img := rfl
@[simp] theorem Dev.modRoll_write (d : Dev) (t r : Nat) (f : RollX → RollX) : (d.modRoll t r f).write = d.write := rfl
@[simp] theorem Dev.modRoll_read (d : Dev) (t r : Nat) (f : RollX → RollX) : (d.modRoll t r f).read = d.read := rfl
@[simp] theorem Dev.modRoll_pan (d : Dev) (t r : Nat) (f : RollX → RollX) : (d.modRoll t r f).pan = d.pan := rfl
@[simp] theorem Dev.modRoll_map (d : Dev) (t r : Nat) (f : RollX → RollX) : (d.modRoll t r f).map = d.map := rfl
@[simp] theorem Dev.modRoll_med (d : Dev) (t r : Nat) (f : RollX → RollX) : (d.modRoll t r f).med = d.med := rfl
@[simp] theorem Dev.modRoll_links (d : Dev) (t r : Nat) (f : RollX → RollX) : (d.modRoll t r f).links = d.links := rfl
@[simp] theorem Dev.modRoll_net (d : Dev) (t r : Nat) (f : RollX → RollX) : (d.modRoll t r f).net = d.net := rfl
@[simp] theorem Dev.modRoll_nvm (d : Dev) (t r : Nat) (f : RollX → RollX) : (d.modRoll t r f).nvm = d.nvm := rfl
@[simp] theorem Dev.modRoll_sec (d : Dev) (t r : Nat) (f : RollX → RollX) : (d.modRoll t r f).sec = d.sec := rfl
@[simp] theorem Dev.modRoll_per (d : Dev) (t r : Nat) (f : RollX → RollX) : (d.modRoll t r f).per = d.per := rfl
@[simp] theorem Dev.modRoll_hth (d : Dev) (t r : Nat) (f : RollX → RollX) : (d.modRoll t r f).hth = d.hth := rfl
@[simp] theorem Dev.modRoll_rd (d : Dev) (t r : Nat) (f : RollX → RollX) (x : Nat) : (d.modRoll t r f).rd x = d.rd x := rfl
@[simp] theorem Dev.modRoll_getF (d : Dev) (t r : Nat) (f : RollX → RollX) (x : Field) : (d.modRoll t r f).getF x = d.getF x := rfl
@[simp] theorem Dev.modRoll_getB (d : Dev) (t r : Nat) (f : RollX → RollX) (x : Field) : (d.modRoll t r f).getB x = d.getB x := rfl

/-! ### `dropLatches` and `rxMsg` -/

@[simp] theorem dropLatches_readLatch (d : Dev) : (dropLatches d).readLatch = none := rfl
@[simp] theorem dropLatches_writeLatch (d : Dev) : (dropLatches d).writeLatch = none := rfl
@[simp] theorem dropLatches_rd (d : Dev) (x : Nat) : (dropLatches d).rd x = d.rd x := rfl
@[simp] theorem dropLatches_getF (d : Dev) (x : Field) : (dropLatches d).getF x = d.getF x := rfl
@[simp] theorem dropLatches_getB (d : Dev) (x : Field) : (dropLatches d).getB x = d.getB x := rfl
@[simp] theorem dropLatches_peerUp (d : Dev) : (dropLatches d).peerUp = d.peerUp := rfl
@[simp] theorem dropLatches_fenced (d : Dev) : (dropLatches d).fenced = d.fenced := rfl
@[simp] theorem dropLatches_inService (d : Dev) : (dropLatches d).inService = d.inService := rfl
@[simp] theorem dropLatches_headNum (d : Dev) : (dropLatches d).headNum = d.headNum := rfl
@[simp] theorem dropLatches_portCount (d : Dev) : (dropLatches d).portCount = d.portCount := rfl
@[simp] theorem dropLatches_dmaOn (d : Dev) : (dropLatches d).dmaOn = d.dmaOn := rfl
@[simp] theorem dropLatches_regs (d : Dev) : (dropLatches d).regs = d.regs := rfl
@[simp] theorem dropLatches_dram (d : Dev) : (dropLatches d).dram = d.dram := rfl
@[simp] theorem dropLatches_freeCtr (d : Dev) : (dropLatches d).freeCtr = d.freeCtr := rfl
@[simp] theorem dropLatches_out (d : Dev) : (dropLatches d).out = d.out := rfl
@[simp] theorem dropLatches_evt (d : Dev) : (dropLatches d).evt = d.evt := rfl
@[simp] theorem dropLatches_jtag (d : Dev) : (dropLatches d).jtag = d.jtag := rfl
@[simp] theorem dropLatches_hep (d : Dev) : (dropLatches d).hep = d.hep := rfl
@[simp] theorem dropLatches_img (d : Dev) : (dropLatches d).img = d.img := rfl
@[simp] theorem dropLatches_tray (d : Dev) : (dropLatches d).tray = d.tray := rfl
@[simp] theorem dropLatches_write (d : Dev) : (dropLatches d).write = d.write := rfl
@[simp] theorem dropLatches_read (d : Dev) : (dropLatches d).read = d.read := rfl
@[simp] theorem dropLatches_pan (d : Dev) : (dropLatches d).pan = d.pan := rfl
@[simp] theorem dropLatches_map (d : Dev) : (dropLatches d).map = d.map := rfl
@[simp] theorem dropLatches_med (d : Dev) : (dropLatches d).med = d.med := rfl
@[simp] theorem dropLatches_links (d : Dev) : (dropLatches d).links = d.links := rfl
@[simp] theorem dropLatches_net (d : Dev) : (dropLatches d).net = d.net := rfl
@[simp] theorem dropLatches_nvm (d : Dev) : (dropLatches d).nvm = d.nvm := rfl
@[simp] theorem dropLatches_sec (d : Dev) : (dropLatches d).sec = d.sec := rfl
@[simp] theorem dropLatches_per (d : Dev) : (dropLatches d).per = d.per := rfl
@[simp] theorem dropLatches_hth (d : Dev) : (dropLatches d).hth = d.hth := rfl
@[simp] theorem rxMsg_readLatch (d : Dev) : (rxMsg d).readLatch = d.readLatch := rfl
@[simp] theorem rxMsg_writeLatch (d : Dev) : (rxMsg d).writeLatch = d.writeLatch := rfl
@[simp] theorem rxMsg_dram (d : Dev) : (rxMsg d).dram = d.dram := rfl
@[simp] theorem rxMsg_freeCtr (d : Dev) : (rxMsg d).freeCtr = d.freeCtr := rfl
@[simp] theorem rxMsg_out (d : Dev) : (rxMsg d).out = d.out := rfl
@[simp] theorem rxMsg_evt (d : Dev) : (rxMsg d).evt = d.evt := rfl
@[simp] theorem rxMsg_jtag (d : Dev) : (rxMsg d).jtag = d.jtag := rfl
@[simp] theorem rxMsg_hep (d : Dev) : (rxMsg d).hep = d.hep := rfl
@[simp] theorem rxMsg_img (d : Dev) : (rxMsg d).img = d.img := rfl
@[simp] theorem rxMsg_tray (d : Dev) : (rxMsg d).tray = d.tray := rfl
@[simp] theorem rxMsg_write (d : Dev) : (rxMsg d).write = d.write := rfl
@[simp] theorem rxMsg_read (d : Dev) : (rxMsg d).read = d.read := rfl
@[simp] theorem rxMsg_pan (d : Dev) : (rxMsg d).pan = d.pan := rfl
@[simp] theorem rxMsg_map (d : Dev) : (rxMsg d).map = d.map := rfl
@[simp] theorem rxMsg_med (d : Dev) : (rxMsg d).med = d.med := rfl
@[simp] theorem rxMsg_links (d : Dev) : (rxMsg d).links = d.links := rfl
@[simp] theorem rxMsg_net (d : Dev) : (rxMsg d).net = d.net := rfl
@[simp] theorem rxMsg_nvm (d : Dev) : (rxMsg d).nvm = d.nvm := rfl
@[simp] theorem rxMsg_sec (d : Dev) : (rxMsg d).sec = d.sec := rfl
@[simp] theorem rxMsg_per (d : Dev) : (rxMsg d).per = d.per := rfl
@[simp] theorem rxMsg_hth (d : Dev) : (rxMsg d).hth = d.hth := rfl
theorem rxMsg_rd (d : Dev) (x : Nat) (h : R.PER_MSGS_RX ≠ x) : (rxMsg d).rd x = d.rd x := rd_wr_other _ _ _ _ h
theorem rxMsg_getF (d : Dev) (x : Field) (h : R.PER_MSGS_RX ≠ x.sa) : (rxMsg d).getF x = d.getF x := getF_wr_other _ _ _ _ h

/-! ### Entries of the tables -/

@[simp] theorem Dev.modLink_same (d : Dev) (n : Nat) (f : Link → Link) : (d.modLink n f).link n = f (d.link n) := by
  simp [Dev.modLink, Dev.link]
@[simp] theorem Dev.modLink_other (d : Dev) (n k : Nat) (f : Link → Link) (h : n ≠ k) : (d.modLink n f).link k = d.link k := by
  simp [Dev.modLink, Dev.link, h]
@[simp] theorem Dev.modPort_same (d : Dev) (n : Nat) (f : Port → Port) : (d.modPort n f).port n = f (d.port n) := by
  simp [Dev.modPort, Dev.port]
@[simp] theorem Dev.modPort_other (d : Dev) (n k : Nat) (f : Port → Port) (h : n ≠ k) : (d.modPort n f).port k = d.port k := by
  simp [Dev.modPort, Dev.port, h]
@[simp] theorem Dev.modQp_same (d : Dev) (n : Nat) (f : Qp → Qp) : (d.modQp n f).qp n = f (d.qp n) := by
  simp [Dev.modQp, Dev.qp]
@[simp] theorem Dev.modQp_other (d : Dev) (n k : Nat) (f : Qp → Qp) (h : n ≠ k) : (d.modQp n f).qp k = d.qp k := by
  simp [Dev.modQp, Dev.qp, h]
@[simp] theorem Dev.modModule_same (d : Dev) (n : Nat) (f : Module → Module) : (d.modModule n f).module n = f (d.module n) := by
  simp [Dev.modModule, Dev.module]
@[simp] theorem Dev.modModule_other (d : Dev) (n k : Nat) (f : Module → Module) (h : n ≠ k) : (d.modModule n f).module k = d.module k := by
  simp [Dev.modModule, Dev.module, h]
@[simp] theorem Dev.modBlock_same (d : Dev) (n : Nat) (f : EBlock → EBlock) : (d.modBlock n f).eblock n = f (d.eblock n) := by
  simp [Dev.modBlock, Dev.eblock]
@[simp] theorem Dev.modBlock_other (d : Dev) (n k : Nat) (f : EBlock → EBlock) (h : n ≠ k) : (d.modBlock n f).eblock k = d.eblock k := by
  simp [Dev.modBlock, Dev.eblock, h]
@[simp] theorem Dev.modStage_same (d : Dev) (n : Nat) (f : StagePage → StagePage) : (d.modStage n f).stage n = f (d.stage n) := by
  simp [Dev.modStage, Dev.stage]
@[simp] theorem Dev.modStage_other (d : Dev) (n k : Nat) (f : StagePage → StagePage) (h : n ≠ k) : (d.modStage n f).stage k = d.stage k := by
  simp [Dev.modStage, Dev.stage, h]
@[simp] theorem Dev.modSlice_same (d : Dev) (n : Nat) (f : Slice → Slice) : (d.modSlice n f).slice n = f (d.slice n) := by
  simp [Dev.modSlice, Dev.slice]
@[simp] theorem Dev.modSlice_other (d : Dev) (n k : Nat) (f : Slice → Slice) (h : n ≠ k) : (d.modSlice n f).slice k = d.slice k := by
  simp [Dev.modSlice, Dev.slice, h]
@[simp] theorem Dev.modInst_same (d : Dev) (n : Nat) (f : Inst → Inst) : (d.modInst n f).inst n = f (d.inst n) := by
  simp [Dev.modInst, Dev.inst]
@[simp] theorem Dev.modInst_other (d : Dev) (n k : Nat) (f : Inst → Inst) (h : n ≠ k) : (d.modInst n f).inst k = d.inst k := by
  simp [Dev.modInst, Dev.inst, h]
@[simp] theorem Dev.modCipher_same (d : Dev) (n : Nat) (f : CipherCtx → CipherCtx) : (d.modCipher n f).cipher n = f (d.cipher n) := by
  simp [Dev.modCipher, Dev.cipher]
@[simp] theorem Dev.modCipher_other (d : Dev) (n k : Nat) (f : CipherCtx → CipherCtx) (h : n ≠ k) : (d.modCipher n f).cipher k = d.cipher k := by
  simp [Dev.modCipher, Dev.cipher, h]
@[simp] theorem Dev.modDigest_same (d : Dev) (n : Nat) (f : DigestCtx → DigestCtx) : (d.modDigest n f).digest n = f (d.digest n) := by
  simp [Dev.modDigest, Dev.digest]
@[simp] theorem Dev.modDigest_other (d : Dev) (n k : Nat) (f : DigestCtx → DigestCtx) (h : n ≠ k) : (d.modDigest n f).digest k = d.digest k := by
  simp [Dev.modDigest, Dev.digest, h]
@[simp] theorem Dev.modTray_same (d : Dev) (n : Nat) (f : TrayX → TrayX) : (d.modTray n f).trayX n = f (d.trayX n) := by
  simp [Dev.modTray, Dev.trayX]
@[simp] theorem Dev.modTray_other (d : Dev) (n k : Nat) (f : TrayX → TrayX) (h : n ≠ k) : (d.modTray n f).trayX k = d.trayX k := by
  simp [Dev.modTray, Dev.trayX, h]

/-- Every store of a reset head is in its canonical form. -/
theorem reset_sound : State.reset.dev.sound = true := by decide

end Sys2Proof.Machine
end

