-- ==== Sys2Proof/Laws/Ops.lean ====
section
/-! SUPPORT. One lemma for each shared operation that says what it can change: the event recorder's queue, the Error counters, MSI-X, host
memory reads, and repetition over a list. -/

namespace Sys2Proof.Machine

/-! ### Repetition -/

@[simp] theorem forEach_nil {α : Type} (f : α → Dev → Dev) (d : Dev) : forEach [] f d = d := rfl
@[simp] theorem forEach_cons {α : Type} (x : α) (r : List α) (f : α → Dev → Dev) (d : Dev) : forEach (x :: r) f d = forEach r f (f x d) := rfl

/-- What every round keeps, the repetition keeps. -/
theorem forEach_inv {α : Type} (P : Dev → Prop) (f : α → Dev → Dev) :
    ∀ (l : List α) (d : Dev), (∀ x ∈ l, ∀ d, P d → P (f x d)) → P d → P (forEach l f d)
  | [], _, _, h => h
  | x :: r, d, hf, h =>
    forEach_inv P f r (f x d) (fun y hy => hf y (List.mem_cons_of_mem _ hy)) (hf x (List.mem_cons_self ..) d h)

/-- A part of the head that every round leaves alone, the repetition leaves alone. -/
theorem forEach_keeps {α β : Type} (g : Dev → β) (f : α → Dev → Dev) (l : List α) (d : Dev) (h : ∀ x ∈ l, ∀ d, g (f x d) = g d) :
    g (forEach l f d) = g d :=
  forEach_inv (fun e => g e = g d) f l d (fun x hx e he => (h x hx e).trans he) rfl

/-! ### Events and counters -/

/-- Putting an event into the recorder's queue changes the counter of masked events or the recorder, and nothing else. -/
theorem enqueueEv_frame (d : Dev) (e : Ev) :
    d.enqueueEv e = { d with regs := (d.enqueueEv e).regs, evt := (d.enqueueEv e).evt } ∧
    (∀ a, a ≠ R.EVT_MASKED → (d.enqueueEv e).rd a = d.rd a) ∧ (d.enqueueEv e).evt.ring = d.evt.ring := by
  unfold Dev.enqueueEv
  split
  · exact ⟨rfl, fun a h => rd_wr_other _ _ _ _ (Ne.symm h), rfl⟩
  · split <;> exact ⟨rfl, fun _ _ => rfl, rfl⟩

/-- The event of a full counter changes the recorder and its counters, and nothing else. -/
theorem satEv_frame (d : Dev) (e : Ev) :
    d.satEv e = { d with regs := (d.satEv e).regs, evt := (d.satEv e).evt } ∧
    (∀ a, a ≠ R.EVT_MASKED → a ≠ R.E_EVT_DROPPED.sa → a ≠ R.E_EVT_DROPPED.satSa → (d.satEv e).rd a = d.rd a) ∧
    (d.satEv e).evt.ring = d.evt.ring := by
  obtain ⟨h1, h2, h3⟩ := enqueueEv_frame d e
  unfold Dev.satEv
  dsimp only
  split
  · exact ⟨h1, fun a h _ _ => h2 a h, h3⟩
  · split
    · refine ⟨?_, fun a h i _ => (rd_wr_other _ _ _ _ (Ne.symm i)).trans (h2 a h), h3⟩
      rw [h1]; rfl
    · refine ⟨?_, fun a h i j => ?_, h3⟩
      · rw [h1]; rfl
      · rw [rd_setF_other _ _ _ _ (Ne.symm j)]
        exact (rd_wr_other _ R.EVT_DROPPED a _ (Ne.symm i)).trans (h2 a h)

/-- An Error counter's rise changes the counter, its SAT bit and the recorder's queue, and nothing else. -/
theorem err_frame (d : Dev) (c : ErrCtr) :
    d.err c = { d with regs := (d.err c).regs, evt := (d.err c).evt } ∧
    (∀ a, a ≠ c.sa → a ≠ c.satSa → a ≠ R.EVT_MASKED → a ≠ R.E_EVT_DROPPED.sa → a ≠ R.E_EVT_DROPPED.satSa → (d.err c).rd a = d.rd a) ∧
    (d.err c).evt.ring = d.evt.ring := by
  unfold Dev.err
  dsimp only
  split
  · exact ⟨rfl, fun _ _ _ _ _ _ => rfl, rfl⟩
  · split
    · obtain ⟨h1, h2, h3⟩ := satEv_frame ((d.wr c.sa (d.rd c.sa + 1)).setF ⟨c.satSa, c.satBit, 1⟩ 1)
        ⟨c.sa / 0x400000 * 256 + 0xFF, (d.wr c.sa (d.rd c.sa + 1)).now, pageOf c.sa, c.sa, 0, 0, 0⟩
      refine ⟨h1, fun a ha hs hm hd he => ?_, h3⟩
      rw [h2 a hm hd he, rd_setF_other _ _ _ _ (Ne.symm hs), rd_wr_other _ _ _ _ (Ne.symm ha)]
    · exact ⟨rfl, fun a ha _ _ _ _ => rd_wr_other _ _ _ _ (Ne.symm ha), rfl⟩

/-- Posting an event changes the recorder's queue and its counters, and nothing else. -/
theorem postEv_frame (d : Dev) (e : Ev) :
    d.postEv e = { d with regs := (d.postEv e).regs, evt := (d.postEv e).evt } ∧
    (∀ a, a ≠ R.EVT_MASKED → a ≠ R.E_EVT_DROPPED.sa → a ≠ R.E_EVT_DROPPED.satSa → (d.postEv e).rd a = d.rd a) ∧
    (d.postEv e).evt.ring = d.evt.ring := by
  unfold Dev.postEv
  dsimp only
  obtain ⟨h1, h2, h3⟩ := enqueueEv_frame d e
  split
  · exact ⟨h1, fun a h _ _ => h2 a h, h3⟩
  · obtain ⟨g1, g2, g3⟩ := err_frame (d.enqueueEv e) R.E_EVT_DROPPED
    refine ⟨?_, fun a h i j => (g2 a i j h i j).trans (h2 a h), g3.trans h3⟩
    rw [g1, h1]

/-- The same of an event posted by its code. -/
theorem post_frame (d : Dev) (code : Nat) (ps : List Nat) :
    d.post code ps = { d with regs := (d.post code ps).regs, evt := (d.post code ps).evt } ∧
    (∀ a, a ≠ R.EVT_MASKED → a ≠ R.E_EVT_DROPPED.sa → a ≠ R.E_EVT_DROPPED.satSa → (d.post code ps).rd a = d.rd a) ∧
    (d.post code ps).evt.ring = d.evt.ring := postEv_frame _ _

/-! ### The host endpoint -/

/-- A vector's message changes the pending bits, or goes out and is counted. -/
theorem msix_frame (d : Dev) (v : Nat) (p : Option Nat) :
    d.msix v p = { d with regs := (d.msix v p).regs, hep := { d.hep with pba := (d.msix v p).hep.pba }, out := (d.msix v p).out } ∧
    (∀ a, a ≠ R.HEP_MSIX_SENT → (d.msix v p).rd a = d.rd a) ∧ ∃ more, (d.msix v p).out = d.out ++ more := by
  unfold Dev.msix
  split
  · exact ⟨rfl, fun _ _ => rfl, [], (List.append_nil _).symm⟩
  · split
    · exact ⟨rfl, fun a h => rd_wr_other _ _ _ _ (Ne.symm h), _, rfl⟩
    · exact ⟨rfl, fun _ _ => rfl, [], (List.append_nil _).symm⟩

/-- A write to host memory goes out and is counted. -/
theorem hostWrite_frame (d : Dev) (a : Nat) (b : Bytes) (p : Option Nat) :
    (d.hostWrite a b p).out = d.out ++ [.hostWrite a b p] ∧ ∀ x, x ≠ R.HEP_DMA_WR_BYTES → (d.hostWrite a b p).rd x = d.rd x :=
  ⟨rfl, fun _ h => rd_wr_other _ _ _ _ (Ne.symm h)⟩

/-! ### Canonical form -/

/-- The operations that write registers keep the store's canonical form. -/
theorem regsWf_stat (d : Dev) (a n : Nat) (h : regsWf d.regs = true) : regsWf (d.stat a n).regs = true := regsWf_wr _ _ _ h

theorem regsWf_enqueueEv (d : Dev) (e : Ev) (h : regsWf d.regs = true) : regsWf (d.enqueueEv e).regs = true := by
  unfold Dev.enqueueEv
  split
  · exact regsWf_wr _ _ _ h
  · split <;> exact h

theorem regsWf_satEv (d : Dev) (e : Ev) (h : regsWf d.regs = true) : regsWf (d.satEv e).regs = true := by
  unfold Dev.satEv
  dsimp only
  split
  · exact regsWf_enqueueEv _ _ h
  · split
    · exact regsWf_wr _ _ _ (regsWf_enqueueEv _ _ h)
    · exact regsWf_setF _ _ _ (regsWf_wr _ _ _ (regsWf_enqueueEv _ _ h))

theorem regsWf_err (d : Dev) (c : ErrCtr) (h : regsWf d.regs = true) : regsWf (d.err c).regs = true := by
  unfold Dev.err
  dsimp only
  split
  · exact h
  · split
    · exact regsWf_satEv _ _ (regsWf_setF _ _ _ (regsWf_wr _ _ _ h))
    · exact regsWf_wr _ _ _ h

theorem regsWf_postEv (d : Dev) (e : Ev) (h : regsWf d.regs = true) : regsWf (d.postEv e).regs = true := by
  unfold Dev.postEv
  dsimp only
  split
  · exact regsWf_enqueueEv _ _ h
  · exact regsWf_err _ _ (regsWf_enqueueEv _ _ h)

end Sys2Proof.Machine
end

