-- ==== Sys2Proof/WellFormed.lean ====
section
/-! DEFINITION. Which commands can be sent: every number fits the field that carries it. -/

namespace Sys2Proof

open Machine

/-- A submission entry whose fields fit their widths (NVMe Base, R385). -/
def Sqe.fits (e : Sqe) : Bool :=
  decide (e.opc < 256) && decide (e.fuse < 4) && decide (e.psdt < 4) && decide (e.cid < 65536) && decide (e.nsid < 2 ^ 32) &&
  decide (e.cdw2 < 2 ^ 32) && decide (e.cdw3 < 2 ^ 32) && decide (e.mptr < 2 ^ 64) && decide (e.dptr < 2 ^ 128) &&
  decide (e.cdw10 < 2 ^ 32) && decide (e.cdw11 < 2 ^ 32) && decide (e.cdw12 < 2 ^ 32) && decide (e.cdw13 < 2 ^ 32) &&
  decide (e.cdw14 < 2 ^ 32) && decide (e.cdw15 < 2 ^ 32)

/-- Where a command comes from, by numbers that exist: a controller's queue, a slice's queue. -/
def Origin.fits (o : Origin) : Bool :=
  match o with
  | .fabric c q i => decide (c < 65536) && decide (q < 65536) && decide (i < 65536)
  | .slice s q i => decide (s < 4096) && decide (q < 512) && decide (i < 65536)
  | .peer a => decide (a < 2 ^ 64)
  | .stream u _ _ => decide (u < 65)
  | .internal _ => true
  | .gone => true

/-- A ticket whose fields fit their widths (R94). -/
def Ticket.fits (t : Ticket) : Bool :=
  decide (t.pers < 256) && decide (t.plane < 3) && decide (t.issuer < 64) && decide (t.flags < 4) && decide (t.seq < 2 ^ 32) &&
  decide (t.inst < 1024) && decide (t.instGen < 65536) && decide (t.job < 2 ^ 24) && decide (t.inAddr < 2 ^ 36) &&
  decide (t.inAddr % 64 = 0) && decide (t.outAddr < 2 ^ 36) && decide (t.outAddr % 64 = 0) && decide (t.inLen < 2 ^ 32) &&
  decide (t.outLimit < 2 ^ 32) && decide (t.args < 2 ^ 128) && decide (t.issueNs < 2 ^ 32) && decide (t.crc < 2 ^ 32)

/-- A response of a module whose fields fit their widths (R317). -/
def MedResp.fits (r : MedResp) : Bool :=
  decide (r.tag < 1024) && decide (r.flags < 65536) && decide (r.status < 256) && r.pages.all (fun p => decide (p < 256)) &&
  decide (r.arg1 < 2 ^ 64)

/-- An event whose fields fit the record (R563). -/
def Ev.fits (e : Ev) : Bool :=
  decide (e.code < 65536) && decide (e.time < 2 ^ 64) && decide (e.src < 2 ^ 28) && decide (e.p0 < 2 ^ 64) && decide (e.p1 < 2 ^ 64) &&
  decide (e.p2 < 2 ^ 64) && decide (e.p3 < 2 ^ 64)


/-- The operands of a command fit the fields that carry them: unit numbers, register values, lengths. -/
def Instr.wellFormed (i : Instr) : Bool :=
  match i with
  | .registerWrite a size v => decide (a < 2 ^ 28) && decide (size < 8193) && decide (v < 2 ^ 64)
  | .misalignedAccess _ a size v => decide (a < 2 ^ 28) && decide (size < 8193) && decide (v < 2 ^ 64)
  | .lowHalfRead a => decide (a < 2 ^ 28)
  | .highHalfRead a => decide (a < 2 ^ 28)
  | .lowHalfWrite a v => decide (a < 2 ^ 28) && decide (v < 2 ^ 32)
  | .highHalfWrite a v => decide (a < 2 ^ 28) && decide (v < 2 ^ 32)
  | .rw1cWrite a v => decide (a < 2 ^ 28) && decide (v < 2 ^ 32)
  | .rcRead a size => decide (a < 2 ^ 28) && decide (size < 8193)
  | .clr a => decide (a < 2 ^ 28)
  | .verify => true
  | .writeSlot slot => decide (slot < 2)
  | .apply => true
  | .applySlot slot => decide (slot < 2)
  | .imageAbort => true
  | .raiseSvn => true
  | .reapply region => decide (region < 256)
  | .revoke key => decide (key < 4)
  | .applyOos => true
  | .imageFetchDone _ => true
  | .qspiOperationDone _ _ => true
  | .slotRecordRereadDone _ => true
  | .applyResume => true
  | .trayRebakeSpacingExpiry => true
  | .regionDrainEnd => true
  | .regionRestart _ => true
  | .hearthBankLoadDone => true
  | .hearthBankSwap => true
  | .oosPhaseDone => true
  | .ticketOffer tk => Ticket.fits tk
  | .ticketReoffer issuer seq => decide (issuer < 64) && decide (seq < 2 ^ 32)
  | .ticketDispatch t => decide (t < 24)
  | .ticketComplete t r _ => decide (t < 24) && decide (r < 16)
  | .issuerCompletion issuer seq => decide (issuer < 64) && decide (seq < 2 ^ 32)
  | .traySteal t => decide (t < 24)
  | .stealRetryTimer t => decide (t < 24)
  | .stealArrival t => decide (t < 24)
  | .moveNotice issuer seq => decide (issuer < 64) && decide (seq < 2 ^ 32)
  | .drainBoundHandoff t => decide (t < 24)
  | .twinReserve t => decide (t < 24)
  | .twinSignature t r sig => decide (t < 24) && decide (r < 16) && decide (sig < 2 ^ 32)
  | .twinSignatureLate t r => decide (t < 24) && decide (r < 16)
  | .wakeDecision plane pers => decide (plane < 3) && decide (pers < 11)
  | .trayPllLocked t => decide (t < 24)
  | .trayControllerResumed t => decide (t < 24)
  | .sleepDecision plane pers => decide (plane < 3) && decide (pers < 11)
  | .trayGoesCold t => decide (t < 24)
  | .groupClose plane pers => decide (plane < 3) && decide (pers < 11)
  | .rebalanceTick _ => true
  | .testPeriodExpiry => true
  | .testPeriodWrite v => decide (v < 2 ^ 32)
  | .testRequest tray roll _ => decide (tray < 32) && decide (roll < 16)
  | .rollTestStart => true
  | .rollTestDone _ => true
  | .rollReloadDone => true
  | .rollWatchdog t r => decide (t < 24) && decide (r < 16)
  | .sequencerParityError t r => decide (t < 24) && decide (r < 16)
  | .trayPoll missed => decide (missed < 2 ^ 24)
  | .traySelfCheckFail t => decide (t < 24)
  | .trayFenceComplete t => decide (t < 24)
  | .maskReseed t r => decide (t < 24) && decide (r < 16)
  | .write o e _ => Origin.fits o && Sqe.fits e
  | .writeAdmit => true
  | .dataLanded cmd => decide (cmd < 2 ^ 64)
  | .beforeImageDone cmd chunk => decide (cmd < 2 ^ 64) && decide (chunk < 2 ^ 64)
  | .commandGate cmd => decide (cmd < 2 ^ 64)
  | .mirrorFlushIssue => true
  | .journalPageTimer => true
  | .soloBatchDurable => true
  | .stagingProgrammed page => decide (page < 2 ^ 32)
  | .dirtyBudgetWrite v => decide (v < 2 ^ 32)
  | .read o e _ => Origin.fits o && Sqe.fits e
  | .readAdmit => true
  | .readLocate rd chunk => decide (rd < 2 ^ 64) && decide (chunk < 2 ^ 64)
  | .pantryProbe cmd chunk _ => decide (cmd < 2 ^ 64) && decide (chunk < 2 ^ 64)
  | .probeWaitEnd cmd chunk => decide (cmd < 2 ^ 64) && decide (chunk < 2 ^ 64)
  | .indexAppendFlush => true
  | .learningEnd => true
  | .warmingEnd => true
  | .pageInDone key => decide (key < 2 ^ 51)
  | .mapLookup rd chunk => decide (rd < 2 ^ 64) && decide (chunk < 2 ^ 64)
  | .writebackStart => true
  | .writebackProgrammed slot => decide (slot < 2 ^ 14)
  | .anchorTimer => true
  | .mapAnchorCmd => true
  | .anchorDurable => true
  | .mapInvalidate => true
  | .invalidatePhaseEnd => true
  | .resetWalkEnd => true
  | .tagParityError set => decide (set < 2 ^ 17)
  | .pageRebuildDone key => decide (key < 2 ^ 51)
  | .dramUncorrectable _ index => decide (index < 32)
  | .mapPinWrite pin key _ span => decide (pin < 16) && decide (key < 2 ^ 51) && decide (span < 16)
  | .blockSeal m ebn => decide (m < 32) && decide (ebn < 2 ^ 32)
  | .blockReadbackDone m ebn => decide (m < 32) && decide (ebn < 2 ^ 32)
  | .mPageTimer m => decide (m < 32)
  | .gcStartTrigger m => decide (m < 32)
  | .gcVictimExamine m ebn => decide (m < 32) && decide (ebn < 2 ^ 32)
  | .victimErase m ebn => decide (m < 32) && decide (ebn < 2 ^ 32)
  | .reclaim handle => decide (handle < 2 ^ 64)
  | .scrubTick m => decide (m < 32)
  | .scrubAll => true
  | .lossWalk => true
  | .moduleFail m => decide (m < 32)
  | .moduleFailTimeout m => decide (m < 32)
  | .tallyTimer m ebn => decide (m < 32) && decide (ebn < 2 ^ 32)
  | .sweepPhaseEnd => true
  | .plaSettleEnd => true
  | .plaSectionsWritten copy => decide (copy < 2)
  | .plaFlushed => true
  | .idleBlock m _ => decide (m < 32)
  | .ack m lseq => decide (m < 32) && decide (lseq < 2 ^ 32)
  | .nak m lseq => decide (m < 32) && decide (lseq < 2 ^ 32)
  | .credit m cmds units => decide (m < 32) && decide (cmds < 65536) && decide (units < 2 ^ 32)
  | .mediaFrameError m => decide (m < 32)
  | .mediaReadResponse m r => decide (m < 32) && MedResp.fits r
  | .programResponse m r => decide (m < 32) && MedResp.fits r
  | .eraseResponse m r => decide (m < 32) && MedResp.fits r
  | .statusResponse m r => decide (m < 32) && MedResp.fits r
  | .sbReadResponse m r => decide (m < 32) && MedResp.fits r
  | .sbWriteResponse m r => decide (m < 32) && MedResp.fits r
  | .witnessReadResponse m r => decide (m < 32) && MedResp.fits r
  | .witnessCasResponse m r => decide (m < 32) && MedResp.fits r
  | .fenceResponse m r => decide (m < 32) && MedResp.fits r
  | .plwResponse m r => decide (m < 32) && MedResp.fits r
  | .echoResponse m r => decide (m < 32) && MedResp.fits r
  | .responseTimeout m tag => decide (m < 32) && decide (tag < 2 ^ 32)
  | .statusPoll m => decide (m < 32)
  | .linkDetected m => decide (m < 32)
  | .equaliseDone m => decide (m < 32)
  | .blockLock m => decide (m < 32)
  | .train m role ver port id => decide (m < 32) && decide (role < 256) && decide (ver < 256) && decide (port < 256) && decide (id < 2 ^ 64)
  | .mediaLinkUpDone m => decide (m < 32)
  | .mediaSignalLoss m => decide (m < 32)
  | .trainingFailed m => decide (m < 32)
  | .linkRestartTimer m => decide (m < 32)
  | .mediaBringupTimeout m => decide (m < 32)
  | .linkRetrain m => decide (m < 32)
  | .mediaLinkDown m => decide (m < 32)
  | .mediaLinkUp m => decide (m < 32)
  | .frameReceive p len tags prio fill _ _ _ _ => decide (p < 16) && decide (len < 2 ^ 32) && decide (tags < 16) && decide (prio < 8) && decide (fill < 2 ^ 26)
  | .pfcFrame p prio _ => decide (p < 16) && decide (prio < 8)
  | .pfcStorm p => decide (p < 16)
  | .portLinkDown p => decide (p < 16)
  | .portLinkUp p => decide (p < 16)
  | .portRestartTimer p => decide (p < 16)
  | .portDown p => decide (p < 16)
  | .portUp p => decide (p < 16)
  | .ptpEventMessage p kind ptpSeq time => decide (p < 16) && decide (kind < 4) && decide (ptpSeq < 65536) && decide (time < 2 ^ 80)
  | .ptpAnnounce p rank => decide (p < 16) && decide (rank < 2 ^ 256)
  | .cnpReceive n => decide (n < 65541)
  | .ccInterval n => decide (n < 65541)
  | .req remote p dest psn tcp pmtu ip qid _ _ => decide (remote < 2 ^ 32) && decide (p < 16) && decide (dest < 2 ^ 24) && decide (psn < 2 ^ 24) && decide (tcp < 65536) && decide (pmtu < 8) && decide (ip < 2 ^ 128) && decide (qid < 65536)
  | .rep cm remote dest psn _ => decide (cm < 2 ^ 32) && decide (remote < 2 ^ 32) && decide (dest < 2 ^ 24) && decide (psn < 2 ^ 24)
  | .rtu cm => decide (cm < 2 ^ 32)
  | .rej cm => decide (cm < 2 ^ 32)
  | .mra cm => decide (cm < 2 ^ 32)
  | .dreq cm => decide (cm < 2 ^ 32)
  | .drep cm => decide (cm < 2 ^ 32)
  | .rcSendPacket n psn _ _ len _ => decide (n < 65541) && decide (psn < 2 ^ 24) && decide (len < 2 ^ 32)
  | .rcWritePacket n psn _ _ key va len _ _ => decide (n < 65541) && decide (psn < 2 ^ 24) && decide (key < 2 ^ 32) && decide (va < 2 ^ 64) && decide (len < 2 ^ 32)
  | .rcReadRequest n psn key va len => decide (n < 65541) && decide (psn < 2 ^ 24) && decide (key < 2 ^ 32) && decide (va < 2 ^ 64) && decide (len < 2 ^ 32)
  | .rcReadResponse n psn _ _ => decide (n < 65541) && decide (psn < 2 ^ 24)
  | .rcAck n psn => decide (n < 65541) && decide (psn < 2 ^ 24)
  | .rcNak n psn syn => decide (n < 65541) && decide (psn < 2 ^ 24) && decide (syn < 256)
  | .rnrNak n psn => decide (n < 65541) && decide (psn < 2 ^ 24)
  | .rcFlush n psn key va len => decide (n < 65541) && decide (psn < 2 ^ 24) && decide (key < 2 ^ 32) && decide (va < 2 ^ 64) && decide (len < 2 ^ 32)
  | .rcAtomic n psn => decide (n < 65541) && decide (psn < 2 ^ 24)
  | .ackTimer n => decide (n < 65541)
  | .retransmitTimeout n => decide (n < 65541)
  | .rnrTimer n => decide (n < 65541)
  | .spWrite n psn msn len off key va path _ => decide (n < 65541) && decide (psn < 2 ^ 24) && decide (msn < 2 ^ 32) && decide (len < 2 ^ 32) && decide (off < 2 ^ 32) && decide (key < 2 ^ 32) && decide (va < 2 ^ 64) && decide (path < 256)
  | .spSend n psn msn len off ssn path _ => decide (n < 65541) && decide (psn < 2 ^ 24) && decide (msn < 2 ^ 32) && decide (len < 2 ^ 32) && decide (off < 2 ^ 32) && decide (ssn < 2 ^ 32) && decide (path < 256)
  | .spFlush n psn msn len off va path => decide (n < 65541) && decide (psn < 2 ^ 24) && decide (msn < 2 ^ 32) && decide (len < 2 ^ 32) && decide (off < 2 ^ 32) && decide (va < 2 ^ 64) && decide (path < 256)
  | .spSack n base msnDone flushMsn limit bits => decide (n < 65541) && decide (base < 2 ^ 24) && decide (msnDone < 2 ^ 32) && decide (flushMsn < 2 ^ 32) && decide (limit < 2 ^ 32) && decide (bits < 2 ^ 1024)
  | .spNak n msn => decide (n < 65541) && decide (msn < 2 ^ 32)
  | .sackTimer n => decide (n < 65541)
  | .spreadRto n psn => decide (n < 65541) && decide (psn < 2 ^ 24)
  | .pathResume n path => decide (n < 65541) && decide (path < 256)
  | .mwRewriteComplete w => decide (w < 4096)
  | .flush o e _ => Origin.fits o && Sqe.fits e
  | .writeZeroes o e _ => Origin.fits o && Sqe.fits e
  | .datasetManagement o e _ => Origin.fits o && Sqe.fits e
  | .secureDeallocate o e _ => Origin.fits o && Sqe.fits e
  | .getLogPage o e _ => Origin.fits o && Sqe.fits e
  | .identify o e _ => Origin.fits o && Sqe.fits e
  | .abortCommand o e _ => Origin.fits o && Sqe.fits e
  | .setFeatures o e _ => Origin.fits o && Sqe.fits e
  | .getFeatures o e _ => Origin.fits o && Sqe.fits e
  | .asynchronousEventRequest o e _ => Origin.fits o && Sqe.fits e
  | .keepAlive o e _ => Origin.fits o && Sqe.fits e
  | .keepAliveExpiry c => decide (c < 65536)
  | .namespaceManagement o e _ => Origin.fits o && Sqe.fits e
  | .namespaceAttachment o e _ => Origin.fits o && Sqe.fits e
  | .connect n e _ => decide (n < 65541) && Sqe.fits e
  | .propertyGet o e _ => Origin.fits o && Sqe.fits e
  | .propertySet o e _ => Origin.fits o && Sqe.fits e
  | .disconnect o e _ => Origin.fits o && Sqe.fits e
  | .unsupportedCommand o e _ => Origin.fits o && Sqe.fits e
  | .nuseUpdate nsg => decide (nsg < 2 ^ 15)
  | .dnTailWrite v => decide (v < 2 ^ 32)
  | .upHeadWrite v => decide (v < 2 ^ 32)
  | .mqEnable => true
  | .createInstance tag _ => decide (tag < 2 ^ 32)
  | .deleteInstance tag _ => decide (tag < 2 ^ 32)
  | .resetInstance tag _ => decide (tag < 2 ^ 32)
  | .setQos tag _ => decide (tag < 2 ^ 32)
  | .setHosts tag _ => decide (tag < 2 ^ 32)
  | .createNs tag _ => decide (tag < 2 ^ 32)
  | .deleteNs tag _ => decide (tag < 2 ^ 32)
  | .bindSlice tag _ => decide (tag < 2 ^ 32)
  | .unbindSlice tag _ => decide (tag < 2 ^ 32)
  | .answer tag _ => decide (tag < 2 ^ 32)
  | .rateQueueRelease inst => decide (inst < 1024)
  | .sqTailDoorbell sl queue v => decide (sl < 4096) && decide (queue < 512) && decide (v < 2 ^ 32)
  | .cqHeadDoorbell sl queue v => decide (sl < 4096) && decide (queue < 512) && decide (v < 2 ^ 32)
  | .balanceTick load => decide (load < 2 ^ 64)
  | .migrationFreeze inst reason => decide (inst < 1024) && decide (reason < 256)
  | .migrationDrainEnd => true
  | .migrationPhaseTimeout => true
  | .migBlob inst _ => decide (inst < 1024)
  | .migAck inst code => decide (inst < 1024) && decide (code < 2 ^ 64)
  | .migAbort inst => decide (inst < 1024)
  | .migrationThawEnd => true
  | .snapshotCreate o e _ => Origin.fits o && Sqe.fits e
  | .snapshotDelete o e _ => Origin.fits o && Sqe.fits e
  | .snapshotSeal nsg id => decide (nsg < 2 ^ 15) && decide (id < 2 ^ 32)
  | .deletionWalkEnd nsg => decide (nsg < 2 ^ 15)
  | .streamStart u => decide (u < 65)
  | .streamResume u => decide (u < 65)
  | .streamStop u => decide (u < 65)
  | .begin u _ reason id arg => decide (u < 65) && decide (reason < 256) && decide (id < 2 ^ 64) && decide (arg < 2 ^ 64)
  | .ready u _ id seq arg arg2 => decide (u < 65) && decide (id < 2 ^ 64) && decide (seq < 2 ^ 64) && decide (arg < 2 ^ 64) && decide (arg2 < 2 ^ 64)
  | .commit u _ id seq => decide (u < 65) && decide (id < 2 ^ 64) && decide (seq < 2 ^ 64)
  | .resend u _ id seq => decide (u < 65) && decide (id < 2 ^ 64) && decide (seq < 2 ^ 64)
  | .endStream u _ id seq => decide (u < 65) && decide (id < 2 ^ 64) && decide (seq < 2 ^ 64)
  | .doneStream u _ id => decide (u < 65) && decide (id < 2 ^ 64)
  | .haltMsg u _ reason id => decide (u < 65) && decide (reason < 256) && decide (id < 2 ^ 64)
  | .replicationFrame u slot => decide (u < 65) && decide (slot < 64)
  | .frameCommitted u seq => decide (u < 65) && decide (seq < 2 ^ 64)
  | .chunkRetryTimer u seq => decide (u < 65) && decide (seq < 2 ^ 64)
  | .replicaCreated u => decide (u < 65)
  | .provision cfm => decide (cfm < 2 ^ 32)
  | .enroll cfm slot => decide (cfm < 2 ^ 32) && decide (slot < 4)
  | .fieldLock cfm => decide (cfm < 2 ^ 32)
  | .returnHead cfm => decide (cfm < 2 ^ 32)
  | .challenge => true
  | .respond => true
  | .raise dom => decide (dom < 2 ^ 12)
  | .raisePhaseEnd => true
  | .replSet slot => decide (slot < 16)
  | .replClear slot => decide (slot < 16)
  | .trngTestFail => true
  | .trngRestart _ => true
  | .cipherGo n => decide (n < 16)
  | .cipherAbort n => decide (n < 16)
  | .cipherKeyWrite n k _ v => decide (n < 16) && decide (k < 4) && decide (v < 2 ^ 64)
  | .cipherBlockDone n => decide (n < 16)
  | .digestInit alg _ keyLen => decide (alg < 8) && decide (keyLen < 256)
  | .digestKeyWrite v => decide (v < 2 ^ 64)
  | .digestDataWrite v => decide (v < 2 ^ 64)
  | .digestFinal n v => decide (n < 8) && decide (v < 2 ^ 64)
  | .digestResultRead k => decide (k < 8)
  | .compressionDone n => decide (n < 16)
  | .helloMsg device array facts _ => decide (device < 2 ^ 64) && decide (array < 2 ^ 64) && decide (facts < 2 ^ 64)
  | .kexMsg _ => true
  | .confirmMsg _ => true
  | .transferMsg _ => true
  | .pairFailMsg cause => decide (cause < 2 ^ 64)
  | .pairingRetry => true
  | .heartbeatTimer => true
  | .heartbeatFrame sub _ => decide (sub < 2)
  | .heartbeatLoss => true
  | .selfFenceFrame => true
  | .perSelfFence => true
  | .pairingTimeout => true
  | .contestRoundEnd => true
  | .contestTimeout => true
  | .adoptEnd => true
  | .publishEnd => true
  | .secured => true
  | .join word jsn => decide (word < 2 ^ 64) && decide (jsn < 2 ^ 64)
  | .handback seq _ => decide (seq < 2 ^ 32)
  | .resyncDone first word => decide (first < 2 ^ 64) && decide (word < 2 ^ 64)
  | .returnHoldoffExpiry => true
  | .anchor _ => true
  | .budget mib => decide (mib < 2 ^ 24)
  | .windows stg desc jrn fwd bulk => decide (stg < 2 ^ 32) && decide (desc < 2 ^ 32) && decide (jrn < 2 ^ 32) && decide (fwd < 2 ^ 32) && decide (bulk < 2 ^ 32)
  | .voters what gen kind => decide (what < 2 ^ 32) && decide (gen < 2 ^ 64) && decide (kind < 4)
  | .release what jsn => decide (what < 2 ^ 64) && decide (jsn < 2 ^ 64)
  | .releaseAck what jsn => decide (what < 2 ^ 64) && decide (jsn < 2 ^ 64)
  | .recReq tag handle mode dom => decide (tag < 2 ^ 32) && decide (handle < 2 ^ 64) && decide (mode < 8) && decide (dom < 4096)
  | .recResp tag status _ => decide (tag < 2 ^ 32) && decide (status < 256)
  | .recEnd handle what => decide (handle < 2 ^ 64) && decide (what < 4)
  | .drop h => decide (h < 2 ^ 64)
  | .dropAck h => decide (h < 2 ^ 64)
  | .readReq tag what key va => decide (tag < 2 ^ 32) && decide (what < 2 ^ 64) && decide (key < 2 ^ 32) && decide (va < 2 ^ 64)
  | .readResp tag st => decide (tag < 2 ^ 32) && decide (st < 2 ^ 64)
  | .tally what n => decide (what < 2 ^ 64) && decide (n < 2 ^ 32)
  | .sweepReq dom => decide (dom < 4096)
  | .sweepDone dom => decide (dom < 4096)
  | .fwdCmd what off len _ => decide (what < 2 ^ 64) && decide (off < 2 ^ 32) && decide (len < 2 ^ 32)
  | .fwdChunk what k off mask => decide (what < 2 ^ 64) && decide (k < 2 ^ 64) && decide (off < 2 ^ 32) && decide (mask < 2 ^ 64)
  | .fwdCpl what _ => decide (what < 2 ^ 64)
  | .numReq kind => decide (kind < 4)
  | .numResp kind num => decide (kind < 4) && decide (num < 2 ^ 32)
  | .instSync inst _ _ => decide (inst < 1024)
  | .lineReq line => decide (line < 2251799813685248)
  | .lineMsg line _ jsn _ => decide (line < 2251799813685248) && decide (jsn < 2 ^ 64)
  | .lineWb line => decide (line < 2251799813685248)
  | .perst reset => decide (reset < 3)
  | .functionLevelReset => true
  | .endpointReady => true
  | .busMasterDisable _ => true
  | .busMasterEnable => true
  | .msixUnmask vector => decide (vector < 2048)
  | .msixHoldoffExpiry sl => decide (sl < 4096)
  | .dmaReadCompletion tag status _ _ => decide (tag < 2 ^ 32) && decide (status < 256)
  | .completionTimeout tag => decide (tag < 2 ^ 32)
  | .tlpReceive _ => true
  | .bar2Access _ off size v => decide (off < 2 ^ 32) && decide (size < 8193) && decide (v < 2 ^ 64)
  | .uncorrectableInternalError => true
  | .powerOn => true
  | .pwrGoodFall => true
  | .sysReset => true
  | .powerFail => true
  | .powerRestored => true
  | .portHoldExpiry => true
  | .hearthFault => true
  | .resetHoldEnd => true
  | .startupStepDone _ => true
  | .temperatureSample degrees => decide (degrees < 256)
  | .timeDisagreement => true
  | .stewardFailure stw _ => decide (stw < 64)
  | .fenceRestart => true
  | .restart => true
  | .calibrationRequest calKind index _ => decide (calKind < 8) && decide (index < 32)
  | .calibrationDrainEnd => true
  | .calibrationDone _ => true
  | .avsResponse _ => true
  | .eventPost ev => Ev.fits ev
  | .eventWrite => true
  | .info _ => true
  | .setPtr _ _ => true
  | .readRec _ => true
  | .smbusTimeout => true
  | .jtagTrst => true
  | .bypass => true
  | .samplePreload _ _ => true
  | .idcode => true
  | .extest => true
  | .extestPulse => true
  | .extestTrain => true
  | .clamp => true
  | .highz => true
  | .thagraitSublinkDown sub => decide (sub < 2)
  | .thagraitSublinkUp sub => decide (sub < 2)
  | .sysResetRelease => true
  | .perstRelease => true
  | .pcieLinkUp speed width _ => decide (speed < 16) && decide (width < 16)
  | .fuseProgrammingDone _ => true
  | .pfcPauseExpiry p prio => decide (p < 16) && decide (prio < 8)
  | .d3hotExit => true

end Sys2Proof
end

