-- ==== Sys2Proof/Tests/Slice0.lean ====
section
/-! SUPPORT. Tests: ill-formed commands are refused, values the spec gives come out, and every statement's hypotheses are met by a concrete state
and operands, clause by clause, at a boundary of each range. -/

namespace Sys2Proof.Tests

open Sys2Proof.Machine

-- One theorem after the other: each waits for the kernel, and many that wait at once need more threads than the memory limit allows.
set_option Elab.async false

/-! ## Helpers -/

/-- The reset head with some register fields set. -/
def hd (l : List (Field × Nat)) : Dev := l.foldl (fun d p => d.setF p.1 p.2) State.reset.dev

/-- A field is all that a one-bit flag is. -/
def on (f : Field) : Field × Nat := (f, 1)

/-- A submission entry with an opcode and nothing else. -/
def sqe (opc : Nat) : Sqe := ⟨opc, 0, 0, 1, 1, 0, 0, 0, 0, 0, 0, 0, 0, 0, 0⟩

/-! ## Well-formedness: one ill-formed term for each check -/

theorem test_wf_address : (Instr.lowHalfRead (2 ^ 28)).wellFormed = false ∧ (Instr.lowHalfRead (2 ^ 28 - 4)).wellFormed = true := by decide
theorem test_wf_size : (Instr.rcRead 0 8193).wellFormed = false := by decide
theorem test_wf_value64 : (Instr.registerWrite 0 8 (2 ^ 64)).wellFormed = false := by decide
theorem test_wf_value32 : (Instr.rw1cWrite 0 (2 ^ 32)).wellFormed = false := by decide
theorem test_wf_tray : (Instr.ticketDispatch 24).wellFormed = false ∧ (Instr.ticketDispatch 23).wellFormed = true := by decide
theorem test_wf_roll : (Instr.rollWatchdog 0 16).wellFormed = false := by decide
theorem test_wf_issuer : (Instr.moveNotice 64 0).wellFormed = false := by decide
theorem test_wf_plane : (Instr.wakeDecision 3 0).wellFormed = false := by decide
theorem test_wf_personality : (Instr.wakeDecision 0 11).wellFormed = false := by decide
theorem test_wf_module : (Instr.statusPoll 32).wellFormed = false ∧ (Instr.statusPoll 31).wellFormed = true := by decide
theorem test_wf_slot : (Instr.writeSlot 2).wellFormed = false := by decide
theorem test_wf_key : (Instr.revoke 4).wellFormed = false := by decide
theorem test_wf_region : (Instr.reapply 256).wellFormed = false := by decide
theorem test_wf_mask24 : (Instr.trayPoll (2 ^ 24)).wellFormed = false := by decide
theorem test_wf_page_key : (Instr.pageInDone (2 ^ 51)).wellFormed = false := by decide
theorem test_wf_writeback_slot : (Instr.writebackProgrammed (2 ^ 14)).wellFormed = false := by decide
theorem test_wf_map_set : (Instr.tagParityError (2 ^ 17)).wellFormed = false := by decide
theorem test_wf_pin : (Instr.mapPinWrite 16 0 true 0).wellFormed = false := by decide
theorem test_wf_port : (Instr.portUp 16).wellFormed = false := by decide
theorem test_wf_priority : (Instr.pfcFrame 0 8 true).wellFormed = false := by decide
theorem test_wf_queue_pair : (Instr.ackTimer 65541).wellFormed = false ∧ (Instr.ackTimer 65540).wellFormed = true := by decide
theorem test_wf_psn : (Instr.rcAck 0 (2 ^ 24)).wellFormed = false := by decide
theorem test_wf_window : (Instr.mwRewriteComplete 4096).wellFormed = false := by decide
theorem test_wf_instance : (Instr.rateQueueRelease 1024).wellFormed = false := by decide
theorem test_wf_slice_queue : (Instr.sqTailDoorbell 0 512 0).wellFormed = false := by decide
theorem test_wf_stream_unit : (Instr.streamStart 65).wellFormed = false := by decide
theorem test_wf_namespace : (Instr.nuseUpdate (2 ^ 15)).wellFormed = false := by decide
theorem test_wf_cipher : (Instr.cipherKeyWrite 0 4 true 0).wellFormed = false := by decide
theorem test_wf_digest : (Instr.digestInit 8 true 0).wellFormed = false := by decide
theorem test_wf_domain : (Instr.raise 4096).wellFormed = false := by decide
theorem test_wf_vector : (Instr.msixUnmask 2048).wellFormed = false := by decide
theorem test_wf_steward : (Instr.stewardFailure 64 true).wellFormed = false := by decide
theorem test_wf_sublink : (Instr.heartbeatFrame 2 []).wellFormed = false := by decide
theorem test_wf_entry : (Instr.write (.fabric 0 1 1) (sqe 256) []).wellFormed = false ∧ (Instr.write (.fabric 0 1 1) (sqe 1) []).wellFormed = true := by decide
theorem test_wf_origin : (Instr.flush (.slice 4096 0 0) (sqe 0) []).wellFormed = false := by decide
theorem test_wf_ticket_address :
    (Instr.ticketOffer ⟨0, 0, 1, 0, 1, 0, 0, 0, 64, 32, 0, 0, 0, 0, 0⟩).wellFormed = false ∧
    (Instr.ticketOffer ⟨0, 0, 1, 0, 1, 0, 0, 0, 64, 128, 0, 0, 0, 0, 0⟩).wellFormed = true := by decide
theorem test_wf_response_tag : (Instr.plwResponse 0 ⟨1024, 0, 0, [], 0, []⟩).wellFormed = false := by decide
theorem test_wf_event_code : (Instr.eventPost ⟨65536, 0, 0, 0, 0, 0, 0⟩).wellFormed = false := by decide

/-! ## Values the spec gives -/

/-- The check value of R11: the CRC-32C of the ASCII digits 1 to 9. -/
theorem test_crc_check_value : crcNat ([0x31, 0x32, 0x33, 0x34, 0x35, 0x36, 0x37, 0x38, 0x39].map (BitVec.ofNat 8)) = 0xE3069283 := by decide +kernel

/-- Worked example after R18: offset 040h of the tray controller of tray 5 stands at SA 2016040h. -/
theorem test_tray_controller_address : sa 0x08 5 0x10 0x40 = 0x2016040 := by decide

/-- The worked example after R104: of 19 stealable tickets a sibling gives 8; of 1 it gives none; a draining one gives its last. -/
theorem test_steal_worked_example : stealTake false 19 = 8 ∧ stealTake false 1 = 0 ∧ stealTake true 1 = 1 := by decide

/-- The worked example of the media link chapter: crumb index 51_9039EEh lies in erase block 0A32h of the reference module (2 planes, 256 pages). -/
theorem test_erase_block_worked_example : ebnOf { moduleFresh with planes := 2, pages := 256 } 0x519039EE = 0x0A32 := by decide

/-- The worked example after R576: SEQ 8,001 stands in slot 3,905. -/
theorem test_event_slot_worked_example : 8001 % evtSlots = 3905 := by decide

/-- FIPS 180-4, the example of SHA-256: "abc". -/
theorem test_sha256_abc : beNat (sha sha256P ([0x61, 0x62, 0x63].map (BitVec.ofNat 8))) =
    0xba7816bf8f01cfea414140de5dae2223b00361a396177a9cb410ff61f20015ad := by decide +kernel

/-- FIPS 197, appendix C.3: AES-256 of the counting block under the counting key. -/
theorem test_aes256_fips197 : beNat (aesEnc (aesKeys ((List.range 32).map (BitVec.ofNat 8))) ((List.range 16).map fun n => BitVec.ofNat 8 (17 * n))) =
    0x8ea2b7ca516745bfeafc49904b496089 := by decide +kernel

/-! ## One step each, from the reset head -/

/-- R577: INFO on a reset head answers 16 bytes. -/
theorem test_info_sixteen_bytes :
    (effect (.info false) State.reset.dev).out.map (fun o => match o with
      | .smbus b => b.length
      | _ => 0) = [16] := by decide +kernel

/-- R592: a bad PEC is refused and counted. -/
theorem test_info_bad_pec : (effect (.info true) State.reset.dev).rd R.E_EVT_SMB_ERR.sa = 1 := by decide +kernel

/-- R16: a misaligned read posts event 0501h with the BAR, the address and the size. -/
theorem test_misaligned_read : (effect (.misalignedAccess false 2 4 0) State.reset.dev).evt.queue.map (fun e => (e.code, e.p0, e.p1, e.p2)) =
    [(0x0501, 0, 2, 4)] := by decide +kernel

/-- R18: the low half of a write waits in the latch and changes no register. -/
theorem test_low_half_write : (effect (.lowHalfWrite R.HTH_TIME 7) State.reset.dev).writeLatch = some (R.HTH_TIME, 7) ∧
    (effect (.lowHalfWrite R.HTH_TIME 7) State.reset.dev).regs = [] := by decide +kernel

/-- R542: a step on an empty queue moves the time base 20 ns on. -/
theorem test_tick : (match step State.reset with
    | .next t => t.dev.rd R.HTH_TIME
    | _ => 0) = 20 := by decide +kernel

/-- R549, R540: the supply's rise with SYS_RESET_L low leaves the head in RESET. -/
theorem test_power_on : (effect .powerOn State.reset.dev).hth.pwrGood = true ∧ (effect .powerOn State.reset.dev).getF R.HTH_STATE_STATE = 0 := by
  decide +kernel

/-- The table gives no row any bits, so no word spells a command. -/
theorem test_no_words : decodeTableWord 32 5 = none ∧ State.reset.withFetchWord 32 5 = State.reset := by decide

/-! ## The hypotheses of the statements are met, clause by clause -/

/-- O5, O6, O25: the reset head shows its levels, is quiet and settled, and a step of it answers. -/
theorem wit_LevelsKept : levelsShown State.reset.dev ∧ ∃ t, step State.reset = .next t := by
  refine ⟨?_, _, rfl⟩
  unfold levelsShown
  decide +kernel

theorem wit_QuietHeadSettles : quiet State.reset.dev = true ∧ levelsSettled State.reset.dev := by
  unfold levelsSettled
  decide +kernel

theorem wit_BoundaryScanFrame : levelsShown State.reset.dev ∧ levelsSettled State.reset.dev ∧ ∃ t, exec .idcode State.reset = .next t :=
  ⟨wit_LevelsKept.1, wit_QuietHeadSettles.2, _, rfl⟩

/-- O8: the last address of steward 3Dh and an address between registers lie outside every register. -/
theorem wit_ReadOutsideRegisters :
    (aligned 0xF7FFFFC 4 ∧ outside 0xF7FFFFC) ∧ aligned 0xF7FFFF0 8 ∧ outside 0xF7FFFF0 ∧ outside 0xF7FFFF4 := by
  have out : ∀ a, regRow a = none → regRow (a - 4) = none → ¬ inWindow a → outside a := fun a h1 h2 h3 =>
    ⟨h1, fun r _ hr => by rw [h2] at hr; exact absurd hr (by simp), h3⟩
  refine ⟨⟨?_, out _ ?_ ?_ ?_⟩, ?_, out _ ?_ ?_ ?_, out _ ?_ ?_ ?_⟩ <;> first | (unfold aligned; decide) | (unfold inWindow; decide) | decide +kernel

/-- O9: a wrong size, a wrong alignment of each size, and no size. -/
theorem wit_MisalignedAccesses : ¬ aligned 2 4 ∧ ¬ aligned 4 8 ∧ ¬ aligned 0 2 ∧ ¬ aligned 0 0 := by
  unfold aligned
  decide

/-- What a register row is, by tests on it. -/
theorem wide_of (a : Nat) (h : (regRow a).any (fun r => r.bits == 64) = true)
    (g : a % 8 = 0 ∧ regRow (a + 4) = none ∧ ¬ inWindow a ∧ ¬ inWindow (a + 4)) : ∃ r, wide a r := by
  cases e : regRow a with
  | none => simp [e] at h
  | some r => exact ⟨r, e, by simpa [e] using h, g⟩

theorem narrow_of (a : Nat) (h : (regRow a).any (fun r => r.bits != 64) = true) (g : a % 4 = 0 ∧ ¬ inWindow a) : ∃ r, narrow a r := by
  cases e : regRow a with
  | none => simp [e] at h
  | some r => exact ⟨r, e, by simpa [e] using h, g⟩

/-- O10, O11: the time base is a 64-bit register; a latch of it and a latch of another register. -/
theorem wit_HalvesRead : (∃ r, wide R.HTH_TIME r) ∧
    ({ State.reset.dev with readLatch := some (R.HTH_TIME, 2 ^ 32 - 1) } : Dev).readLatch = some (R.HTH_TIME, 2 ^ 32 - 1) ∧
    ∀ h, State.reset.dev.readLatch ≠ some (R.HTH_TIME, h) := by
  refine ⟨wide_of _ ?_ ?_, rfl, fun h => by simp [State.reset, Dev.reset]⟩
  · decide +kernel
  · unfold inWindow; decide +kernel

theorem wit_HalvesWritten : (∃ r, wide R.HTH_TIME r) ∧
    ({ State.reset.dev with writeLatch := some (R.HTH_TIME, 2 ^ 32 - 1) } : Dev).writeLatch = some (R.HTH_TIME, 2 ^ 32 - 1) ∧
    ∀ l, State.reset.dev.writeLatch ≠ some (R.HTH_TIME, l) :=
  ⟨wit_HalvesRead.1, rfl, fun h => by simp [State.reset, Dev.reset]⟩

/-- O12, O14: registers of 32 bits, side by side, and one with CLR bits. -/
theorem wit_NarrowRegisters : ∃ a, a % 8 = 0 ∧ a ≠ R.CLK_POWER ∧ (∃ r, narrow a r) ∧ ∃ r, narrow (a + 4) r := by
  refine ⟨R.EVT_NEWEST, ?_, ?_, narrow_of _ ?_ ?_, narrow_of _ ?_ ?_⟩ <;> first | decide +kernel | (unfold inWindow; decide)

theorem wit_ClearedCounters : (∃ x, satRow R.E_EVT_DROPPED.satSa = some x) ∧ ∃ r, narrow R.E_EVT_DROPPED.satSa r := by
  refine ⟨Option.isSome_iff_exists.1 (by decide +kernel), narrow_of _ ?_ ?_⟩
  · decide +kernel
  · unfold inWindow; decide

/-- O13, O15: the register tables have rows. -/
theorem wit_AccessCodes : ∃ r, r ∈ regRows := List.exists_mem_of_length_pos (by decide +kernel)
theorem wit_ReadClears : ∃ r, r ∈ regRows := wit_AccessCodes

/-- O16: an Error counter below, at and beyond its last step, and in a row of its own. -/
theorem wit_ErrorCounterSticks : R.E_EVT_DROPPED.sa ≠ R.HTH_TIME ∧
    (State.reset.dev.wr R.E_EVT_DROPPED.sa 0xFFFFFFFD).rd R.E_EVT_DROPPED.sa < 0xFFFFFFFE ∧
    (State.reset.dev.wr R.E_EVT_DROPPED.sa 0xFFFFFFFE).rd R.E_EVT_DROPPED.sa = 0xFFFFFFFE ∧
    0xFFFFFFFF ≤ (State.reset.dev.wr R.E_EVT_DROPPED.sa 0xFFFFFFFF).rd R.E_EVT_DROPPED.sa ∧
    (satRow R.E_EVT_DROPPED.satSa).any (fun x => x.ctrs.any fun o => R.E_EVT_DROPPED.sa == R.E_EVT_DROPPED.satSa - x.off + o) = true := by
  decide +kernel

/-- An event of severity 0, one of severity 3, and one of severity 4. -/
def ev0 : Ev := ⟨0x0001, 0, 0, 0, 0, 0, 0⟩
def ev3 : Ev := ⟨0x0802, 0, 0, 1, 2, 3, 4⟩

/-- O17: a masked event, and an unmasked one before the last and before no room. -/
theorem wit_EventsReachTheRecorder :
    ((evMeta ev0.code).1 < 2 ∧ bitAt ((State.reset.dev.wr R.EVT_MASK (2 ^ 64 - 1)).rd R.EVT_MASK) (ev0.code / 256) = true) ∧
    ¬ ((evMeta ev3.code).1 < 2 ∧ bitAt (State.reset.dev.rd R.EVT_MASK) (ev3.code / 256) = true) ∧
    (List.replicate 255 ev3).length < 256 ∧ 256 ≤ (List.replicate 256 ev3).length := by
  decide +kernel

/-- A head whose newest record is `ev3`, with `ev3` waiting. -/
def ringed : Dev := { State.reset.dev.wr R.EVT_NEWEST 4096 with
  evt := { State.reset.dev.evt with queue := [ev3], ring := [(0, ⟨4096, ev3, 0, false, 0, false⟩)] } }

/-- O18: an empty queue; a waiting event with an equal newest record, with another one and with none; and the three cases of the interrupt. -/
theorem wit_EventsBecomeRecords :
    State.reset.dev.evt.queue = [] ∧
    (ringed.evt.queue = ev3 :: [] ∧ ringed.rd R.EVT_NEWEST ≠ 0 ∧
      tabFind ringed.evt.ring (ringed.rd R.EVT_NEWEST % 4096) = some ⟨4096, ev3, 0, false, 0, false⟩ ∧
      sameEvent ev3 ev3 = true ∧ sameEvent ev3 ev0 = false) ∧
    State.reset.dev.rd R.EVT_NEWEST = 0 ∧
    ¬ (hd [(R.EVT_INT_MIN_SEV, 4)]).getF R.EVT_INT_MIN_SEV ≤ (evMeta ev3.code).1 ∧
    ((hd [(R.EVT_INT_MIN_SEV, 3), on R.EVT_INT_STATUS_NEW]).getF R.EVT_INT_MIN_SEV ≤ (evMeta ev3.code).1 ∧
      (hd [(R.EVT_INT_MIN_SEV, 3), on R.EVT_INT_STATUS_NEW]).getB R.EVT_INT_STATUS_NEW = true) ∧
    ((hd [on R.EVT_INT_EN]).getF R.EVT_INT_MIN_SEV ≤ (evMeta ev3.code).1 ∧ (hd [on R.EVT_INT_EN]).getB R.EVT_INT_STATUS_NEW = false ∧
      (hd [on R.EVT_INT_EN]).getB R.EVT_INT_EN = true) := by
  decide +kernel

/-- O19: the ring empty, and before the wrap. -/
theorem wit_RecordsAreNumbered : State.reset.dev.rd R.EVT_NEWEST < 2 ^ 32 ∧
    (State.reset.dev.wr R.EVT_NEWEST (2 ^ 32 - 1)).rd R.EVT_NEWEST = 2 ^ 32 - 1 := by decide +kernel

/-- O20, O21: a record at the end of every range. -/
def recMax : EvRec := ⟨2 ^ 32 - 1, ⟨2 ^ 16 - 1, 2 ^ 64 - 1, 2 ^ 32 - 1, 2 ^ 64 - 1, 2 ^ 64 - 1, 2 ^ 64 - 1, 2 ^ 64 - 1⟩, 0xFFFF, true, 0xFFFFFFFFFFFF, true⟩

theorem wit_RepeatsStick : recMax.repeats ≤ 0xFFFF ∧ recMax.delta ≤ 0xFFFFFFFFFFFF ∧ recMax.repeatSat = true ∧
    ({ recMax with repeats := 0xFFFE } : EvRec).repeats < 0xFFFF ∧
    (⟨0x0802, 0xFFFFFFFFFFFF, 0, 1, 2, 3, 4⟩ : Ev).time - ev3.time ≤ 0xFFFFFFFFFFFF ∧
    0xFFFFFFFFFFFF < (⟨0x0802, 0x1000000000000, 0, 1, 2, 3, 4⟩ : Ev).time - ev3.time ∧
    (mergeRepeat { recMax with repeats := 0xFFFE, ev := ev3 } ev3).repeats = 0xFFFF := by decide

theorem wit_EventRecordBytes : recMax.seq < 2 ^ 32 ∧ recMax.ev.code < 2 ^ 16 ∧ recMax.ev.time < 2 ^ 64 ∧ recMax.ev.src < 2 ^ 32 ∧
    recMax.delta < 2 ^ 48 ∧ recMax.repeats < 2 ^ 16 ∧ recMax.ev.p0 < 2 ^ 64 ∧ recMax.ev.p1 < 2 ^ 64 ∧ recMax.ev.p2 < 2 ^ 64 ∧ recMax.ev.p3 < 2 ^ 64 := by
  decide

/-- O22: a pointer of four bytes, and one of three. -/
theorem wit_SmbusAnswers : (zeros 4).length = 4 ∧ (zeros 3).length ≠ 4 := by decide

/-- O23, O24: the supply good and not, the reset low and high. -/
theorem wit_JtagAlwaysAccepted : ∃ a b : Dev, a.hth.pwrGood = true ∧ b.hth.pwrGood = false :=
  ⟨{ State.reset.dev with hth := { State.reset.dev.hth with pwrGood := true } },
    { State.reset.dev with hth := { State.reset.dev.hth with pwrGood := false } }, rfl, rfl⟩

theorem wit_JtagGuarded : ∃ a b : Dev, (a.hth.pwrGood = true ∧ a.hth.sysResetL = false) ∧ b.hth.pwrGood = true ∧ b.hth.sysResetL = true :=
  ⟨{ State.reset.dev with hth := { State.reset.dev.hth with pwrGood := true, sysResetL := false } },
    { State.reset.dev with hth := { State.reset.dev.hth with pwrGood := true, sysResetL := true } }, ⟨rfl, rfl⟩, rfl, rfl⟩

/-- O26: busy, and in state 4. -/
theorem wit_ImageCommandWhileBusy : (hd [on R.IMG_STATUS_BUSY, (R.IMG_STATUS_STATE, 4)]).getB R.IMG_STATUS_BUSY = true ∧
    (hd [on R.IMG_STATUS_BUSY, (R.IMG_STATUS_STATE, 4)]).getF R.IMG_STATUS_STATE = 4 := by decide +kernel

/-- A head with a pending image, one held, and no write of the structure in progress. -/
def imaged : Dev := { hd [(R.IMG_BOOT_BOOTED, 1), (R.IMG_PUSH_LEN_LEN, 0x1000000), (R.IMG_KEYS_RUN_KEY, 3)] with
  img := { State.reset.dev.img with pending := some [], held := some [] } }

/-- O27, O28: the loader idle; nothing pending; the booted slot with the other slot not valid; lengths up to and past 16 MiB; DMA stopped
and running; the running key, and the other slot valid. -/
theorem wit_ImageCommandsRefused : State.reset.dev.getB R.IMG_STATUS_BUSY = false ∧ State.reset.dev.img.pending = none ∧
    (imaged.getB R.IMG_STATUS_BUSY = false ∧ imaged.img.pending ≠ none ∧ imaged.getF R.IMG_BOOT_BOOTED = 3 % 2 ∧ otherValid (3 % 2) (dropLatches imaged) = false) ∧
    0x1000000 < (hd [(R.IMG_PUSH_LEN_LEN, 0x1000001)]).getF R.IMG_PUSH_LEN_LEN ∧
    (imaged.getF R.IMG_PUSH_LEN_LEN ≤ 0x1000000 ∧ imaged.dmaOn = false) ∧
    imaged.noImage = false ∧ imaged.getF R.IMG_KEYS_RUN_KEY = 7 % 4 := by decide +kernel

theorem wit_ImageCommandsStart :
    ((hd [(R.IMG_PUSH_LEN_LEN, 0x1000000), on R.HEP_FUNC_BME]).getF R.IMG_PUSH_LEN_LEN ≤ 0x1000000 ∧
      (hd [(R.IMG_PUSH_LEN_LEN, 0x1000000), on R.HEP_FUNC_BME]).dmaOn = true) ∧
    imaged.img.reread = none ∧ imaged.img.pending ≠ none ∧
    ¬ (imaged.getF R.IMG_BOOT_BOOTED = 0 % 2 ∧ otherValid (0 % 2) (dropLatches imaged) = false) ∧ imaged.noImage = false := by decide +kernel

/-- O29: the two phases of the shadow bank. -/
theorem wit_HearthBanksSwap : ∃ a b : Rebake, a.phase = .bankLoading ∧ b.phase = .bankPause ∧
    ({ State.reset.dev with img := { State.reset.dev.img with rebake := some a } } : Dev).img.rebake = some a ∧ State.reset.dev.img.rebake = none :=
  ⟨⟨.apply, 0, .bankLoading, [], 0⟩, ⟨.apply, 0, .bankPause, [], 0⟩, rfl, rfl, rfl, rfl⟩

/-- A ticket slot that waits. -/
def waiting : Slot := ⟨⟨0, 0, 1, 0, 1, 0, 0, 0, 0, 0, 0, 0, 0, 0, 0⟩, .unstarted, false, false, 0, []⟩

/-- Trays 0 and 23 in Bake, tray 22 Cold, tray 0 with two waiting tickets, tray 23 with one usable roll. -/
def trays : Dev := (hd [(R.TRY_TC_STATE_POWER 0, 2), (R.TRY_TC_STATE_POWER 23, 2), (R.TRY_TC_ROLLS_USABLE 23, 0x8000)]).modTray 0
  fun x => { x with ring := [waiting, waiting] }

/-- O30: tray 23 in Proof and in Cold, with its PLL locked, going Cold with nothing left, and a wake decision of an open group. -/
theorem wit_TrayPowerStates :
    (hd [(R.TRY_TC_STATE_POWER 23, 1)]).power 23 = 1 ∧ State.reset.dev.power 23 ≠ 1 ∧
    (((hd [(R.TRY_TC_STATE_POWER 23, 1)]).modTray 23 fun x => { x with pll := true }).trayX 23).pll = true ∧
    ((hd [(R.TRY_TC_STATE_POWER 23, 2), on (R.TRY_TC_STATE_GOING_COLD 23)]).power 23 = 2 ∧
      (hd [(R.TRY_TC_STATE_POWER 23, 2), on (R.TRY_TC_STATE_GOING_COLD 23)]).goingCold 23 = true ∧
      ((hd [(R.TRY_TC_STATE_POWER 23, 2), on (R.TRY_TC_STATE_GOING_COLD 23)]).trayX 23).ring = [] ∧
      busyCount (hd [(R.TRY_TC_STATE_POWER 23, 2), on (R.TRY_TC_STATE_GOING_COLD 23)]) 23 = 0 ∧
      testing (hd [(R.TRY_TC_STATE_POWER 23, 2), on (R.TRY_TC_STATE_GOING_COLD 23)]) 23 = false) ∧
    (groupOpen trays (trays.plane 0) (trays.pers 0) = true ∧
      trays.getF R.TRY_WAKE_WAKE_HI * (groupLoad trays (trays.plane 0) (trays.pers 0)).2 < (groupLoad trays (trays.plane 0) (trays.pers 0)).1 ∧
      ((groupTrays trays (trays.plane 0) (trays.pers 0)).find? fun t => trays.power t == 0 || (trays.power t == 2 && trays.goingCold t)) = some 1) := by
  decide +kernel

/-- O31: the last tray beside the first, in Bake. -/
theorem wit_TrayPowerRegisters : 23 < 24 ∧ 0 < 24 ∧ 0 ≠ 23 ∧ 3 < 4 ∧ trays.power 23 = 2 := by decide +kernel

/-- A head with a roll test in a phase on a roll. -/
def tested (phase roll : Nat) (d : Dev) : Dev := { d with tray := { d.tray with test := ⟨phase, roll, true, [], 0⟩ } }

/-- O32: tray 24 and tray 23; a test running; a Fenced tray, a roll fenced for good; the last usable roll and one of two. -/
theorem wit_RollTestRequests : 24 ≤ 24 % 32 ∧ 55 % 32 < 24 ∧ (tested 3 0 State.reset.dev).tray.test.phase ≠ 0 ∧
    (State.reset.dev.tray.test.phase = 0 ∧ (hd [(R.TRY_TC_STATE_POWER 23, 3)]).power 23 = 3) ∧
    (hd [on (R.TRY_ROLL_STATE_PERM 23 15)]).getB (R.TRY_ROLL_STATE_PERM 23 15) = true ∧
    (¬ (trays.power 23 = 3 ∨ trays.getB (R.TRY_ROLL_STATE_PERM 23 15) = true) ∧ lastUsable trays 23 15 = true ∧ lastUsable trays 23 14 = false) := by
  decide +kernel

/-- O33: each phase of the test, on a roll idle and fenced. -/
theorem wit_RollTestPhases :
    ((tested 1 (23 * 16 + 15) trays).tray.test.phase = 1 ∧ trays.rollState 23 15 = 0 ∧ trays.power 23 = 2 ∧ (23 * 16 + 15) / 16 = 23 ∧ (23 * 16 + 15) % 16 = 15) ∧
    (hd [(R.TRY_ROLL_STATE_STATE 23 15, 6)]).rollState 23 15 = 6 ∧
    (tested 2 0 trays).tray.test.phase = 2 ∧ (tested 3 0 trays).tray.test.phase = 3 ∧ (tested 3 0 trays).tray.test.phase ≠ 2 := by
  decide +kernel

/-- O34: a roll in each running state and in the states around them; a tray Fenced and not; the generator failed and not. -/
theorem wit_TrayFaultsDetected :
    (1 ≤ (hd [(R.TRY_ROLL_STATE_STATE 23 15, 1)]).rollState 23 15 ∧ (hd [(R.TRY_ROLL_STATE_STATE 23 15, 3)]).rollState 23 15 ≤ 3) ∧
    ¬ (1 ≤ (hd [(R.TRY_ROLL_STATE_STATE 23 15, 4)]).rollState 23 15 ∧ (hd [(R.TRY_ROLL_STATE_STATE 23 15, 4)]).rollState 23 15 ≤ 3) ∧
    (trays.rollState 23 15 ≠ 6 ∧ trays.power 23 ≠ 3) ∧ (hd [(R.TRY_TC_STATE_POWER 23, 3)]).power 23 = 3 ∧
    (hd [on R.SEC_TRNG_FAILED]).getB R.SEC_TRNG_FAILED = true ∧ State.reset.dev.getB R.SEC_TRNG_FAILED = false := by
  decide +kernel

/-- A head with only tray 23 in Bake, which missed the last poll. -/
def missedOnce : Dev := (hd [(R.TRY_TC_STATE_POWER 23, 2)]).modTray 23 fun x => { x with missed := 1 }

/-- O35: first misses, and the second miss of tray 23. -/
theorem wit_TrayPolls : (∀ t, t < 24 → trays.power t = 2 → bitAt (2 ^ 24 - 1) t = true → (trays.trayX t).missed = 0) ∧
    (missedOnce.power 23 = 2 ∧ 1 ≤ (missedOnce.trayX 23).missed ∧ ∀ u, u < 23 → missedOnce.power u ≠ 2) := by
  decide +kernel

/-- O36: tray 23 dry, tray 0 able to give, and no sibling able to give. -/
theorem wit_DryTraySteals :
    (dry trays 23 = true ∧ trays.draining 23 = false ∧ trays.tray.steals = [] ∧ ringOrder 23 = [] ++ 0 :: (ringOrder 23).tail ∧
      ((siblings trays 23).contains 0 && decide (stealTake (trays.draining 0) (stealable trays 0).length > 0)) = true) ∧
    (dry (trays.modTray 0 fun x => { x with ring := [] }) 23 = true ∧
      ((ringOrder 23).all fun v => !((siblings trays 23).contains v &&
        decide (stealTake (trays.draining v) (stealable (trays.modTray 0 fun x => { x with ring := [] }) v).length > 0))) = true) := by
  decide +kernel

/-- O37, O38: a record and an entry at the end of every range. -/
theorem wit_JournalRecordRoundTrip : ∃ (r : JRec) (g : Grp), r.type ∈ [1, 2, 3, 0x0F, 0x10, 0x11, 0x12, 0x13, 0x14, 0x20, 0x21, 0x22, 0x23] ∧
    r.nsg < 2 ^ 32 ∧ r.subject < 2 ^ 64 ∧ r.a < 2 ^ 64 ∧ r.b < 2 ^ 64 ∧ r.c < 2 ^ 64 ∧ g.time < 2 ^ 64 ∧ g.jsn = 2 ^ 32 - 1 :=
  ⟨⟨0x23, 2 ^ 32 - 1, 2 ^ 64 - 1, 2 ^ 64 - 1, 2 ^ 64 - 1, 2 ^ 64 - 1⟩, ⟨2 ^ 32 - 1, 8, [], 2 ^ 64 - 1, 1023, true, .reserved, 0, 0, 0, false, []⟩,
    by decide⟩

theorem wit_SummaryPageRoundTrip : (List.replicate 254 (⟨2 ^ 64 - 1, 2 ^ 24 - 1, 64, 2 ^ 16 - 1⟩ : SumEnt)).length ≤ 254 ∧
    ∀ e ∈ List.replicate 254 (⟨2 ^ 64 - 1, 2 ^ 24 - 1, 64, 2 ^ 16 - 1⟩ : SumEnt),
      e.handle < 2 ^ 64 ∧ e.off < 2 ^ 24 ∧ 1 ≤ e.len ∧ e.len ≤ 64 ∧ e.dom < 2 ^ 16 := by decide +kernel

/-- O39: numbers across the wrap, apart by less than half the range, and the largest step. -/
theorem wit_SequenceOrder : (2 ^ 32 - 1 < 2 ^ 32 ∧ 0 < 2 ^ 32 ∧ (2 ^ 32 - 1 : Nat) ≠ 0 ∧ (2 ^ 32 - 1 + 2 ^ 32 - 0) % 2 ^ 32 ≠ 2 ^ 31) ∧
    1 ≤ 2 ^ 31 - 1 ∧ 2 ^ 31 - 1 < 2 ^ 31 ∧ newerW 32 0 (2 ^ 32 - 1) = true := by decide

/-- O40: an empty DRAM and one with a byte. -/
theorem wit_StoredBytesRead : memWf State.reset.dev.dram = true ∧ memWf (State.reset.dev.memStore 64 [1#8]).dram = true ∧ 0 + 64 ≤ 64 ∧ 64 + 1 ≤ 65 := by
  decide +kernel

/-- A serving head, out of a link, and one whose peer is up. -/
def serving : Dev := hd [(R.HTH_STATE_STATE, 2), on R.HTH_STATE_IO_READY]
def peered : Dev := hd [(R.HTH_STATE_STATE, 2), on R.HTH_STATE_IO_READY, (R.PER_STATE_STATE, 3)]

/-- O41: budgets of 63 and 64 MiB, without a peer and with one; not serving; pages Programming, released and free; no batch, no chunk. -/
theorem wit_WritePathOrders : (2 ^ 24 + 63) % 2 ^ 24 < 64 ∧ (64 ≤ 64 % 2 ^ 24 ∧ serving.peerUp = false) ∧ peered.peerUp = true ∧
    State.reset.dev.serving = false ∧ (State.reset.dev.stage 7).state ≠ 4 ∧
    (((serving.modStage 7 fun x => { x with state := 4 }).stage 7).state = 4 ∧
      ((serving.modStage 7 fun x => { x with state := 4 }).stage 7).releaseSent = false) ∧
    ((serving.modStage 7 fun x => { x with releaseSent := true }).stage 7).releaseSent = true ∧
    State.reset.dev.write.batches = [] ∧ State.reset.dev.wChunk 0 0 = none := by decide +kernel

/-- O42: the Pantry idle, learning and warming; no probe waits. -/
theorem wit_PantryOrders : State.reset.dev.getF R.PAN_STATE_STATE ≠ 1 ∧ (hd [(R.PAN_STATE_STATE, 1)]).getF R.PAN_STATE_STATE = 1 ∧
    (hd [(R.PAN_STATE_STATE, 1)]).getF R.PAN_STATE_STATE ≠ 2 ∧ (hd [(R.PAN_STATE_STATE, 2)]).getF R.PAN_STATE_STATE = 2 ∧
    State.reset.dev.pan.waits = [] := by decide +kernel

/-- An anchor in the course of being cut. -/
def cutting : Dev := { State.reset.dev with map := { State.reset.dev.map with cut := some ⟨0, 0, 0, 0, 0, 0, [], 0, 0, 0, [], [], []⟩ } }

/-- O43: the map free, at the start and at the end of an invalidate-all; an anchor being cut and none; a reset walk and none. -/
theorem wit_MapOrders : (hd [(R.MAP_STATE_INV, 3)]).getF R.MAP_STATE_INV ≠ 0 ∧ State.reset.dev.getF R.MAP_STATE_INV = 0 ∧
    (hd [(R.MAP_STATE_INV, 2)]).getF R.MAP_STATE_INV = 2 ∧ cutting.map.cut ≠ none ∧ State.reset.dev.map.cut = none ∧
    (hd [(R.MAP_STATE_RESET_WALK, 0)]).getB R.MAP_STATE_RESET_WALK = false ∧
    (hd [on R.MAP_STATE_RESET_WALK]).getB R.MAP_STATE_RESET_WALK = true := by decide +kernel

/-- O44: a failed module; nothing open, dead, swept, tallied or flushed. -/
theorem wit_MediaOrders : (hd [on (R.MED_M_STATE_FAILED 31)]).getB (R.MED_M_STATE_FAILED 31) = true ∧
    (State.reset.dev.module 31).unavail = none ∧ State.reset.dev.modOn 31 = false ∧ (State.reset.dev.eblock (blkKey 31 7)).state ≠ 4 ∧
    7 ∉ State.reset.dev.med.dead ∧ (State.reset.dev.module 31).mPage = none ∧ State.reset.dev.med.tallies = [] ∧
    State.reset.dev.med.sweep = none ∧ State.reset.dev.med.pla.phase ≠ 1 ∧ State.reset.dev.med.pla.phase ≠ 2 ∧
    ({ State.reset.dev with med := { State.reset.dev.med with pla := { State.reset.dev.med.pla with phase := 1 } } } : Dev).med.pla.phase ≠ 0 := by
  decide +kernel

/-- A head whose link 31 is in a phase. -/
def linked (ph : Nat) : Dev := hd [(R.MED_L_STATE_PHASE 31, ph)]

/-- O45: link 31 in each phase the bring-up goes through, 63 and 64 valid blocks in a row, a link the host took down. -/
theorem wit_MediaLinkBringUp : State.reset.dev.linkPhase 31 = 0 ∧ (linked 1).linkPhase 31 = 1 ∧ (linked 2).linkPhase 31 = 2 ∧
    (linked 3).linkPhase 31 = 3 ∧ (linked 4).linkPhase 31 = 4 ∧ (linked 7).linkPhase 31 ≠ 6 ∧ (linked 7).linkUp 31 = false ∧
    (((linked 3).modLink 31 fun l => { l with idleRun := 63 }).link 31).idleRun < 64 ∧
    (64 ≤ (((linked 3).modLink 31 fun l => { l with idleRun := 64 }).link 31).idleRun ∧
      ((linked 3).modLink 31 fun l => { l with idleRun := 64 }).linkPhase 31 = 3) ∧
    ((State.reset.dev.modLink 31 fun l => { l with hostDown := true }).linkPhase 31 = 0 ∧
      ((State.reset.dev.modLink 31 fun l => { l with hostDown := true }).link 31).hostDown = true) := by decide +kernel

/-- O46: the phases that grant, take and refuse; no command of the tag. -/
theorem wit_MediaLinkFrames : (linked 6).linkPhase 31 = 6 ∧ (linked 7).linkPhase 31 = 7 ∧ (linked 3).linkPhase 31 = 3 ∧
    ((linked 4).linkPhase 31 ≠ 5 ∧ (linked 4).linkPhase 31 ≠ 6 ∧ (linked 4).linkPhase 31 ≠ 7) ∧
    ((linked 6).link 31).tags = [] ∧ (linked 4).linkUp 31 = false := by decide +kernel

/-- O47: a port down and up; lengths 9216 and 9217, tags 1 and 2; a lossy class and the lossless one. -/
theorem wit_FrameCounting : State.reset.dev.portUp 3 = false ∧ (hd [on (R.FRT_P_STATE_LINK_UP 3)]).portUp 3 = true ∧ 9216 < 9217 ∧
    9216 ≤ 9216 ∧ 2 ≤ 2 ∧ 1 < 2 ∧ (7 ≠ (hd [(R.FRT_CLASS_ROCE_PRIO, 3)]).getF R.FRT_CLASS_ROCE_PRIO ∧ true = true) ∧
    ¬ (3 ≠ (hd [(R.FRT_CLASS_ROCE_PRIO, 3)]).getF R.FRT_CLASS_ROCE_PRIO ∧ true = true) := by decide +kernel

/-- O48: the last port of four, up, paused, taken down by the host; the first port that is not there. -/
theorem wit_PortOrders : State.reset.dev.portUp 3 = false ∧
    ((hd [on (R.FRT_P_STATE_LINK_UP 3), on (R.FRT_P_STATE_PAUSED 3)]).portUp 3 = true ∧
      (hd [on (R.FRT_P_STATE_LINK_UP 3), on (R.FRT_P_STATE_PAUSED 3)]).getB (R.FRT_P_STATE_PAUSED 3) = true) ∧
    State.reset.dev.getF R.FRT_CLASS_ROCE_PRIO ∉ (State.reset.dev.port 3).pause ∧ State.reset.dev.getB (R.FRT_P_STATE_PAUSED 3) = false ∧
    3 < State.reset.dev.portCount ∧ (hd [(R.FRT_CLASS_MODE, 0)]).portCount ≤ 4 ∧
    ((State.reset.dev.modPort 3 fun x => { x with hostDown := true }).port 3).hostDown = true ∧ (State.reset.dev.port 3).hostDown = false := by
  decide +kernel

/-- A head whose queue pair 5 is ready to send. -/
def ready5 (f : Qp → Qp) : Dev := State.reset.dev.modQp 5 fun x => f { x with st := .rts }

/-- O49: a queue pair in RESET and ready, the last of the table and the first of the peer's; an interval with and without congestion, at the
hold and past it. -/
theorem wit_RateControl : (State.reset.dev.qp 5).st = .reset ∧ isPeerQp 0x10000 = true ∧ isPeerQp 0xFFFF = false ∧
    ((ready5 id).qp 5).st ≠ .reset ∧ 0 < ((ready5 fun q => { q with cnps := 1 }).qp 5).cnps ∧ ((ready5 id).qp 5).cnps = 0 ∧
    min (((ready5 id).qp 5).calm + 1) 255 ≤ (hd [(R.TRN_CC_HOLD, 1)]).getF R.TRN_CC_HOLD ∧
    (hd [(R.TRN_CC_HOLD, 1)]).getF R.TRN_CC_HOLD < min (((ready5 fun q => { q with calm := 1 }).qp 5).calm + 1) 255 := by decide +kernel

/-- O50: no connection, a dead and a live queue pair, a PSN ahead and one in place, before and after the NAK; acknowledgements, packets,
timeouts and windows in each state. -/
theorem wit_TransportOrders : State.reset.dev.conn 1 = none ∧ rcLive (State.reset.dev.qp 5) = false ∧ rcLive ((ready5 id).qp 5) = true ∧
    psnPlace ((ready5 id).qp 5) 0 ≠ .ahead ∧ psnPlace ((ready5 id).qp 5) 1 = .ahead ∧ ((ready5 id).qp 5).nakSent = false ∧
    ((ready5 fun q => { q with nakSent := true }).qp 5).nakSent = true ∧ ((ready5 id).qp 5).ackPending = 0 ∧ ((ready5 id).qp 5).pkts = [] ∧
    (((ready5 fun q => { q with pkts := [⟨0, 1, 0, 0, 0, 1⟩], timeouts := 255 }).qp 5).pkts ≠ [] ∧
      (ready5 id).getF R.TRN_STD_RETRY_CNT ≤ ((ready5 fun q => { q with timeouts := 255 }).qp 5).timeouts + 1) ∧
    ((ready5 id).qp 5).rnrWait = false ∧ ((ready5 id).qp 5).msgs = [] ∧
    (({ State.reset.dev with net := { State.reset.dev.net with windows := [(4095, { State.reset.dev.win 4095 with rewriting := true })] } } : Dev).win
      4095).rewriting = true := by decide +kernel

/-- A controller without a keep-alive timer. -/
def ctrl0 : Ctrl := ⟨0, [], 0, 0, 5, [], none, [], [], [], [], [], 0, 0⟩
def controlled (k : Nat) : Dev := { State.reset.dev with nvm := { State.reset.dev.nvm with ctrls := [(7, { ctrl0 with kato := k })] } }

/-- O51: no controller, one with and one without a timer, the lowest entry a host can send, and properties that are there and are not. -/
theorem wit_AdminCommands : State.reset.dev.ctrl 7 = none ∧ (controlled 0).ctrl 7 = some { ctrl0 with kato := 0 } ∧
    (controlled 1).ctrl 7 = some { ctrl0 with kato := 1 } ∧ ((sqe 0).fuse = 0 ∧ (sqe 0).cdw2 = 0 ∧ (sqe 0).cdw3 = 0) ∧
    property ctrl0 0x18 = none ∧ property ctrl0 0 = some (1023 + 2 ^ 16 + 2 ^ 37) ∧
    ({ sqe 0 with cdw10 := 0x10F } : Sqe).cdw10 % 256 = 0x0F ∧ ({ sqe 0 with cdw10 := 0x20B } : Sqe).cdw10 % 256 = 0x0B ∧
    ({ sqe 0 with cdw10 := 9 } : Sqe).cdw10 % 8 = 1 ∧ (sqe 0).cdw11 ≠ 0x14 := by decide +kernel

/-- The entry's data pointer: an empty in-capsule block, which no admin opcode refuses by itself. -/
theorem wit_AdminCommands_pointer : ∃ e : Sqe, e.fuse = 0 ∧ e.cdw2 = 0 ∧ e.cdw3 = 0 ∧
    ∀ opc st, dataPtr (mkHead (controlled 0) true (.fabric 7 0 1) { e with opc := opc } [] 0 0) ≠ .bad st := by
  refine ⟨{ sqe 0 with dptr := 0x40 * 2 ^ 120 }, rfl, rfl, rfl, fun opc st => ?_⟩
  have h : dataPtr (mkHead (controlled 0) true (.fabric 7 0 1) { sqe 0 with dptr := 0x40 * 2 ^ 120, opc := opc } [] 0 0) =
      .list [keyedDesc (leBytes 16 (0x40 * 2 ^ 120))] := by
    show (if sglType (leBytes 16 (0x40 * 2 ^ 120)) = 0x40 ∨ sglType (leBytes 16 (0x40 * 2 ^ 120)) = 0x4F then
      DataPtr.list [keyedDesc (leBytes 16 (0x40 * 2 ^ 120))] else _) = _
    exact if_pos (Or.inl (by decide +kernel))
  rw [h]
  intro e
  cases e

/-- A head whose slice 3 is bound with one queue of depth 2. -/
def bound3 : Dev := State.reset.dev.modSlice 3 fun x => { x with bound := true, nq := 1, depth := 2 }

/-- O52: not in service; the mediation queue on and off; the last queue of a bound slice, the one after it, and an unbound slice. -/
theorem wit_InstanceOrders : State.reset.dev.inService = false ∧ (hd [on R.INS_MQ_CTL_EN]).getB R.INS_MQ_CTL_EN = true ∧
    State.reset.dev.getB R.INS_MQ_CTL_EN = false ∧ (State.reset.dev.slice 3).bound = false ∧
    ((bound3.slice 3).bound = true ∧ 0 < (bound3.slice 3).nq ∧ (bound3.slice 3).nq ≤ 1) ∧ (State.reset.dev.inst 1023).rateQueue = [] := by
  decide +kernel

/-- A head with a migration of instance 9 in a phase. -/
def migrating9 (ph : Nat) : Dev := { State.reset.dev with nvm := { State.reset.dev.nvm with mig := some ⟨9, true, ph, 1, 0⟩ } }

/-- A paired serving head in whose instance 9, home at the other head, is in a state. -/
def movable (st : Nat) : Dev := (((peered.setF (R.INS_I_STATE_STATE 9) st).setF (R.INS_I_STATE_HOME 9) 1))

/-- O53: no migration allowed; an instance served here and there; no migration; one of another instance; phases 4 and 6. -/
theorem wit_MigrationOrders : migAllowed State.reset.dev 1 = false ∧
    (migAllowed (movable 1) 1 = true ∧ (movable 1).getF (R.INS_I_STATE_STATE 9) = 1 ∧ migReason (movable 1) 9 1 = true) ∧
    (migAllowed (movable 2) 1 = true ∧ (movable 2).getF (R.INS_I_STATE_STATE 9) = 2) ∧
    (State.reset.dev.nvm.mig = none ∧ (rxMsg State.reset.dev).getF (R.INS_I_STATE_STATE 9) ≠ 2) ∧
    ((migrating9 4).nvm.mig = some ⟨9, true, 4, 1, 0⟩ ∧ (9 : Nat) ≠ 8) ∧ ((migrating9 6).nvm.mig = some ⟨9, true, 6, 1, 0⟩ ∧ 6 ≤ 6) := by
  decide +kernel

/-- A head whose stream unit 64 is in a state. -/
def unit64 (st : Nat) : Dev := hd [(R.SNP_S_STATE_STATE 64, st)]

/-- O54: the last stream unit in each state; a sender and a receiver; the right and a wrong identity; no namespace. -/
theorem wit_StreamOrders : strState State.reset.dev 64 = 0 ∧ strState (unit64 6) 64 = 6 ∧ strState (unit64 5) 64 = 5 ∧
    (strState (unit64 4) 64 = 4 ∧ strRx (unit64 4) 64 = false) ∧
    (strState ((unit64 3).setB (R.SNP_S_CFG_ROLE 64) true) 64 = 3 ∧ strRx ((unit64 3).setB (R.SNP_S_CFG_ROLE 64) true) 64 = true) ∧
    (1 ≠ State.reset.dev.rd (R.SNP_S_ID 64) ∧ 0 = State.reset.dev.rd (R.SNP_S_ID 64)) ∧ State.reset.dev.ns 32767 = none := by decide +kernel

/-- A head with its life cycle fuses at a value, and a life-cycle command running or not. -/
def aged (lc op : Nat) : Dev := { State.reset.dev with sec := { State.reset.dev.sec with lcOp := op, fuses := { State.reset.dev.sec.fuses with lc := lc } } }

/-- A serving head with security domain 5 in use, raising it already. -/
def domained : Dev := { serving with sec := { State.reset.dev.sec with
  store := some ⟨1, 0, 0, [], [], [(5, ⟨true, false, 1, []⟩)]⟩, raise := some ⟨5, 1, 0, 0, [], 0, []⟩ } }

/-- O55: a command running and none; each life-cycle state; the wrong code; the generator failed; slots 0 and 4; a domain not in use, and one in use while a raise runs. -/
theorem wit_LifeCycleCommands : (aged 0 1).sec.lcOp ≠ 0 ∧ ((aged 0 0).sec.lcOp = 0 ∧ lcState (aged 0 0) = 0) ∧ lcState (aged 1 0) = 1 ∧
    lcState (aged 3 0) = 2 ∧ lcState (aged 7 0) = 3 ∧ 0x5AC2 ≠ 0x5AC3 ∧ (hd [on R.SEC_TRNG_FAILED]).getB R.SEC_TRNG_FAILED = true ∧ 3 < 4 ∧
    State.reset.dev.inService = false ∧ (serving.inService = true ∧ (serving.domain 5).inUse = false) ∧
    (domained.inService = true ∧ (domained.domain 5).inUse = true ∧ domained.sec.raise ≠ none) ∧
    (State.reset.dev.sec.replBusy = false ∧ State.reset.dev.sec.root = none) := by decide +kernel

/-- O56: a cipher context in each state; a digest context busy, idle, taking data one word before the end of a block, done and not. -/
theorem wit_CipherAndDigestOrders : ccState State.reset.dev 15 = 0 ∧ ccState (hd [(R.SEC_CC_STATUS_STATE 15, 1)]) 15 = 1 ∧
    ccState (hd [(R.SEC_CC_STATUS_STATE 15, 2)]) 15 = 2 ∧ ccState (hd [(R.SEC_CC_STATUS_STATE 15, 3)]) 15 = 3 ∧
    ccState (hd [(R.SEC_CC_STATUS_STATE 15, 4)]) 15 = 4 ∧
    ((State.reset.dev.modDigest 0 fun x => { x with busy := true }).digest (dgSel State.reset.dev)).busy = true ∧
    ((State.reset.dev.digest (dgSel State.reset.dev)).busy = false ∧ dgTakes (State.reset.dev.digest (dgSel State.reset.dev)) = false ∧
      (State.reset.dev.digest (dgSel State.reset.dev)).active = false) ∧
    (dgTakes { digestFresh with active := true } = true ∧
      (({ digestFresh with active := true, msg := zeros 56 } : DigestCtx).msg.length + 4) % (dgAlg 0).block ≠ 0) ∧
    (({ digestFresh with done := true } : DigestCtx).done = true ∧ digestFresh.done = false) ∧ 2 < 3 := by decide +kernel

/-- A head in a pairing of a phase. -/
def pairing (ph : Nat) : Dev := { State.reset.dev with sec := { State.reset.dev.sec with pairing := { State.reset.dev.sec.pairing with phase := ph } } }

/-- O57: pages and frames of the wrong size and lane; beating and not; peer up and down, fenced and not; pairing and not. -/
theorem wit_HeadsTalk : (zeros 0).length ≠ 8192 ∧ 0 ∉ upSublinks State.reset.dev ∧ beating State.reset.dev = false ∧ beating serving = true ∧
    State.reset.dev.peerUp = false ∧ (hd [(R.HTH_STATE_STATE, stFenced)]).fenced = true ∧ (peered.peerUp = true ∧ peered.fenced = false) ∧
    State.reset.dev.getF R.PER_STATE_STATE ≠ 1 ∧ ((pairing 0).sec.pairing.phase = 0 ∧ (pairing 9).sec.pairing.phase = 9) ∧
    ((pairing 1).sec.pairing.phase ≠ 0 ∧ (pairing 1).sec.pairing.phase ≠ 9) ∧ 2 ≤ 2 := by decide +kernel

/-- A head with its link steward in a state and its records adopted or not. -/
def taking (st : Nat) (a : Bool) : Dev := { hd [(R.PER_STATE_STATE, st)] with per := { State.reset.dev.per with adopted := a } }

/-- O58: a contest and none; each state of a take-over; a return held off and not. -/
theorem wit_TakeOverOrders : State.reset.dev.per.contest = none ∧
    ({ State.reset.dev with per := { State.reset.dev.per with contest := some ⟨0, [], [], [], [], 0, 0⟩ } } : Dev).per.contest ≠ none ∧
    (taking 6 true).getF R.PER_STATE_STATE ≠ 5 ∧ (taking 5 true).per.adopted = true ∧ (taking 5 false).per.adopted = false ∧
    ((taking 6 true).getF R.PER_STATE_STATE = 6 ∧ (taking 6 true).per.adopted = true ∧
      ((taking 6 true).write.batches.all fun b => b.head == (taking 6 true).headNum) = true) ∧
    (taking 5 true).getF R.PER_STATE_STATE ≠ 6 ∧ State.reset.dev.getF R.PER_STATE_STATE ≠ 2 ∧ State.reset.dev.peerUp = false ∧
    (({ peered with per := { State.reset.dev.per with holdoff := true } } : Dev).peerUp = true ∧
      ({ peered with per := { State.reset.dev.per with holdoff := true } } : Dev).per.holdoff = true) := by decide +kernel

/-- A head whose vector 5 is open, with MSI-X and DMA on. -/
def messaged : Dev := { hd [on R.HEP_FUNC_MSIX_EN, on R.HEP_FUNC_BME] with hep := { State.reset.dev.hep with vectors := [(5, ⟨0xFEE00000, 7, false⟩)] } }

/-- A head with one discarded read outstanding. -/
def reading : Dev := { State.reset.dev with hep := { State.reset.dev.hep with reads := [⟨3, .cert, 4, true⟩] } }

/-- O59: vectors closed and open; vector 2048; no hold-off; no read and a discarded one; DMA on and off; low power and not; resetting
and not; a link in training and not, and speeds and widths at their ends. -/
theorem wit_EndpointOrders : State.reset.dev.getB R.HEP_FUNC_MSIX_EN = false ∧ (messaged.vector 6).masked = true ∧
    (messaged.getB R.HEP_FUNC_MSIX_EN = true ∧ messaged.hep.funcMask = false ∧ (messaged.vector 5).masked = false ∧ messaged.dmaOn = true) ∧
    2048 ≤ 2048 ∧ (tabGet ⟨false, 0⟩ State.reset.dev.hep.slices 4095).holdoff = false ∧ (State.reset.dev.hep.reads.find? fun x => x.tag == 3) = none ∧
    ((reading.hep.reads.find? fun x => x.tag == 3) = some ⟨3, .cert, 4, true⟩ ∧ (⟨3, .cert, 4, true⟩ : DmaRd).discard = true) ∧
    (State.reset.dev.dmaOn = false ∧ State.reset.dev.getB R.HEP_FUNC_BME = false) ∧ messaged.getB R.HEP_FUNC_BME = true ∧
    State.reset.dev.getB R.HEP_FUNC_D3HOT = false ∧ (hd [(R.HEP_FUNC_RESETTING, 0)]).getB R.HEP_FUNC_RESETTING = false ∧
    State.reset.dev.hep.training = false ∧
    (({ State.reset.dev with hep := { State.reset.dev.hep with training := true, linkHeld := false } } : Dev).hep.training = true ∧
      ({ State.reset.dev with hep := { State.reset.dev.hep with training := true, linkHeld := false } } : Dev).hep.linkHeld = false) ∧
    1 ≤ 1 ∧ 6 ≤ 6 ∧ 8 ∈ [1, 2, 4, 8] ∧ 16 ∉ [1, 2, 4, 8] := by decide +kernel

/-- A head with its supply good, its other pins as given, in a state. -/
def powered (st : Nat) (f : HthState → HthState) : Dev :=
  { hd [(R.HTH_STATE_STATE, st)] with hth := f { State.reset.dev.hth with pwrGood := true, pwrFailL := true } }

/-- O60: the supply gone and good; serving and halted; each pin both ways; fenced by a contest and by the peer, locked out or not;
calibrations of each kind at the ends of the range, running in each phase and not; no voltage request; stewards 0 and 15h. -/
theorem wit_HearthOrders : State.reset.dev.hth.pwrGood = false ∧
    ((powered 2 id).hth.pwrGood = true ∧ (powered 2 id).hth.pwrFailL = true ∧ (powered 2 id).getF R.HTH_STATE_STATE = 2) ∧
    ((powered 4 id).hth.pwrGood = true ∧ (powered 4 id).getF R.HTH_STATE_STATE = 4) ∧
    ((powered 2 fun h => { h with sysResetL := false, perstL := true, resetHold := false }).hth.sysResetL = false ∧
      (powered 2 fun h => { h with sysResetL := false, perstL := true, resetHold := false }).hth.perstL = true ∧
      (powered 2 fun h => { h with sysResetL := false, perstL := true, resetHold := false }).hth.resetHold = false) ∧
    (powered 2 fun h => { h with sysResetL := true }).hth.sysResetL = true ∧ State.reset.dev.fenced = false ∧
    ((powered stFenced id).fenced = true ∧ (powered stFenced id).hth.fenceCause ≠ 2 ∧ (powered stFenced id).getB R.HTH_STATE_LOCKOUT = false) ∧
    4 < 5 ∧ 1 ≤ 1 ∧ 3 ≤ 3 ∧ (powered 2 fun h => { h with cal := ⟨1, 0, 2, true⟩ }).hth.cal.phase ≠ 0 ∧
    State.reset.dev.hth.cal.phase ≠ 1 ∧ State.reset.dev.hth.cal.phase ≠ 2 ∧ State.reset.dev.hth.avsBusy = none ∧ 0x14 < 0x15 := by decide +kernel

end Sys2Proof.Tests
end

section
/-! Proofs: register accesses, access codes, the answers of commands, and the reset state (O3, O7 to O13). -/

namespace Sys2Proof.Machine

/-! ## Fields under a write (R19) -/

/-- One bit is a field of width 1. -/
theorem bitAt_eq_bitsAt (v b : Nat) : bitAt v b = (bitsAt v b 1 == 1) := rfl

/-- Two fields of a row that share no bit. -/
abbrev FieldRow.apart (f g : FieldRow) : Prop := f.lo + f.w ≤ g.lo ∨ g.lo + g.w ≤ f.lo

/-- What a write of `v` makes of one field of a register that holds `x`. -/
def writeField (v x : Nat) (f : FieldRow) : Nat :=
  match f.acc with
  | .rw => setBitsAt x f.lo f.w (v / 2 ^ f.lo)
  | .rw1c => if bitAt v f.lo then setBitsAt x f.lo f.w 0 else x
  | _ => x

/-- What the access code of a field says it holds after a write of `v` to a register that held `x`. -/
def fieldAfter (v x : Nat) (f : FieldRow) : Nat :=
  if f.acc = .rw then bitsAt v f.lo f.w
  else if f.acc = .rw1c ∧ bitAt v f.lo = true then 0 else bitsAt x f.lo f.w

theorem writtenValue_eq_foldl (r : RegRow) (old v : Nat) : writtenValue r old v = r.fields.foldl (writeField v) old := rfl

theorem bitsAt_writeField_same (v x : Nat) (f : FieldRow) : bitsAt (writeField v x f) f.lo f.w = fieldAfter v x f := by
  obtain ⟨lo, w, acc⟩ := f
  cases acc with
  | rw => exact bitsAt_set_same x lo w (v / 2 ^ lo)
  | rw1c =>
    by_cases h : bitAt v lo = true
    · simp [writeField, fieldAfter, h]
    · simp [writeField, fieldAfter, h]
  | ro | rc | wo | hw => simp [writeField, fieldAfter]

theorem bitsAt_writeField_other (v x : Nat) (f : FieldRow) (l n : Nat) (h : l + n ≤ f.lo ∨ f.lo + f.w ≤ l) :
    bitsAt (writeField v x f) l n = bitsAt x l n := by
  unfold writeField
  split
  · exact bitsAt_set_other _ _ _ _ _ _ h
  · split
    · exact bitsAt_set_other _ _ _ _ _ _ h
    · rfl
  · rfl

/-- Bits that none of the fields written holds keep their value. -/
theorem bitsAt_foldl_writeField_other (v l n : Nat) (fs : List FieldRow) :
    ∀ x, (∀ f ∈ fs, l + n ≤ f.lo ∨ f.lo + f.w ≤ l) → bitsAt (fs.foldl (writeField v) x) l n = bitsAt x l n := by
  induction fs with
  | nil => intro x _; rfl
  | cons g r ih =>
    intro x h
    obtain ⟨hg, hr⟩ := List.forall_mem_cons.1 h
    exact (ih _ hr).trans (bitsAt_writeField_other v x g l n hg)

/-- Of fields that share no bit, each becomes what its access code says. -/
theorem bitsAt_foldl_writeField_mem (v : Nat) (f : FieldRow) (fs : List FieldRow) :
    ∀ x, fs.Pairwise FieldRow.apart → f ∈ fs → bitsAt (fs.foldl (writeField v) x) f.lo f.w = fieldAfter v x f := by
  induction fs with
  | nil => intro x _ h; cases h
  | cons g r ih =>
    intro x hp hf
    obtain ⟨hg, hr⟩ := List.pairwise_cons.1 hp
    rcases List.mem_cons.1 hf with rfl | hf
    · exact (bitsAt_foldl_writeField_other v f.lo f.w r _ hg).trans (bitsAt_writeField_same v x f)
    · have hother : bitsAt (writeField v x g) f.lo f.w = bitsAt x f.lo f.w :=
        bitsAt_writeField_other v x g _ _ (hg f hf).symm
      rw [List.foldl_cons, ih _ hr hf, fieldAfter, hother, fieldAfter]

/-- No two fields of a register share a bit. -/
theorem regRows_fields_apart : ∀ r ∈ regRows, r.fields.Pairwise FieldRow.apart := by decide +kernel

/-- Settles O13: the fields of a row share no bit, so a write's pass over them gives each what its access code says. -/
theorem accessCodes : Obligations.AccessCodes := by
  intro r hr old v
  constructor
  · intro f hf
    exact bitsAt_foldl_writeField_mem v f r.fields old (regRows_fields_apart r hr) hf
  · intro b hb
    rw [bitAt_eq_bitsAt, bitAt_eq_bitsAt, writtenValue_eq_foldl, bitsAt_foldl_writeField_other v b 1 r.fields old hb]

/-! ## Answers -/

/-- Settles O3: the meaning of each command puts the head of the table of effects into the state, case by case. -/
theorem everyCommandAnswers : Obligations.EveryCommandAnswers := by
  intro i s
  unfold Answers
  cases i <;> rfl

/-- A command answers the head that its effect makes. -/
theorem answers_of_effect {i : Instr} {s : State} {d : Dev} (h : effect i s.dev = d) : Answers i s d := h ▸ everyCommandAnswers i s

/-- A command whose own work makes `d'` answers what the head makes of `d'` by itself. -/
theorem answers_settled {i : Instr} {s : State} {d d' : Dev} (h : d = d') (hi : effect i s.dev = settleDown d) :
    Answers i s (settleDown d') := answers_of_effect (hi.trans (congrArg settleDown h))

/-! ## Reset -/

/-- Where no register is listed, every register reads its reset value. -/
theorem rd_of_regs_nil {d : Dev} (h : d.regs = []) (a : Nat) : d.rd a = regReset a % 2 ^ 64 := by
  simp [Dev.rd, h, tabGet, tabFind]

theorem quiet_reset : quiet State.reset.dev = true := by decide +kernel

theorem levelsShown_reset : levelsShown State.reset.dev := by
  unfold levelsShown
  decide +kernel

/-- Settles O7: the reset head lists no register and holds no work; its level registers are those of an empty head. -/
theorem resetState : Obligations.ResetState :=
  ⟨rfl, rd_of_regs_nil rfl, rfl, rfl, rfl, rfl, rfl, rfl, fun _ => rfl, rfl, quiet_reset, levelsShown_reset⟩

/-! ## The two sizes of an access (R16) -/

theorem accessOk_iff (a size : Nat) : accessOk a size = true ↔ aligned a size := by simp [accessOk, aligned]

theorem hostReadReg_misaligned {a size : Nat} (d : Dev) (h : ¬ aligned a size) :
    hostReadReg a size d = (accessError 0 a size (dropLatches d)).emit (.busRead 0) := by
  rw [← accessOk_iff] at h
  simp [hostReadReg, h]

theorem hostWriteReg_misaligned {a size : Nat} (v : Nat) (d : Dev) (h : ¬ aligned a size) :
    hostWriteReg a size v d = accessError 0 a size (dropLatches d) := by
  rw [← accessOk_iff] at h
  simp [hostWriteReg, h]

theorem hostReadReg_four {a : Nat} (d : Dev) (h : a % 4 = 0) :
    hostReadReg a 4 d = (read32 a d).2.emit (.busRead (read32 a d).1) := by
  simp [hostReadReg, (accessOk_iff a 4).2 (.inl ⟨rfl, h⟩)]

theorem hostReadReg_eight {a : Nat} (d : Dev) (h : a % 8 = 0) :
    hostReadReg a 8 d = (read64 a d).2.emit (.busRead (read64 a d).1) := by
  simp [hostReadReg, (accessOk_iff a 8).2 (.inr ⟨rfl, h⟩)]

theorem hostWriteReg_four {a : Nat} (v : Nat) (d : Dev) (h : a % 4 = 0) : hostWriteReg a 4 v d = write32 a v d := by
  simp [hostWriteReg, (accessOk_iff a 4).2 (.inl ⟨rfl, h⟩)]

theorem hostWriteReg_eight {a : Nat} (v : Nat) (d : Dev) (h : a % 8 = 0) : hostWriteReg a 8 v d = write64 a v d := by
  simp [hostWriteReg, (accessOk_iff a 8).2 (.inr ⟨rfl, h⟩)]

/-- Settles O9: both directions of an access fail the one test of size and alignment. -/
theorem misalignedAccesses : Obligations.MisalignedAccesses := by
  intro s a size v h
  have hread := hostReadReg_misaligned s.dev h
  have hwrite := hostWriteReg_misaligned v s.dev h
  exact ⟨answers_settled hread rfl, answers_settled hwrite rfl, answers_settled hread rfl, answers_settled hwrite rfl⟩

/-! ## Reads of 32 and 64 bits (R15, R17) -/

@[simp] theorem dropLatches_dropLatches (d : Dev) : dropLatches (dropLatches d) = dropLatches d := rfl

theorem refreshPower_other {a : Nat} (d : Dev) (h : a ≠ R.CLK_POWER) : refreshPower a d = d := by simp [refreshPower, h]

/-- `CLK_POWER` is a register of 32 bits. -/
theorem regRow_clkPower : (regRow R.CLK_POWER).any (fun r => r.bits != 64) = true := by decide +kernel

theorem ne_clkPower_of_regRow_none {a : Nat} (h : regRow a = none) : a ≠ R.CLK_POWER := by
  rintro rfl
  simpa [h] using regRow_clkPower

theorem ne_clkPower_of_wide {a : Nat} {r : RegRow} (h : regRow a = some r) (hb : r.bits = 64) : a ≠ R.CLK_POWER := by
  rintro rfl
  simpa [h, hb] using regRow_clkPower

/-- Outside the windows the first two branches of a 32-bit read do not apply. -/
theorem not_window_parts {a : Nat} (h : ¬ inWindow a) :
    ¬ a / 0x400000 = 0x3F ∧ ¬ (a / 0x400000 = 0x03 ∧ a / 0x4000 % 256 = 0 ∧ 16 ≤ a / 0x200 % 32) := not_or.1 h

/-- A 32-bit read at a register's own address. -/
theorem read32_row {a : Nat} {r : RegRow} (d : Dev) (hp : a ≠ R.CLK_POWER) (hw : ¬ inWindow a) (hr : regRow a = some r) :
    read32 a d = if r.bits = 64 then
        (regValue d a % 2 ^ 32, { readEffect r a (dropLatches d) with readLatch := some (a, regValue d a / 2 ^ 32) })
      else (regValue d a % 2 ^ 32, readEffect r a (dropLatches d)) := by
  obtain ⟨h1, h2⟩ := not_window_parts hw
  simp only [read32, saParts, refreshPower_other d hp, if_neg h1, if_neg h2, hr]

/-- A 32-bit read outside every register. -/
theorem read32_outside {a : Nat} (d : Dev) (h : outside a) : read32 a d = (0, dropLatches d) := by
  obtain ⟨hr, hbelow, hw⟩ := h
  obtain ⟨h1, h2⟩ := not_window_parts hw
  simp only [read32, saParts, refreshPower_other d (ne_clkPower_of_regRow_none hr), if_neg h1, if_neg h2, hr]
  split
  · rfl
  · split
    next r hr4 => exact if_pos (hbelow r (by omega) hr4)
    next => rfl

/-- The high half of a 64-bit register whose low half was read last. -/
theorem read32_high_latched {a v : Nat} {r : RegRow} (d : Dev) (h : wide a r) (hl : d.readLatch = some (a, v)) :
    read32 (a + 4) d = (v, dropLatches d) := by
  obtain ⟨hr, hb, -, hr4, -, hw4⟩ := h
  obtain ⟨h1, h2⟩ := not_window_parts hw4
  simp [read32, saParts, refreshPower_other d (ne_clkPower_of_regRow_none hr4), h1, h2, hr4, hr, hb, hl]

/-- The high half of a 64-bit register whose low half was not read last. -/
theorem read32_high_current {a : Nat} {r : RegRow} (d : Dev) (h : wide a r) (hl : ∀ v, d.readLatch ≠ some (a, v)) :
    read32 (a + 4) d = (regValue d a / 2 ^ 32, dropLatches d) := by
  obtain ⟨hr, hb, -, hr4, -, hw4⟩ := h
  obtain ⟨h1, h2⟩ := not_window_parts hw4
  cases e : d.readLatch with
  | none => simp [read32, saParts, refreshPower_other d (ne_clkPower_of_regRow_none hr4), h1, h2, hr4, hr, hb, e]
  | some p =>
    obtain ⟨x, v⟩ := p
    have hx : x ≠ a := by
      rintro rfl
      exact hl v e
    simp [read32, saParts, refreshPower_other d (ne_clkPower_of_regRow_none hr4), h1, h2, hr4, hr, hb, e, hx]

theorem read64_outside {a : Nat} (d : Dev) (h : outside a) (h4 : outside (a + 4)) : read64 a d = (0, dropLatches d) := by
  simp [read64, h.1, read32_outside _ h, read32_outside _ h4]

theorem read64_wide {a : Nat} {r : RegRow} (d : Dev) (h : wide a r) :
    read64 a d = (regValue d a % 2 ^ 64, readEffect r a (dropLatches d)) := by
  obtain ⟨hr, hb, -⟩ := h
  simp [read64, hr, hb]

/-! ## Writes of 32 and 64 bits (R15, R18) -/

theorem write32_outside {a : Nat} (v : Nat) (d : Dev) (h : outside a) : write32 a v d = dropLatches d := by
  obtain ⟨hr, hbelow, -⟩ := h
  simp only [write32, hr]
  split
  · rfl
  · split
    next r hr4 => exact if_pos (hbelow r (by omega) hr4)
    next => rfl

theorem write32_narrow {a : Nat} {r : RegRow} (v : Nat) (d : Dev) (h : narrow a r) :
    write32 a v d = writeReg r a (v % 2 ^ 32) (dropLatches d) := by
  obtain ⟨hr, hb, -⟩ := h
  simp [write32, hr, hb]

theorem write32_wide {a : Nat} {r : RegRow} (v : Nat) (d : Dev) (h : wide a r) :
    write32 a v d = { dropLatches d with writeLatch := some (a, v % 2 ^ 32) } := by
  obtain ⟨hr, hb, -⟩ := h
  simp [write32, hr, hb]

/-- The high half of a 64-bit register whose low half was written last. -/
theorem write32_high_latched {a l : Nat} {r : RegRow} (v : Nat) (d : Dev) (h : wide a r) (hl : d.writeLatch = some (a, l)) :
    write32 (a + 4) v d = writeReg r a (l + 2 ^ 32 * (v % 2 ^ 32)) (dropLatches d) := by
  obtain ⟨hr, hb, -, hr4, -⟩ := h
  simp [write32, hr4, hr, hb, hl]

/-- The high half of a 64-bit register whose low half was not written last. -/
theorem write32_high_unlatched {a : Nat} {r : RegRow} (v : Nat) (d : Dev) (h : wide a r)
    (hl : ∀ l, d.writeLatch ≠ some (a, l)) : write32 (a + 4) v d = accessError 0 (a + 4) 4 (dropLatches d) := by
  obtain ⟨hr, hb, -, hr4, -⟩ := h
  cases e : d.writeLatch with
  | none => simp [write32, hr4, hr, hb, e]
  | some p =>
    obtain ⟨x, l⟩ := p
    have hx : x ≠ a := by
      rintro rfl
      exact hl l e
    simp [write32, hr4, hr, hb, e, hx]

theorem write64_outside {a : Nat} (v : Nat) (d : Dev) (h : outside a) (h4 : outside (a + 4)) :
    write64 a v d = dropLatches d := by
  simp [write64, h.1, write32_outside _ _ h, write32_outside _ _ h4]

theorem write64_wide {a : Nat} {r : RegRow} (v : Nat) (d : Dev) (h : wide a r) :
    write64 a v d = writeReg r a (v % 2 ^ 64) (dropLatches d) := by
  obtain ⟨hr, hb, -⟩ := h
  simp [write64, hr, hb]

/-- A 64-bit write on a 32-bit register is two 32-bit writes, the lower address first. -/
theorem write64_narrow {a : Nat} {r : RegRow} (v : Nat) (d : Dev) (h : narrow a r) :
    write64 a v d = write32 (a + 4) (v / 2 ^ 32) (write32 a v d) := by
  obtain ⟨hr, hb, -⟩ := h
  simp [write64, hr, hb]

/-! ## The statements about accesses -/

/-- Settles O8: no branch of a read or a write finds a register, at the address or four bytes below it. -/
theorem readOutsideRegisters : Obligations.ReadOutsideRegisters := by
  intro s a size hal ho ho4
  rcases hal with ⟨rfl, h4⟩ | ⟨rfl, h8⟩
  · have hread := hostReadReg_four s.dev h4
    rw [read32_outside _ ho] at hread
    exact ⟨answers_settled hread rfl, fun v =>
      answers_settled ((hostWriteReg_four v s.dev h4).trans (write32_outside v _ ho)) rfl⟩
  · have hread := hostReadReg_eight s.dev h8
    rw [read64_outside _ ho (ho4 rfl)] at hread
    exact ⟨answers_settled hread rfl, fun v =>
      answers_settled ((hostWriteReg_eight v s.dev h8).trans (write64_outside v _ ho (ho4 rfl))) rfl⟩

/-- Settles O10: the low half latches the high one, which the next read takes from the latch or from the register. -/
theorem halvesRead : Obligations.HalvesRead := by
  intro s a r h
  have ⟨hr, hb, h8, _, hw, _⟩ := h
  have hlow := hostReadReg_four (a := a) s.dev (by omega)
  have hhigh := hostReadReg_four (a := a + 4) s.dev (by omega)
  have hwhole := hostReadReg_eight s.dev h8
  rw [read32_row _ (ne_clkPower_of_wide hr hb) hw hr, if_pos hb] at hlow
  rw [read64_wide _ h] at hwhole
  refine ⟨answers_settled hlow rfl, fun v hl => ?_, fun hl => ?_, answers_settled hwhole rfl⟩
  · rw [read32_high_latched _ h hl] at hhigh
    exact answers_settled hhigh rfl
  · rw [read32_high_current _ h hl] at hhigh
    exact answers_settled hhigh rfl

/-- Settles O11: the low half waits in the latch; the high half writes both, or is an access error. -/
theorem halvesWritten : Obligations.HalvesWritten := by
  intro s a v r h
  have ⟨_, _, h8, _⟩ := h
  have hlow := hostWriteReg_four (a := a) v s.dev (by omega)
  have hhigh := hostWriteReg_four (a := a + 4) v s.dev (by omega)
  have hwhole := hostWriteReg_eight v s.dev h8
  exact ⟨answers_settled (hlow.trans (write32_wide v _ h)) rfl,
    fun _ hl => answers_settled (hhigh.trans (write32_high_latched v _ h hl)) rfl,
    fun hl => answers_settled (hhigh.trans (write32_high_unlatched v _ h hl)) rfl,
    answers_settled (hwhole.trans (write64_wide v _ h)) rfl⟩

/-- Settles O12: a 32-bit access is one access of the row; a 64-bit write of two rows is the two 32-bit writes in order. -/
theorem narrowRegisters : Obligations.NarrowRegisters := by
  intro s a v r h
  have ⟨hr, hb, h4, hw⟩ := h
  have hwrite := (hostWriteReg_four v s.dev h4).trans (write32_narrow v _ h)
  refine ⟨answers_settled hwrite rfl, answers_settled hwrite rfl, fun hp => ?_, fun r' h8 h' => ?_⟩
  · have hread := hostReadReg_four s.dev h4
    rw [read32_row _ hp hw hr, if_neg hb] at hread
    exact answers_settled hread rfl
  · have hboth := (hostWriteReg_eight v s.dev h8).trans (write64_narrow v _ h)
    rw [write32_narrow v _ h, write32_narrow _ _ h'] at hboth
    exact answers_settled hboth rfl

end Sys2Proof.Machine
end

section
/-! Proofs: the orders of the image loader and of the map (O26, O27, O28, O43). -/

namespace Sys2Proof.Machine

/-- A command after which only the level registers follow, whose own work makes `d'`, answers what they make of `d'`. -/
theorem answers_synced {i : Instr} {s : State} {d d' : Dev} (h : d = d') (hi : effect i s.dev = syncLevels d) :
    Answers i s (syncLevels d') := answers_of_effect (hi.trans (congrArg syncLevels h))

/-! ## Orders of the image loader while it is busy (R86, R87) -/

theorem whenIdle_busy {d : Dev} (f : Dev → Dev) (h : d.getB R.IMG_STATUS_BUSY = true) :
    whenIdle f d = d.setB R.IMG_STATUS_CMD_REJECTED true := if_pos h

theorem whenIdle_idle {d : Dev} (f : Dev → Dev) (h : d.getB R.IMG_STATUS_BUSY = false) : whenIdle f d = f d := by
  simp [whenIdle, h]

theorem imgAbort_writingSlot {d : Dev} (h : d.getF R.IMG_STATUS_STATE = 4) : imgAbort d = d := by
  simp [imgAbort, h]

/-- Settles O26: each order of the loader but ABORT is guarded by `whenIdle`, and ABORT has no case for state 4. -/
theorem imageCommandWhileBusy : Obligations.ImageCommandWhileBusy := by
  intro s n c hb
  refine ⟨fun hc => ?_, fun h4 => answers_synced (imgAbort_writingSlot (d := dropLatches s.dev) h4) rfl⟩
  have hrej (f : Dev → Dev) := whenIdle_busy (d := dropLatches s.dev) f hb
  simp only [List.mem_cons, List.not_mem_nil, or_false] at hc
  rcases hc with rfl | rfl | rfl | rfl | rfl | rfl | rfl | rfl <;> exact answers_synced (hrej _) rfl

/-! ## Fetches of a pushed image and of a slot (R62) -/

/-- The pending image is discarded. -/
abbrev discardPending (d : Dev) : Dev := { d with img := { d.img with pending := none } }

theorem fetchPush_tooLong {d : Dev} (op : ImgOp) (h : 0x1000000 < d.getF R.IMG_PUSH_LEN_LEN) :
    fetchPush op d = (endImgOp 7 3 (discardPending d)).err R.E_IMG_REJECTS := if_pos h

theorem fetchPush_dmaStopped {d : Dev} (op : ImgOp) (h : d.getF R.IMG_PUSH_LEN_LEN ≤ 0x1000000) (hd : d.dmaOn = false) :
    fetchPush op d = endImgOp 7 0x16 (discardPending d) := by
  have hoff : (!(discardPending d).dmaOn) = true := by rw [show (discardPending d).dmaOn = false from hd]; rfl
  exact (if_neg (Nat.not_lt.2 h)).trans (if_pos hoff)

theorem fetchPush_starts {d : Dev} (op : ImgOp) (h : d.getF R.IMG_PUSH_LEN_LEN ≤ 0x1000000) (hd : d.dmaOn = true) :
    fetchPush op d = (startImgOp op 1 (discardPending d)).hostRead .imagePush
      (d.getF R.IMG_PUSH_ADDR_ADDR * 4096) (d.getF R.IMG_PUSH_LEN_LEN) none := by
  have hon : ¬ (!(discardPending d).dmaOn) = true := by rw [show (discardPending d).dmaOn = true from hd]; decide
  exact (if_neg (Nat.not_lt.2 h)).trans (if_neg hon)

/-! ## Orders to an idle loader (R62 to R64, R87) -/

section Idle

variable {d : Dev} (idle : d.getB R.IMG_STATUS_BUSY = false)

include idle

theorem imgVerify_idle : imgVerify d = fetchPush .verify d := whenIdle_idle _ idle

theorem imgApply_nothingVerified (hp : d.img.pending = none) : imgApply d = fetchPush .apply d := by
  simp [imgApply, whenIdle_idle _ idle, verified, hp]

theorem imgApplyOos_nothingVerified (hp : d.img.pending = none) : imgApplyOos d = endImgOp 7 0x17 d := by
  simp [imgApplyOos, whenIdle_idle _ idle, verified, hp, refuseImg]

theorem imgApplySlot_starts (slot : Nat) (hr : d.img.reread = none) :
    imgApplySlot slot d = fetchSlot (.applySlot (slot % 2)) (slot % 2) d := by
  simp [imgApplySlot, whenIdle_idle _ idle, hr]

theorem imgWriteSlot_nothingVerified (slot : Nat) (hp : d.img.pending = none) :
    imgWriteSlot slot d = endImgOp 7 0x17 d := by
  simp [imgWriteSlot, whenIdle_idle _ idle, verified, hp, refuseImg]

/-- The slot the head started from is protected while the other slot holds no valid image (R64). -/
theorem imgWriteSlot_protected (slot : Nat) (hp : d.img.pending ≠ none) (hb : d.getF R.IMG_BOOT_BOOTED = slot % 2)
    (ho : otherValid (slot % 2) d = false) : imgWriteSlot slot d = endImgOp 7 0x14 d := by
  simp [imgWriteSlot, whenIdle_idle _ idle, verified, hp, hb, ho, refuseImg]

theorem imgWriteSlot_starts (slot : Nat) (hp : d.img.pending ≠ none)
    (hs : ¬ (d.getF R.IMG_BOOT_BOOTED = slot % 2 ∧ otherValid (slot % 2) d = false)) (hr : d.img.reread = none) :
    let w := startImgOp (.writeSlot (slot % 2)) 4 d
    imgWriteSlot slot d = ({ w with img := { w.img with slotWrite := some (slot % 2, .erase) } } : Dev).emit
      (.qspi 1 (slot % 2 * 0x1000000) 0x1000000) := by
  simp [imgWriteSlot, whenIdle_idle _ idle, verified, hp, hs, hr]

theorem imgRevoke_runningKey (key : Nat) (hi : d.noImage = false) (hk : d.getF R.IMG_KEYS_RUN_KEY = key % 4) :
    imgRevoke key d = endImgOp 7 5 d := by
  simp [imgRevoke, whenIdle_idle _ idle, hi, hk, refuseImg]

theorem raiseSvn_starts (hi : d.noImage = false) : raiseSvn d = startFuse .raise d := by
  simp [raiseSvn, whenIdle_idle _ idle, hi]

end Idle

/-- Settles O27: each refusal is one branch of its order, taken once the loader is idle. -/
theorem imageCommandsRefused : Obligations.ImageCommandsRefused := by
  intro s slot key hb d fetch
  have idle : d.getB R.IMG_STATUS_BUSY = false := hb
  refine ⟨fun hp => ⟨?_, ?_⟩, fun hp hbooted ho => ?_, fun hl => ⟨?_, fun hp => ?_⟩, fun hl hd => ?_, fun hi hk => ?_⟩
  · exact answers_synced (imgWriteSlot_nothingVerified idle slot hp) rfl
  · exact answers_synced (imgApplyOos_nothingVerified idle hp) rfl
  · exact answers_synced (imgWriteSlot_protected idle slot hp hbooted ho) rfl
  · exact answers_synced ((imgVerify_idle idle).trans (fetchPush_tooLong .verify hl)) rfl
  · exact answers_synced ((imgApply_nothingVerified idle hp).trans (fetchPush_tooLong .apply hl)) rfl
  · exact answers_synced ((imgVerify_idle idle).trans (fetchPush_dmaStopped .verify hl hd)) rfl
  · exact answers_synced (imgRevoke_runningKey idle key hi hk) rfl

/-- Settles O28: past its refusals each order starts its fetch, its erase or its fuse. -/
theorem imageCommandsStart : Obligations.ImageCommandsStart := by
  intro s slot hb d fetch
  have idle : d.getB R.IMG_STATUS_BUSY = false := hb
  refine ⟨fun hl hd => ?_, fun hr => ?_, fun hp hs hr => ?_, fun hi => ?_⟩
  · exact answers_synced ((imgVerify_idle idle).trans (fetchPush_starts .verify hl hd)) rfl
  · exact answers_synced (imgApplySlot_starts idle slot hr) rfl
  · exact answers_synced (imgWriteSlot_starts idle slot hp hs hr) rfl
  · exact answers_synced (raiseSvn_starts idle hi) rfl

/-! ## Orders of the map (R248, R260, R261) -/

theorem mapInvalidate_busy {d : Dev} (h : d.getF R.MAP_STATE_INV ≠ 0) :
    mapInvalidate d = d.setB R.MAP_STATE_CMD_REJECTED true := if_pos h

theorem mapInvalidate_idle {d : Dev} (h : d.getF R.MAP_STATE_INV = 0) : mapInvalidate d = d.setF R.MAP_STATE_INV 1 :=
  if_neg (not_not.2 h)

theorem invalidatePhaseEnd_idle {d : Dev} (h : d.getF R.MAP_STATE_INV = 0) : invalidatePhaseEnd d = d := by
  simp [invalidatePhaseEnd, h]

/-- The end of the final move empties the cache and starts the walk. -/
theorem invalidatePhaseEnd_move {d : Dev} (h : d.getF R.MAP_STATE_INV = 2) :
    let w := d.setF R.MAP_STATE_INV 3
    invalidatePhaseEnd d = syncMap { w with map := { w.map with lines := [], walkSince := d.now } } := by
  simp [invalidatePhaseEnd, h]

theorem mapAnchorCmd_cutting {d : Dev} (h : d.map.cut ≠ none) :
    mapAnchorCmd d = d.setB R.MAP_STATE_CMD_REJECTED true := if_pos (Option.isSome_iff_ne_none.2 h)

theorem mapAnchorCmd_free {d : Dev} (h : d.map.cut = none) : mapAnchorCmd d = pumpAnchor (cutAnchor d) := by
  simp [mapAnchorCmd, h]

theorem anchorTimer_cutting {d : Dev} (h : d.map.cut ≠ none) : anchorTimer d = d :=
  if_pos (Option.isSome_iff_ne_none.2 h)

theorem anchorTimer_free {d : Dev} (h : d.map.cut = none) : anchorTimer d = pumpAnchor (cutAnchor d) := by
  simp [anchorTimer, h]

theorem anchorDurable_free {d : Dev} (h : d.map.cut = none) : anchorDurable d = d := by
  simp [anchorDurable, h]

theorem resetWalkEnd_noWalk {d : Dev} (h : d.getB R.MAP_STATE_RESET_WALK = false) : resetWalkEnd d = d := by
  simp [resetWalkEnd, h]

theorem resetWalkEnd_walk {d : Dev} (h : d.getB R.MAP_STATE_RESET_WALK = true) :
    let w := (endWalk d).setB R.MAP_STATE_RESET_WALK false
    resetWalkEnd d = resumeStalled (applyDeferred (syncMap { w with map := { w.map with lines := [], plru := [] } })) := by
  simp [resetWalkEnd, h]

/-- The run-time settings that a write of a pin entry makes stand (R44): the fields of its two registers, by their lowest bits. -/
def pinSettings (pin : Nat) : List (Nat × Nat) :=
  [(R.MAP_PIN_KEY pin, 0), (R.MAP_PIN_KEY pin, 33), (R.MAP_PIN_KEY pin, 36), (R.MAP_PIN_CTL pin, 0), (R.MAP_PIN_CTL pin, 4)]

/-- Settles O43: the guard of each order decides which of its branches acts; a parity error and a pin write have no guard, and a pin
write adds the settings of its entry to those the host has written. -/
theorem mapOrders : Obligations.MapOrders := by
  intro s pin key span set valid d t p q
  refine ⟨fun h => ?_, fun h => ⟨?_, ?_⟩, fun h => ⟨?_, ?_⟩, fun h => ⟨?_, ?_, ?_⟩, fun h => ?_, fun h => ?_, fun h => ?_, ?_,
    q.img.hostSet.filter (fun x => !(pinSettings pin).contains x) ++ pinSettings pin, ?_⟩
  · exact answers_settled (mapInvalidate_busy (d := d) h) rfl
  · exact answers_settled (mapInvalidate_idle (d := d) h) rfl
  · exact answers_settled (invalidatePhaseEnd_idle h) rfl
  · exact answers_settled (mapAnchorCmd_cutting (d := d) h) rfl
  · exact answers_settled (anchorTimer_cutting h) rfl
  · exact answers_settled (mapAnchorCmd_free (d := d) h) rfl
  · exact answers_settled (anchorTimer_free h) rfl
  · exact answers_settled (anchorDurable_free h) rfl
  · exact answers_settled (invalidatePhaseEnd_move h) rfl
  · exact answers_settled (resetWalkEnd_noWalk h) rfl
  · exact answers_settled (resetWalkEnd_walk h) rfl
  · exact answers_of_effect rfl
  · exact answers_of_effect rfl

end Sys2Proof.Machine
end

section
/-! Proofs: bytes stored in DRAM (O40). -/

namespace Sys2Proof.Machine

/-! ## One byte of a DRAM list cut in two -/

/-- Cells that follow and do not lie at an address do not change what is read there. -/
theorem memRead_append_left (m n : List Host.Cell) (c : Nat) (h : ∀ e ∈ n, e.1 ≠ c) : memRead (m ++ n) c = memRead m c := by
  induction m with
  | nil =>
    induction n with
    | nil => rfl
    | cons e r ih =>
      obtain ⟨he, hr⟩ := List.forall_mem_cons.1 h
      simpa [memRead, tabGet, tabFind, he] using ih hr
  | cons e r ih =>
    by_cases he : e.1 = c
    · simp [memRead, tabGet, tabFind, he]
    · simpa [memRead, tabGet, tabFind, he] using ih

/-- Cells that go before and do not lie at an address do not change what is read there. -/
theorem memRead_append_right (m n : List Host.Cell) (c : Nat) (h : ∀ e ∈ m, e.1 ≠ c) : memRead (m ++ n) c = memRead n c := by
  induction m with
  | nil => rfl
  | cons e r ih =>
    obtain ⟨he, hr⟩ := List.forall_mem_cons.1 h
    simpa [memRead, tabGet, tabFind, he] using ih hr

theorem memRead_cons_other (e : Host.Cell) (m : List Host.Cell) (c : Nat) (h : e.1 ≠ c) : memRead (e :: m) c = memRead m c :=
  memRead_append_right [e] m c (by simpa using h)

theorem memRead_absent (m : List Host.Cell) (c : Nat) (h : ∀ e ∈ m, e.1 ≠ c) : memRead m c = 0#8 :=
  memRead_append_left [] m c h

/-- The cells of a DRAM list that lie below an address, which a store keeps in front of the stored ones. -/
abbrev memBelow (m : List Host.Cell) (a : Nat) : List Host.Cell := m.takeWhile fun e => decide (e.1 < a)

/-- The cells of a DRAM list from an address up. -/
abbrev memFrom (m : List Host.Cell) (a : Nat) : List Host.Cell := m.dropWhile fun e => decide (e.1 < a)

theorem memBelow_append_memFrom (m : List Host.Cell) (a : Nat) : memBelow m a ++ memFrom m a = m := List.takeWhile_append_dropWhile

theorem lt_of_mem_memBelow {m : List Host.Cell} {a : Nat} {e : Host.Cell} (h : e ∈ memBelow m a) : e.1 < a := by
  simpa using List.mem_takeWhile_imp h

/-- Where addresses rise, every cell left after those below an address lies at it or above. -/
theorem le_of_mem_memFrom {m : List Host.Cell} {a : Nat} (hs : tabSorted m = true) {e : Host.Cell} (h : e ∈ memFrom m a) : a ≤ e.1 := by
  rw [tabSorted_iff] at hs
  induction m with
  | nil => simp at h
  | cons f r ih =>
    obtain ⟨hf, hr⟩ := List.pairwise_cons.1 hs
    by_cases hlt : f.1 < a
    · rw [memFrom, List.dropWhile_cons_of_pos (by simpa using hlt)] at h
      exact ih hr h
    · rw [memFrom, List.dropWhile_cons_of_neg (by simpa using hlt)] at h
      rcases List.mem_cons.1 h with rfl | h
      · omega
      · have : f.1 < e.1 := hf e.1 (List.mem_map_of_mem h)
        omega

theorem tabSorted_memFrom {m : List Host.Cell} (a : Nat) (hs : tabSorted m = true) : tabSorted (memFrom m a) = true := by
  rw [tabSorted_iff] at *
  exact hs.sublist ((List.dropWhile_sublist _).map _)

theorem memRead_memFrom (m : List Host.Cell) {a c : Nat} (h : a ≤ c) : memRead (memFrom m a) c = memRead m c := by
  have hskip := memRead_append_right (memBelow m a) (memFrom m a) c fun e he => by
    have := lt_of_mem_memBelow he
    omega
  rw [← hskip, memBelow_append_memFrom]

theorem memRead_memBelow {m : List Host.Cell} (hs : tabSorted m = true) {a c : Nat} (h : c < a) :
    memRead (memBelow m a) c = memRead m c := by
  have hskip := memRead_append_left (memBelow m a) (memFrom m a) c fun e he => by
    have := le_of_mem_memFrom hs he
    omega
  rw [← hskip, memBelow_append_memFrom]

/-! ## A run of bytes is its bytes one by one -/

/-- Reading a run of cells in one pass gives what reading each address gives. -/
theorem memRun_eq_map (n : Nat) : ∀ (m : List Host.Cell) (a : Nat), tabSorted m = true → (∀ e ∈ m, a ≤ e.1) →
    memRun m a n = (List.range' a n).map (memRead m) := by
  induction n with
  | zero => intros; rfl
  | succ n ih =>
    intro m a hs hlow
    rw [List.range'_succ, List.map_cons]
    match m with
    | [] => rw [memRun, ih [] (a + 1) hs (by simp), memRead_absent [] a (by simp)]
    | (k, v) :: r =>
      obtain ⟨hk, hr⟩ := List.pairwise_cons.1 ((tabSorted_iff _).1 hs)
      have hrise : ∀ e ∈ r, k < e.1 := fun e he => hk e.1 (List.mem_map_of_mem he)
      have hak : a ≤ k := hlow _ List.mem_cons_self
      by_cases h : k = a
      · subst h
        have htail : (List.range' (k + 1) n).map (memRead ((k, v) :: r)) = (List.range' (k + 1) n).map (memRead r) :=
          List.map_congr_left fun c hc => memRead_cons_other _ _ _ (by
            have := (List.mem_range'_1.1 hc).1
            show k ≠ c
            omega)
        have hhead : memRead ((k, v) :: r) k = v := by simp [memRead, tabGet, tabFind]
        rw [memRun, if_pos rfl, ih r (k + 1) ((tabSorted_iff _).2 hr) hrise, htail, hhead]
      · have hhigh : ∀ e ∈ (k, v) :: r, a + 1 ≤ e.1 := by
          refine List.forall_mem_cons.2 ⟨by show a + 1 ≤ k; omega, fun e he => ?_⟩
          have := hrise e he
          omega
        rw [memRun, if_neg h, ih _ (a + 1) hs hhigh, memRead_absent _ a fun e he => by
          have := hhigh e he
          omega]

/-- A range of a canonical DRAM is the bytes of its addresses. -/
theorem memBytes_eq_map (d : Dev) (a n : Nat) (h : memWf d.dram = true) :
    d.memBytes a n = (List.range' a n).map (memRead d.dram) := by
  have hs : tabSorted d.dram = true := (Bool.and_eq_true_iff.1 h).1
  refine (memRun_eq_map n (memFrom d.dram a) a (tabSorted_memFrom a hs) fun e he => le_of_mem_memFrom hs he).trans ?_
  exact List.map_congr_left fun c hc => memRead_memFrom _ (List.mem_range'_1.1 hc).1

/-! ## What a store leaves (R94) -/

/-- The cells made of a string spell it. -/
theorem memRead_memCells (b : Bytes) : ∀ a, (List.range' a b.length).map (memRead (memCells a b)) = b := by
  induction b with
  | nil => intro a; rfl
  | cons x r ih =>
    intro a
    have habove : ∀ e ∈ memCells (a + 1) r, e.1 ≠ a := fun e he => by
      have := (memCells_bound (a + 1) r e he).1
      omega
    have hhead : memRead (memCells a (x :: r)) a = x := by
      unfold memCells
      split
      next hx => exact hx ▸ memRead_absent _ a habove
      next => simp [memRead, tabGet, tabFind]
    have htail : ∀ c ∈ List.range' (a + 1) r.length, memRead (memCells a (x :: r)) c = memRead (memCells (a + 1) r) c := by
      intro c hc
      have hc' := (List.mem_range'_1.1 hc).1
      rw [memCells]
      split
      · rfl
      · exact memRead_cons_other _ _ _ (by show a ≠ c; omega)
    rw [List.length_cons, List.range'_succ, List.map_cons, hhead, List.map_congr_left htail, ih]

/-- Inside the stored range a byte is read from the stored cells. -/
theorem memRead_writeAll_inside {m : List Host.Cell} (hs : tabSorted m = true) {a c : Nat} {b : Bytes} (hl : a ≤ c)
    (hu : c < a + b.length) : memRead (memWriteAll m a b) c = memRead (memCells a b) c := by
  have habove := memRead_append_left (memBelow m a ++ memCells a b) (memFrom m (a + b.length)) c fun e he => by
    have := le_of_mem_memFrom hs he
    omega
  have hbelow := memRead_append_right (memBelow m a) (memCells a b) c fun e he => by
    have := lt_of_mem_memBelow he
    omega
  exact habove.trans hbelow

/-- Outside the stored range every byte is as before. -/
theorem memRead_writeAll_outside {m : List Host.Cell} (hs : tabSorted m = true) {a c : Nat} {b : Bytes}
    (h : c < a ∨ a + b.length ≤ c) : memRead (memWriteAll m a b) c = memRead m c := by
  have hcells : ∀ e ∈ memCells a b, a ≤ e.1 ∧ e.1 < a + b.length := fun e he => by
    obtain ⟨hl, hu, -⟩ := memCells_bound a b e he
    exact ⟨hl, hu⟩
  rcases h with h | h
  · have habove := memRead_append_left (memBelow m a) (memCells a b ++ memFrom m (a + b.length)) c fun e he => by
      rcases List.mem_append.1 he with he | he
      · have := (hcells e he).1
        omega
      · have := le_of_mem_memFrom hs he
        omega
    rw [← List.append_assoc] at habove
    exact habove.trans (memRead_memBelow hs h)
  · have hbelow := memRead_append_right (memBelow m a ++ memCells a b) (memFrom m (a + b.length)) c fun e he => by
      rcases List.mem_append.1 he with he | he
      · have := lt_of_mem_memBelow he
        omega
      · have := (hcells e he).2
        omega
    exact hbelow.trans (memRead_memFrom m h)

/-- Settles O40: a range is read byte by byte, and a stored cell list answers each byte from the string inside its range and from the
old list outside it. -/
theorem storedBytesRead : Obligations.StoredBytesRead := by
  intro d a b hwf
  have hs : tabSorted d.dram = true := (Bool.and_eq_true_iff.1 hwf).1
  have hwf' := memWf_memStore d a b hwf
  have hinside : (List.range' a b.length).map (memRead (memWriteAll d.dram a b)) =
      (List.range' a b.length).map (memRead (memCells a b)) := List.map_congr_left fun c hc => by
    obtain ⟨hl, hu⟩ := List.mem_range'_1.1 hc
    exact memRead_writeAll_inside hs hl hu
  refine ⟨?_, fun c n hout => ?_, fun c hout => memRead_writeAll_outside hs hout, hwf'⟩
  · exact (memBytes_eq_map _ _ _ hwf').trans (hinside.trans (memRead_memCells b a))
  · rw [memBytes_eq_map _ _ _ hwf', memBytes_eq_map _ _ _ hwf]
    refine List.map_congr_left fun x hx => memRead_writeAll_outside hs ?_
    have := List.mem_range'_1.1 hx
    omega

end Sys2Proof.Machine
end

section
/-! Proofs: power states of the trays and their polls (O31, O35). -/

namespace Sys2Proof.Machine

/-! ## The registers of a tray's power state (R110, R119) -/

theorem rd_setF_same (d : Dev) (a lo w v : Nat) (h : lo + w ≤ 64) : (d.setF ⟨a, lo, w⟩ v).rd a = setBitsAt (d.rd a) lo w v :=
  (rd_wr_same _ _ _).trans (Nat.mod_eq_of_lt (setBitsAt_lt _ _ _ _ _ (rd_lt d a) h))

theorem rd_stat_same (d : Dev) (a n : Nat) : (d.stat a n).rd a = (d.rd a + n) % 2 ^ 64 := by
  rw [Dev.stat, rd_wr_same, Nat.mod_mod]

theorem rd_stat_other (d : Dev) (a b n : Nat) (h : a ≠ b) : (d.stat a n).rd b = d.rd b := rd_wr_other _ _ _ _ h

/-- The registers that a change of a tray's power state writes. -/
def powerRegisters (t : Nat) : List Nat := [R.TRY_TC_STATE t, R.TRY_BAKE, R.TRY_FENCED, R.TRY_TC_BAKE_NS t]

/-- They lie at four addresses. -/
theorem powerRegisters_apart (t : Nat) : R.TRY_TC_STATE t ≠ R.TRY_BAKE ∧ R.TRY_TC_STATE t ≠ R.TRY_FENCED ∧
    R.TRY_TC_STATE t ≠ R.TRY_TC_BAKE_NS t ∧ R.TRY_BAKE ≠ R.TRY_FENCED ∧ R.TRY_BAKE ≠ R.TRY_TC_BAKE_NS t ∧
    R.TRY_FENCED ≠ R.TRY_TC_BAKE_NS t := by
  simp only [R.TRY_TC_STATE, R.TRY_BAKE, R.TRY_FENCED, R.TRY_TC_BAKE_NS, sa]
  omega

/-- Another tray's state register is none of them. -/
theorem trayState_notMem_powerRegisters {t u : Nat} (h : u ≠ t) : R.TRY_TC_STATE u ∉ powerRegisters t := by
  simp only [powerRegisters, R.TRY_TC_STATE, R.TRY_BAKE, R.TRY_FENCED, R.TRY_TC_BAKE_NS, sa, List.mem_cons, List.not_mem_nil,
    or_false, not_or]
  omega

/-- What a change of a tray's power state adds to its time at Bake. -/
def bakeSpent (t : Nat) (d : Dev) : Nat := if d.power t = 2 then d.now - (d.trayX t).bakeSince else 0

section SetPower

variable (t p : Nat) (d : Dev)

/-- The four registers under the five writes of a change of power state, in their order. -/
theorem setPower_rd (a : Nat) : (setPower t p d).rd a = (((((d.setF ⟨R.TRY_TC_STATE t, 0, 2⟩ p).setF ⟨R.TRY_BAKE, t, 1⟩
    (b2n (p == 2))).setF ⟨R.TRY_FENCED, t, 1⟩ (b2n (p == 3))).stat (R.TRY_TC_BAKE_NS t) (bakeSpent t d)).setF
    ⟨R.TRY_TC_STATE t, 5, 1⟩ (b2n false)).rd a := by
  simp only [setPower, Dev.setB, R.TRY_TC_STATE_POWER, R.TRY_TC_STATE_GOING_COLD, Dev.modTray_rd, bakeSpent]

theorem setPower_rd_other {a : Nat} (h : a ∉ powerRegisters t) : (setPower t p d).rd a = d.rd a := by
  simp only [powerRegisters, List.mem_cons, List.not_mem_nil, or_false, not_or] at h
  obtain ⟨hs, hb, hf, hn⟩ := h
  rw [setPower_rd, rd_setF_other _ _ _ _ (Ne.symm hs), rd_stat_other _ _ _ _ (Ne.symm hn), rd_setF_other _ _ _ _ (Ne.symm hf),
    rd_setF_other _ _ _ _ (Ne.symm hb), rd_setF_other _ _ _ _ (Ne.symm hs)]

theorem setPower_rd_state : (setPower t p d).rd (R.TRY_TC_STATE t) =
    setBitsAt (setBitsAt (d.rd (R.TRY_TC_STATE t)) 0 2 p) 5 1 (b2n false) := by
  obtain ⟨hsb, hsf, hsn, -⟩ := powerRegisters_apart t
  rw [setPower_rd, rd_setF_same _ _ _ _ _ (by omega), rd_stat_other _ _ _ _ (Ne.symm hsn), rd_setF_other _ _ _ _ (Ne.symm hsf),
    rd_setF_other _ _ _ _ (Ne.symm hsb), rd_setF_same _ _ _ _ _ (by omega)]

theorem setPower_rd_bake (ht : t < 24) : (setPower t p d).rd R.TRY_BAKE = setBitsAt (d.rd R.TRY_BAKE) t 1 (b2n (p == 2)) := by
  obtain ⟨hsb, -, -, hbf, hbn, -⟩ := powerRegisters_apart t
  rw [setPower_rd, rd_setF_other _ _ _ _ hsb, rd_stat_other _ _ _ _ (Ne.symm hbn), rd_setF_other _ _ _ _ (Ne.symm hbf),
    rd_setF_same _ _ _ _ _ (by omega), rd_setF_other _ _ _ _ hsb]

theorem setPower_rd_fenced (ht : t < 24) :
    (setPower t p d).rd R.TRY_FENCED = setBitsAt (d.rd R.TRY_FENCED) t 1 (b2n (p == 3)) := by
  obtain ⟨-, hsf, -, hbf, -, hfn⟩ := powerRegisters_apart t
  rw [setPower_rd, rd_setF_other _ _ _ _ hsf, rd_stat_other _ _ _ _ (Ne.symm hfn), rd_setF_same _ _ _ _ _ (by omega),
    rd_setF_other _ _ _ _ hbf, rd_setF_other _ _ _ _ hsf]

theorem setPower_rd_bakeNs :
    (setPower t p d).rd (R.TRY_TC_BAKE_NS t) = (d.rd (R.TRY_TC_BAKE_NS t) + bakeSpent t d) % 2 ^ 64 := by
  obtain ⟨-, -, hsn, -, hbn, hfn⟩ := powerRegisters_apart t
  rw [setPower_rd, rd_setF_other _ _ _ _ hsn, rd_stat_same, rd_setF_other _ _ _ _ hfn, rd_setF_other _ _ _ _ hbn,
    rd_setF_other _ _ _ _ hsn]

end SetPower

/-- One bit of a number after a write of one bit: the bit written. -/
theorem bitAt_setBit_same (v i : Nat) (b : Bool) : bitAt (setBitsAt v i 1 (b2n b)) i = b := by
  rw [bitAt_eq_bitsAt, bitsAt_set_same]
  cases b <;> rfl

/-- One bit of a number after a write of one bit: any other bit. -/
theorem bitAt_setBit_other (v x : Nat) {i j : Nat} (h : j ≠ i) : bitAt (setBitsAt v i 1 x) j = bitAt v j := by
  rw [bitAt_eq_bitsAt, bitsAt_set_other _ _ _ _ _ _ (by omega), bitAt_eq_bitsAt]

theorem power_setPower (t : Nat) {p : Nat} (hp : p < 4) (d : Dev) : (setPower t p d).power t = p := by
  show bitsAt ((setPower t p d).rd (R.TRY_TC_STATE t)) 0 2 = p
  rw [setPower_rd_state, bitsAt_set_other _ _ _ _ _ _ (by omega), bitsAt_set_same]
  exact Nat.mod_eq_of_lt hp

theorem goingCold_setPower (t p : Nat) (d : Dev) : (setPower t p d).goingCold t = false := by
  have hbit : bitsAt ((setPower t p d).rd (R.TRY_TC_STATE t)) 5 1 = 0 := by
    rw [setPower_rd_state, bitsAt_set_same]
    rfl
  show (bitsAt ((setPower t p d).rd (R.TRY_TC_STATE t)) 5 1 != 0) = false
  rw [hbit]
  rfl

theorem getF_setPower_other (t p : Nat) (d : Dev) (f : Field) (h : f.sa ∉ powerRegisters t) : (setPower t p d).getF f = d.getF f := by
  rw [Dev.getF, setPower_rd_other t p d h, Dev.getF]

/-- Settles O31: a change of power state writes four registers, of which each other tray keeps its own and its two bits. -/
theorem trayPowerRegisters : Obligations.TrayPowerRegisters := by
  intro d t u p ht _ hut hp e
  have hu := trayState_notMem_powerRegisters hut
  refine ⟨power_setPower t hp d, goingCold_setPower t p d, ?_, ?_, getF_setPower_other t p d _ hu, ?_, ?_, ?_, fun h2 => ?_⟩
  · rw [setPower_rd_bake t p d ht, bitAt_setBit_same]
    exact beq_eq_decide _ _
  · rw [setPower_rd_fenced t p d ht, bitAt_setBit_same]
    exact beq_eq_decide _ _
  · exact congrArg (· != 0) (getF_setPower_other t p d (R.TRY_TC_STATE_GOING_COLD u) hu)
  · rw [setPower_rd_bake t p d ht, bitAt_setBit_other _ _ hut]
  · rw [setPower_rd_fenced t p d ht, bitAt_setBit_other _ _ hut]
  · rw [setPower_rd_bakeNs, bakeSpent, if_pos h2]

/-! ## Polls of the trays (R116) -/

/-- What a poll makes of one tray. -/
def pollTray (missed t : Nat) (d : Dev) : Dev :=
  if d.power t ≠ 2 then d
  else if bitAt missed t then
    if (d.trayX t).missed ≥ 1 then trayFault t d else d.modTray t fun x => { x with missed := x.missed + 1 }
  else d.modTray t fun x => { x with missed := 0 }

theorem trayPoll_eq (missed : Nat) (d : Dev) : trayPoll missed d = forEach (List.range 24) (pollTray missed) d := rfl

/-- The count of a Bake tray's missed polls after one that does not fault it. -/
def polled (missed t : Nat) (x : TrayX) : TrayX := { x with missed := if bitAt missed t then x.missed + 1 else 0 }

theorem pollTray_notBake {missed t : Nat} {d : Dev} (h : d.power t ≠ 2) : pollTray missed t d = d := if_pos h

theorem pollTray_bake {missed t : Nat} {d : Dev} (h : d.power t = 2) (h0 : bitAt missed t = true → (d.trayX t).missed = 0) :
    pollTray missed t d = d.modTray t (polled missed t) := by
  rw [pollTray, if_neg (not_not.2 h)]
  by_cases hb : bitAt missed t = true
  · rw [if_pos hb, if_neg (by simp [h0 hb])]
    exact congrArg (d.modTray t) (funext fun x => by simp [polled, hb])
  · rw [if_neg hb]
    exact congrArg (d.modTray t) (funext fun x => by simp [polled, hb])

theorem pollTray_secondMiss {missed t : Nat} {d : Dev} (h : d.power t = 2) (hb : bitAt missed t = true)
    (h1 : 1 ≤ (d.trayX t).missed) : pollTray missed t d = trayFault t d := by
  simp [pollTray, h, hb, h1]

/-- Trays none of which is at Bake are passed over. -/
theorem forEach_pollTray_notBake {missed : Nat} {d : Dev} {ts : List Nat} (h : ∀ t ∈ ts, d.power t ≠ 2) :
    forEach ts (pollTray missed) d = d := by
  induction ts with
  | nil => rfl
  | cons t r ih =>
    obtain ⟨ht, hr⟩ := List.forall_mem_cons.1 h
    rw [forEach_cons, pollTray_notBake ht, ih hr]

/-- A poll in which no Bake tray misses a second time changes the count of missed polls of each Bake tray and nothing else. -/
theorem forEach_pollTray_noSecondMiss {missed : Nat} (ts : List Nat) (hnd : ts.Nodup) : ∀ d : Dev,
    (∀ t ∈ ts, d.power t = 2 → bitAt missed t = true → (d.trayX t).missed = 0) →
    let e := forEach ts (pollTray missed) d
    e = { d with tray := { d.tray with trays := e.tray.trays } } ∧
      ∀ t, e.trayX t = if t ∈ ts ∧ d.power t = 2 then polled missed t (d.trayX t) else d.trayX t := by
  induction ts with
  | nil => intro d _; exact ⟨rfl, fun t => by simp⟩
  | cons u r ih =>
    intro d h
    obtain ⟨hu, hr⟩ := List.forall_mem_cons.1 h
    obtain ⟨hur, hnd⟩ := List.nodup_cons.1 hnd
    by_cases h2 : d.power u = 2
    · have hother : ∀ t ∈ r, (d.modTray u (polled missed u)).trayX t = d.trayX t := fun t ht =>
        Dev.modTray_other d u t _ fun hut => hur (hut ▸ ht)
      have hr' : ∀ t ∈ r, (d.modTray u (polled missed u)).power t = 2 → bitAt missed t = true →
          ((d.modTray u (polled missed u)).trayX t).missed = 0 := fun t ht => hother t ht ▸ hr t ht
      obtain ⟨hframe, htrays⟩ := ih hnd _ hr'
      rw [forEach_cons, pollTray_bake h2 (hu h2)]
      refine ⟨hframe, fun t => (htrays t).trans ?_⟩
      by_cases htu : u = t
      · subst htu
        simp [hur, h2]
      · have hpower : (d.modTray u (polled missed u)).power t = d.power t := rfl
        simp [hpower, htu, Ne.symm htu]
    · rw [forEach_cons, pollTray_notBake h2]
      obtain ⟨hframe, htrays⟩ := ih hnd d hr
      refine ⟨hframe, fun t => (htrays t).trans ?_⟩
      by_cases htu : t = u
      · subst htu
        simp [h2]
      · simp [htu]

/-- The trays of a poll are those before one tray, the tray itself and those after it. -/
theorem range_split {t n : Nat} (h : t < n) : List.range n = List.range t ++ t :: List.range' (t + 1) (n - t - 1) := by
  obtain ⟨k, rfl⟩ : ∃ k, n = t + (k + 1) := ⟨n - t - 1, by omega⟩
  rw [List.range_eq_range', List.range_eq_range', ← List.range'_append_1, List.range'_succ, Nat.zero_add,
    show t + (k + 1) - t - 1 = k by omega]

/-- A poll that faults a tray which alone is at Bake, before and after, does nothing else. -/
theorem trayPoll_soleBake {missed t : Nat} {d : Dev} (ht : t < 24) (h2 : d.power t = 2) (hb : bitAt missed t = true)
    (h1 : 1 ≤ (d.trayX t).missed) (hbefore : ∀ u, u < t → d.power u ≠ 2)
    (hafter : ∀ u, t < u → u < 24 → (trayFault t d).power u ≠ 2) : trayPoll missed d = trayFault t d := by
  have hlow : forEach (List.range t) (pollTray missed) d = d :=
    forEach_pollTray_notBake fun u hu => hbefore u (List.mem_range.1 hu)
  have hhigh : forEach (List.range' (t + 1) (24 - t - 1)) (pollTray missed) (trayFault t d) = trayFault t d :=
    forEach_pollTray_notBake fun u hu => by
      have := List.mem_range'_1.1 hu
      exact hafter u (by omega) (by omega)
  rw [trayPoll_eq, range_split ht, forEach, List.foldl_append, List.foldl_cons]
  change forEach _ (pollTray missed) (pollTray missed t (forEach _ (pollTray missed) d)) = _
  rw [hlow, pollTray_secondMiss h2 hb h1, hhigh]

/-- Settles O35: the poll goes through the trays once; where none faults it changes their counts alone, and a sole Bake tray's fault
finds no other tray to poll. -/
theorem trayPolls : Obligations.TrayPolls := by
  intro s missed
  constructor
  · intro h
    obtain ⟨hframe, htrays⟩ := forEach_pollTray_noSecondMiss (List.range 24) List.nodup_range s.dev
      fun t ht => h t (List.mem_range.1 ht)
    refine ⟨trayPoll missed s.dev, answers_of_effect rfl, (congrArg Dev.regs hframe :), (congrArg Dev.evt hframe :),
      (congrArg Dev.dram hframe :), hframe, fun t => ?_⟩
    simpa only [trayPoll_eq, List.mem_range, polled] using htrays t
  · intro t ht h2 hm h1 hbefore hafter
    have hb : bitAt missed t = true := by simp [hm, bitAt]
    exact answers_synced (trayPoll_soleBake ht h2 hb h1 hbefore hafter) rfl

end Sys2Proof.Machine
end

section
/-! Proofs: the orders of trays and rolls, one equation for each branch of a command (O30, O32 to O34). -/

namespace Sys2Proof.Machine

/-! ## Waking and going Cold (R110, R111) -/

theorem trayPllLocked_proof {t : Nat} {d : Dev} (h : d.power t = 1) : trayPllLocked t d =
    (d.setF ⟨R.CLK_DOMAINS, 8 + t, 1⟩ 1).modTray t fun x => { x with pll := true } := if_pos h

theorem trayPllLocked_notProof {t : Nat} {d : Dev} (h : d.power t ≠ 1) : trayPllLocked t d = d := if_neg h

theorem trayControllerResumed_locked {t : Nat} {d : Dev} (h : d.power t = 1) (hp : (d.trayX t).pll = true) :
    trayControllerResumed t d = setPower t 2 (markRolls t 7 0 d) := if_pos ⟨h, hp⟩

theorem trayControllerResumed_notProof {t : Nat} {d : Dev} (h : d.power t ≠ 1) : trayControllerResumed t d = d :=
  if_neg fun hc => h hc.1

/-- A tray may go Cold: at Bake and going Cold, with nothing in its ring, no roll busy and no test. -/
def mayGoCold (t : Nat) (d : Dev) : Prop :=
  d.power t = 2 ∧ d.goingCold t = true ∧ (d.trayX t).ring = [] ∧ busyCount d t = 0 ∧ testing d t = false

theorem trayGoesCold_ready {t : Nat} {d : Dev} (h : mayGoCold t d) : trayGoesCold t d = toCold t d :=
  if_pos (by simpa [mayGoCold] using h)

theorem trayGoesCold_notReady {t : Nat} {d : Dev} (h : ¬ mayGoCold t d) : trayGoesCold t d = d :=
  if_neg (by simpa [mayGoCold] using h)

theorem wakeDecision_loaded {plane pers t : Nat} {d : Dev} (ho : groupOpen d plane pers = true)
    (hl : d.getF R.TRY_WAKE_WAKE_HI * (groupLoad d plane pers).2 < (groupLoad d plane pers).1)
    (hf : (groupTrays d plane pers).find? (fun t => d.power t == 0 || (d.power t == 2 && d.goingCold t)) = some t) :
    wakeDecision plane pers d = wakeTray t d := by
  simp [wakeDecision, ho, hl, hf]

/-- Settles O30: each command acts under its guard on the tray's power state, and under its negation leaves the head. -/
theorem trayPowerStates : Obligations.TrayPowerStates := by
  intro s t plane pers
  refine ⟨fun h => ?_, fun h => ⟨?_, ?_⟩, fun h hp => ?_, fun h hg hr hb ht => ?_, fun h => ?_, fun ho hl hf => ?_⟩
  · exact answers_synced (trayPllLocked_proof h) rfl
  · exact answers_synced (trayPllLocked_notProof h) rfl
  · exact answers_synced (trayControllerResumed_notProof h) rfl
  · exact answers_synced (trayControllerResumed_locked h hp) rfl
  · exact answers_synced (trayGoesCold_ready ⟨h, hg, hr, hb, ht⟩) rfl
  · have hnot : ¬ mayGoCold t s.dev := by
      rintro ⟨h2, hg, hr, hb, ht⟩
      simp [h2, hg, hr, hb, ht] at h
    exact answers_synced (trayGoesCold_notReady hnot) rfl
  · exact answers_synced (wakeDecision_loaded ho hl hf) rfl

/-! ## Requests of roll tests (R115, R119) -/

theorem testRequest_withoutGo (tray roll : Nat) (d : Dev) : testRequest tray roll false d = d := rfl

theorem testRequest_noTray {tray : Nat} (roll : Nat) (d : Dev) (h : 24 ≤ tray % 32) :
    testRequest tray roll true d = d.setF R.TRY_TEST_STATUS_RESULT 6 := by
  simp [testRequest, trayCount, h]

section OfTray

variable {tray : Nat} (roll : Nat) {d : Dev} (ht : tray % 32 < 24)

include ht

theorem testRequest_busy (hp : d.tray.test.phase ≠ 0) : testRequest tray roll true d = d.setF R.TRY_TEST_STATUS_RESULT 5 := by
  simp [testRequest, trayCount, Nat.not_le.2 ht, hp]

variable (hp : d.tray.test.phase = 0)

include hp

/-- A request for a tray that exists while no test runs. -/
theorem testRequest_taken : testRequest tray roll true d =
    if d.power (tray % 32) = 3 ∨ d.getB (R.TRY_ROLL_STATE_PERM (tray % 32) (roll % 16)) = true then d.setF R.TRY_TEST_STATUS_RESULT 3
    else if lastUsable d (tray % 32) (roll % 16) = true then d.setF R.TRY_TEST_STATUS_RESULT 4
    else beginTest (tray % 32) (roll % 16) true (d.setF R.TRY_TEST_STATUS_RESULT 0) := by
  simp [testRequest, trayCount, Nat.not_le.2 ht, hp]

end OfTray

/-- Settles O32: the checks of a request in their order, each of which leaves its result alone, and the start of the test after them. -/
theorem rollTestRequests : Obligations.RollTestRequests := by
  intro s tray roll v t r fenced
  have htaken (ht : t < 24) (hp : s.dev.tray.test.phase = 0) := testRequest_taken (d := dropLatches s.dev) roll ht hp
  refine ⟨?_, fun ht => ?_, fun ht hp => ?_, fun ht hp hf => ?_, fun ht hp hf hl => ?_, fun ht hp hf hl => ?_, ?_⟩
  · exact answers_synced (testRequest_withoutGo tray roll (dropLatches s.dev)) rfl
  · exact answers_synced (testRequest_noTray roll (dropLatches s.dev) ht) rfl
  · exact answers_synced (testRequest_busy (d := dropLatches s.dev) roll ht hp) rfl
  · exact answers_synced ((htaken ht hp).trans (if_pos hf)) rfl
  · exact answers_synced ((htaken ht hp).trans ((if_neg hf).trans (if_pos hl))) rfl
  · exact answers_synced ((htaken ht hp).trans ((if_neg hf).trans (if_neg (Bool.eq_false_iff.1 hl)))) rfl
  · exact answers_of_effect rfl

/-! ## The phases of a roll test (R114, R115) -/

section Phases

variable {d : Dev}

theorem rollTestStart_ready :
    let t := d.tray.test.roll / 16
    let r := d.tray.test.roll % 16
    d.tray.test.phase = 1 → (d.rollState t r = 0 ∨ d.rollState t r = 6) → d.power t = 2 →
      rollTestStart d = setRoll t r 4 ({ d with tray := { d.tray with test := { d.tray.test with phase := 2 } } }.setF
        R.TRY_TEST_STATUS_STATE 2) := fun hp hr h2 => if_pos ⟨hp, hr, h2⟩

theorem rollTestStart_notWaiting (hp : d.tray.test.phase ≠ 1) : rollTestStart d = d := if_neg fun hc => hp hc.1

theorem rollTestDone_pass (hp : d.tray.test.phase = 2) : rollTestDone true d =
    let t := d.tray.test.roll / 16
    let r := d.tray.test.roll % 16
    ((setRoll t r 5 { d with tray := { d.tray with test := { d.tray.test with phase := 3 } } }).setF R.TRY_TEST_STATUS_STATE 3).setF
      (R.TRY_ROLL_STATE_LAST_TEST t r) 1 := if_neg (not_not.2 hp)

theorem rollTestDone_fail (hp : d.tray.test.phase = 2) : rollTestDone false d =
    let t := d.tray.test.roll / 16
    let r := d.tray.test.roll % 16
    endTest 2 ((((setRoll t r 6 d).setB (R.TRY_ROLL_STATE_PERM t r) true).setF (R.TRY_ROLL_STATE_LAST_TEST t r) 2).postAt
      0x0803 (sa 8 t r 0) [t, r]) := if_neg (not_not.2 hp)

theorem rollTestDone_notTesting (ok : Bool) (hp : d.tray.test.phase ≠ 2) : rollTestDone ok d = d := if_pos hp

theorem rollReloadDone_reloading (hp : d.tray.test.phase = 3) : rollReloadDone d =
    let t := d.tray.test.roll / 16
    let r := d.tray.test.roll % 16
    endTest 1 (syncDepth t (setRoll t r 0 d)) := if_neg (not_not.2 hp)

theorem rollReloadDone_notReloading (hp : d.tray.test.phase ≠ 3) : rollReloadDone d = d := if_pos hp

end Phases

/-- Settles O33: each of the three commands acts in its own phase of the test and leaves the head in any other. -/
theorem rollTestPhases : Obligations.RollTestPhases := by
  intro s t r ph
  refine ⟨fun hp hr h2 => ?_, fun hp => ?_, fun hp => ?_, fun hp => ?_, fun hp ok => ?_, fun hp => ?_, fun hp => ?_⟩
  · exact answers_synced (rollTestStart_ready hp hr h2) rfl
  · exact answers_synced (rollTestStart_notWaiting hp) rfl
  · exact answers_synced (rollTestDone_pass hp) rfl
  · exact answers_synced (rollTestDone_fail hp) rfl
  · exact answers_synced (rollTestDone_notTesting ok hp) rfl
  · exact answers_synced (rollReloadDone_reloading hp) rfl
  · exact answers_synced (rollReloadDone_notReloading hp) rfl

/-! ## Faults of rolls and trays, and reseeds of their masks (R92, R116, R477) -/

section Faults

variable {t r : Nat} {d : Dev}

theorem rollWatchdog_running (h : 1 ≤ d.rollState t r ∧ d.rollState t r ≤ 3) :
    rollWatchdog t r d = nextTest (rollFault t r 1 d) := if_pos h

theorem rollWatchdog_notRunning (h : ¬ (1 ≤ d.rollState t r ∧ d.rollState t r ≤ 3)) : rollWatchdog t r d = d := if_neg h

theorem sequencerParityError_serving (hr : d.rollState t r ≠ 6) (hp : d.power t ≠ 3) :
    sequencerParityError t r d = nextTest (rollFault t r 2 d) := if_neg (not_or.2 ⟨hr, hp⟩)

theorem sequencerParityError_fencedTray (hp : d.power t = 3) : sequencerParityError t r d = d := if_pos (.inr hp)

theorem traySelfCheckFail_fenced (hp : d.power t = 3) : traySelfCheckFail t d = d := if_pos hp

theorem traySelfCheckFail_serving (hp : d.power t ≠ 3) : traySelfCheckFail t d = trayFault t d := if_neg hp

theorem maskReseed_healthy (h : d.getB R.SEC_TRNG_FAILED = false) :
    maskReseed t r d = (d.modRoll t r fun x => { x with blocks := 0 }).stat (R.TRY_ROLL_RESEEDS t r) 1 := if_neg (Bool.eq_false_iff.1 h)

theorem maskReseed_failed (h : d.getB R.SEC_TRNG_FAILED = true) : maskReseed t r d = d := if_pos h

end Faults

/-- Settles O34: each fault is fenced and counted where its guard on the roll or tray holds, and ignored where it fails. -/
theorem trayFaultsDetected : Obligations.TrayFaultsDetected := by
  intro s t r
  refine ⟨fun h => ?_, fun h => ?_, fun hr hp => ?_, fun hp => ⟨?_, ?_⟩, fun hp => ?_, fun h => ?_, fun h => ?_⟩
  · exact answers_synced (rollWatchdog_running h) rfl
  · exact answers_synced (rollWatchdog_notRunning h) rfl
  · exact answers_synced (sequencerParityError_serving hr hp) rfl
  · exact answers_synced (sequencerParityError_fencedTray hp) rfl
  · exact answers_synced (traySelfCheckFail_fenced hp) rfl
  · exact answers_synced (traySelfCheckFail_serving hp) rfl
  · exact answers_synced (maskReseed_healthy h) rfl
  · exact answers_synced (maskReseed_failed h) rfl

end Sys2Proof.Machine
end

section
/-! Proofs: a journal record written as bytes and read back (O37). -/

namespace Sys2Proof.Machine

/-! ## Numbers read from bytes laid out one after another (R10) -/

/-- The number at the front of a string. -/
theorem fieldAt_leBytes_append (n v : Nat) (c : Bytes) : fieldAt (leBytes n v ++ c) 0 n = v % 256 ^ n := fieldAt_mid [] c n v

/-- A number behind the first part of a string is read from the rest. -/
theorem fieldAt_append_of_le {a : Bytes} (c : Bytes) {o : Nat} (n : Nat) (h : a.length ≤ o) :
    fieldAt (a ++ c) o n = fieldAt c (o - a.length) n := by
  simp [fieldAt, slice, List.drop_append, List.drop_eq_nil_of_le h]

/-! ## The bytes of a journal record (R145) -/

/-- A journal record without its CRC. -/
def recBody (d : Dev) (g : Grp) (i : Nat) (r : JRec) : Bytes :=
  let flags := d.headNum + 2 * b2n g.solo + 4 * b2n (i + 1 == g.recs.length)
  leBytes 1 r.type ++ leBytes 1 1 ++ leBytes 1 flags ++ leBytes 1 g.recs.length ++ leBytes 4 (g.jsn + i) ++
    leBytes 4 g.jsn ++ leBytes 4 r.nsg ++ leBytes 8 r.subject ++ leBytes 8 r.a ++ leBytes 8 r.b ++ leBytes 8 r.c ++
    leBytes 8 g.time ++ leBytes 2 g.inst ++ zeros 2

/-- The content of a record as its bytes spell it: each number of R145 cut to the width of its field. -/
def recCut (r : JRec) : JRec :=
  ⟨r.type % 2 ^ 8, r.nsg % 2 ^ 32, r.subject % 2 ^ 64, r.a % 2 ^ 64, r.b % 2 ^ 64, r.c % 2 ^ 64⟩

theorem recCut_of_lt {r : JRec} (ht : r.type < 2 ^ 8) (hn : r.nsg < 2 ^ 32) (hs : r.subject < 2 ^ 64) (ha : r.a < 2 ^ 64)
    (hb : r.b < 2 ^ 64) (hc : r.c < 2 ^ 64) : recCut r = r := by
  simp only [recCut, Nat.mod_eq_of_lt, ht, hn, hs, ha, hb, hc]

/-- The types of journal records that a reader knows (R145, R146). -/
def recTypes : List Nat := [1, 2, 3, 0x0F, 0x10, 0x11, 0x12, 0x13, 0x14, 0x20, 0x21, 0x22, 0x23]

section Record

variable (d : Dev) (g : Grp) (i : Nat) (r : JRec)

theorem recBytes_eq : recBytes d g i r = recBody d g i r ++ leBytes 4 (crcNat (recBody d g i r)) := rfl

@[simp] theorem recBody_length : (recBody d g i r).length = 60 := by simp [recBody, zeros_length]

@[simp] theorem recBytes_length : (recBytes d g i r).length = 64 := by simp [recBytes_eq]

/-- The CRC covers the bytes before it. -/
theorem slice_recBytes_body : slice (recBytes d g i r) 0 60 = recBody d g i r := by
  have h := slice_mid [] (recBody d g i r) (leBytes 4 (crcNat (recBody d g i r)))
  rwa [recBody_length] at h

/-- The CRC of a record verifies (R11). -/
theorem fieldAt_recBytes_crc : fieldAt (recBytes d g i r) 60 4 = crcNat (slice (recBytes d g i r) 0 60) := by
  have hlt : crcNat (recBody d g i r) < 256 ^ 4 := (crc32c (recBody d g i r)).isLt
  have h := fieldAt_mid (recBody d g i r) [] 4 (crcNat (recBody d g i r))
  rwa [recBody_length, List.append_nil, ← recBytes_eq, Nat.mod_eq_of_lt hlt, ← slice_recBytes_body] at h

theorem fieldAt_recBytes_type : fieldAt (recBytes d g i r) 0 1 = r.type % 2 ^ 8 := by
  simp [recBytes, fieldAt_leBytes_append]

theorem fieldAt_recBytes_version : fieldAt (recBytes d g i r) 1 1 = 1 := by
  simp [recBytes, fieldAt_append_of_le, fieldAt_leBytes_append]

theorem fieldAt_recBytes_jsn : fieldAt (recBytes d g i r) 4 4 = (g.jsn + i) % 2 ^ 32 := by
  simp [recBytes, fieldAt_append_of_le, fieldAt_leBytes_append]

theorem fieldAt_recBytes_time : fieldAt (recBytes d g i r) 48 8 = g.time % 2 ^ 64 := by
  simp [recBytes, fieldAt_append_of_le, fieldAt_leBytes_append]

/-- The fields of a record's content stand at the offsets of R145. -/
theorem fieldAt_recBytes_content :
    (⟨fieldAt (recBytes d g i r) 0 1, fieldAt (recBytes d g i r) 12 4, fieldAt (recBytes d g i r) 16 8, fieldAt (recBytes d g i r) 24 8,
      fieldAt (recBytes d g i r) 32 8, fieldAt (recBytes d g i r) 40 8⟩ : JRec) = recCut r := by
  simp [recBytes, recCut, fieldAt_append_of_le, fieldAt_leBytes_append]

/-- Reading the bytes of a record gives its number, its content and its time, each cut to the width of its field. -/
theorem parseRec_recBytes (h : r.type % 2 ^ 8 ∈ recTypes) :
    parseRec (recBytes d g i r) = some ((g.jsn + i) % 2 ^ 32, recCut r, g.time % 2 ^ 64) := by
  have hknown : recTypes.contains (fieldAt (recBytes d g i r) 0 1) = true := by rwa [fieldAt_recBytes_type, List.contains_iff_mem]
  unfold parseRec
  rw [if_pos ⟨fieldAt_recBytes_crc d g i r, fieldAt_recBytes_version d g i r, hknown⟩, fieldAt_recBytes_content, fieldAt_recBytes_jsn,
    fieldAt_recBytes_time]

end Record

/-- Settles O37: the CRC verifies, and every number is read at the place it was written to, cut to the width that it fits. -/
theorem journalRecordRoundTrip : Obligations.JournalRecordRoundTrip := by
  intro d g i r hknown hnsg hsubject ha hb hc htime
  have htype : r.type < 2 ^ 8 := (by decide : ∀ t ∈ recTypes, t < 2 ^ 8) r.type hknown
  refine ⟨recBytes_length d g i r, ?_⟩
  rw [parseRec_recBytes d g i r (by rwa [Nat.mod_eq_of_lt htype]), recCut_of_lt htype hnsg hsubject ha hb hc, Nat.mod_eq_of_lt htime]

end Sys2Proof.Machine
end

section
/-! Proofs: the orders of the write path, one equation for each branch of a command (O41). -/

namespace Sys2Proof.Machine

/-! ## The dirty budget (R126, R128) -/

/-- The head with a dirty budget the host has set: taken into its register, to stand until the next start (R44). -/
def budgetTaken (v : Nat) (d : Dev) : Dev := hostSetAll R.CMQ_DIRTY_BUDGET (d.setF R.CMQ_DIRTY_BUDGET_B_MIB (v % 2 ^ 24))

/-- The list of settings that a host has written is no register. -/
@[simp] theorem hostSetAll_getF (a : Nat) (d : Dev) (f : Field) : (hostSetAll a d).getF f = d.getF f := by
  unfold hostSetAll
  dsimp only
  split <;> rfl

@[simp] theorem budgetTaken_peerUp (v : Nat) (d : Dev) : (budgetTaken v d).peerUp = d.peerUp := by
  have hstate : (budgetTaken v d).getF R.PER_STATE_STATE = d.getF R.PER_STATE_STATE :=
    (hostSetAll_getF ..).trans (getF_setF_other _ _ _ _ (by decide) (.inl (by decide)))
  rw [Dev.peerUp, hstate, Dev.peerUp]

section Branches

variable {d : Dev}

theorem dirtyBudgetWrite_low {v : Nat} (h : v % 2 ^ 24 < 64) :
    dirtyBudgetWrite v d = d.post 0x0C01 [d.getF R.CMQ_DIRTY_BUDGET_B_MIB, v % 2 ^ 24] := if_pos h

theorem dirtyBudgetWrite_alone {v : Nat} (h : 64 ≤ v % 2 ^ 24) (hp : d.peerUp = false) :
    dirtyBudgetWrite v d = syncWrite (compareBudgets (budgetTaken v d)) := by
  have hb : ¬ (budgetTaken v d).peerUp = true := by simp [hp]
  exact (if_neg (Nat.not_lt.2 h)).trans (congrArg (fun e => syncWrite (compareBudgets e)) (if_neg hb))

theorem dirtyBudgetWrite_peer {v : Nat} (h : 64 ≤ v % 2 ^ 24) (hp : d.peerUp = true) :
    dirtyBudgetWrite v d = syncWrite (compareBudgets (sendPeer 0x0C 0 [v % 2 ^ 24] [] (budgetTaken v d))) := by
  have hb : (budgetTaken v d).peerUp = true := by simp [hp]
  exact (if_neg (Nat.not_lt.2 h)).trans (congrArg (fun e => syncWrite (compareBudgets e)) (if_pos hb))

/-! ## Admission (R127, R168) -/

theorem writeAdmit_notServing (h : d.serving = false) : writeAdmit d = d := by simp [writeAdmit, h]

theorem readAdmit_notServing (h : d.serving = false) : readAdmit d = d := by simp [readAdmit, h]

/-! ## Staging pages, solo batches and before-images (R132, R151, R152) -/

theorem stagingProgrammed_releasable {page : Nat} (h4 : (d.stage page).state = 4) (hr : (d.stage page).releaseSent = false) :
    stagingProgrammed page d = pageProgrammed page d := by simp [stagingProgrammed, h4, hr]

theorem stagingProgrammed_notReleasable {page : Nat} (h : (d.stage page).state ≠ 4 ∨ (d.stage page).releaseSent = true) :
    stagingProgrammed page d = d := by
  rcases h with h4 | hr
  · simp [stagingProgrammed, h4]
  · simp [stagingProgrammed, hr]

theorem soloBatchDurable_noBatch (h : d.write.batches = []) : soloBatchDurable d = d := by simp [soloBatchDurable, h]

theorem beforeImageDone_unknownChunk {cmd chunk : Nat} (h : d.wChunk cmd chunk = none) : beforeImageDone cmd chunk d = d := by
  simp [beforeImageDone, h]

end Branches

/-- Settles O41: each guard of an order decides which of its branches acts; the peer's budget has no guard, and taking a budget does not
change whether the peer is up. -/
theorem writePathOrders : Obligations.WritePathOrders := by
  intro s v cmd chunk page mib d m taken
  refine ⟨fun h => ?_, fun h hp => ?_, fun h hp => ?_, ?_, fun h => ⟨?_, ?_⟩, fun h => ?_, fun h4 hr => ?_, fun h => ?_, fun h => ?_⟩
  · exact answers_settled (dirtyBudgetWrite_low (d := d) h) rfl
  · exact answers_settled (dirtyBudgetWrite_alone (d := d) h hp) rfl
  · exact answers_settled (dirtyBudgetWrite_peer (d := d) h hp) rfl
  · exact answers_of_effect rfl
  · exact answers_settled (writeAdmit_notServing h) rfl
  · exact answers_settled (readAdmit_notServing h) rfl
  · exact answers_settled (stagingProgrammed_notReleasable h) rfl
  · exact answers_settled (stagingProgrammed_releasable h4 hr) rfl
  · exact answers_settled (soloBatchDurable_noBatch h) rfl
  · exact answers_settled (beforeImageDone_unknownChunk h) rfl

end Sys2Proof.Machine
end

section
/-! Proofs: the level registers follow the state (O5, O6). -/

namespace Sys2Proof.Machine

/-! ## What the levels are made from -/

/-- The fields of registers that some level is made from. -/
def levelSources : List Field :=
  [R.CMQ_DIRTY_BUDGET_B_MIB, R.PER_STATE_STATE, R.FRT_PTP_LOCKED] ++ (List.range moduleCount).map R.MED_M_STATE_IN_SERVICE

/-- The fields that show the modules and the capacity of the power-loss area (R308, R311). -/
def areaFields : List Field :=
  [R.MED_PLA_MOD_A, R.MED_PLA_MOD_B, R.MED_PLA_CAP_MIB] ++ (List.range moduleCount).map R.MED_M_STATE_PLA_HOLDER

/-- The fields that show a level. -/
def levelFields : List Field :=
  areaFields ++ [R.MED_PLA_CAPPED, R.PER_OVERLAY_RECORDS, R.PER_HOLDOFF_TO_RECLAIM, R.HTH_TIME_ADJ_SOURCE]

/-- The registers that the recorder and the time base write by themselves. -/
def bookkeeping : List Nat := [R.EVT_MASKED, R.E_EVT_DROPPED.sa, R.E_EVT_DROPPED.satSa, R.HTH_TIME]

theorem levelFields_fit : ∀ f ∈ levelFields, f.lo + f.w ≤ 64 := by decide +kernel

theorem levelSources_fit : ∀ f ∈ levelSources, f.lo + f.w ≤ 64 := by decide +kernel

theorem levelFields_apart : ∀ f ∈ levelFields, ∀ g ∈ levelFields, f ≠ g → f.apart g := by
  unfold Field.apart
  decide +kernel

theorem levelFields_apart_sources : ∀ f ∈ levelFields, ∀ g ∈ levelSources, f.apart g := by
  unfold Field.apart
  decide +kernel

theorem levels_no_bookkeeping : ∀ f ∈ levelFields ++ levelSources, f.sa ∉ bookkeeping := by decide +kernel

/-- The levels shown after those of the power-loss area have fields of their own. -/
theorem areaFields_disjoint_later :
    ∀ f ∈ areaFields, f ∉ [R.PER_OVERLAY_RECORDS, R.PER_HOLDOFF_TO_RECLAIM, R.HTH_TIME_ADJ_SOURCE] := by decide +kernel

theorem areaFields_nodup : areaFields.Nodup := by decide +kernel

/-- Two heads agree in everything that a level other than the instances to reclaim is made from. -/
structure SameSources (d e : Dev) : Prop where
  field : ∀ f ∈ levelSources, e.getF f = d.getF f
  med : e.med = d.med
  map : e.map = d.map
  write : e.write = d.write
  head : e.per.head = d.per.head
  last : e.per.last = d.per.last
  adopted : e.per.adopted = d.per.adopted

namespace SameSources

theorem refl (d : Dev) : SameSources d d := ⟨fun _ _ => rfl, rfl, rfl, rfl, rfl, rfl, rfl⟩

variable {d e f : Dev}

theorem trans (h : SameSources d e) (k : SameSources e f) : SameSources d f where
  field g hg := (k.field g hg).trans (h.field g hg)
  med := k.med.trans h.med
  map := k.map.trans h.map
  write := k.write.trans h.write
  head := k.head.trans h.head
  last := k.last.trans h.last
  adopted := k.adopted.trans h.adopted

theorem moduleAt (h : SameSources d e) (m : Nat) : e.module m = d.module m := by rw [Dev.module, Dev.module, h.med]

theorem modOn (h : SameSources d e) {m : Nat} (hm : m < moduleCount) : e.modOn m = d.modOn m := by
  have hsource : R.MED_M_STATE_IN_SERVICE m ∈ levelSources :=
    List.mem_append_right _ (List.mem_map_of_mem (List.mem_range.2 hm))
  rw [Dev.modOn, Dev.getB, h.field _ hsource, Dev.modOn, Dev.getB]

theorem onModules (h : SameSources d e) : onModules e = onModules d :=
  List.filter_congr fun _ hm => h.modOn (List.mem_range.1 hm)

theorem headNum (h : SameSources d e) : e.headNum = d.headNum := by rw [Dev.headNum, h.head, Dev.headNum]

theorem peerUp (h : SameSources d e) : e.peerUp = d.peerUp := by
  rw [Dev.peerUp, h.field R.PER_STATE_STATE (by simp [levelSources]), Dev.peerUp]

theorem plaModules (h : SameSources d e) : plaModules e = plaModules d := by
  simp only [Machine.plaModules, h.onModules, h.headNum]

theorem areaCapMib (h : SameSources d e) : areaCapMib e = areaCapMib d := by
  simp only [Machine.areaCapMib, h.plaModules, h.moduleAt]

theorem budgetB (h : SameSources d e) : budgetB e = budgetB d := by
  rw [Machine.budgetB, h.field R.CMQ_DIRTY_BUDGET_B_MIB (by simp [levelSources]), h.write, h.peerUp, Machine.budgetB]

theorem areaOver (h : SameSources d e) : areaOver e = areaOver d := by
  rw [Machine.areaOver, h.plaModules, h.budgetB, h.areaCapMib, Machine.areaOver]

theorem overlayCount (h : SameSources d e) : overlayCount e = overlayCount d := by
  rw [Machine.overlayCount, h.adopted, h.map, Machine.overlayCount]

theorem timeSource (h : SameSources d e) : timeSource e = timeSource d := by
  rw [Machine.timeSource, Dev.getB, h.field R.FRT_PTP_LOCKED (by simp [levelSources]), h.peerUp, h.last, h.headNum, Machine.timeSource,
    Dev.getB]

end SameSources

/-! ## The levels as a table -/

/-- The values of the fields in `areaFields`. -/
def areaLevels (d : Dev) : List (Field × Nat) :=
  [(R.MED_PLA_MOD_A, (plaModules d).getD 0 0), (R.MED_PLA_MOD_B, (plaModules d).getD 1 0), (R.MED_PLA_CAP_MIB, areaCapMib d)] ++
    (List.range moduleCount).map fun m => (R.MED_M_STATE_PLA_HOLDER m, b2n ((plaModules d).contains m))

/-- A field shows a level: it holds the level cut to its width. -/
def Shows (d : Dev) (p : Field × Nat) : Prop := d.getF p.1 = p.2 % 2 ^ p.1.w

theorem areaLevels_fields (d : Dev) : (areaLevels d).map Prod.fst = areaFields := rfl

theorem SameSources.areaLevels {d e : Dev} (h : SameSources d e) : areaLevels e = areaLevels d := by
  simp only [Machine.areaLevels, h.plaModules, h.areaCapMib]

theorem plaModules_lt {d : Dev} {m : Nat} (h : m ∈ plaModules d) : m < moduleCount := by
  have hon := List.mem_of_mem_take h
  simp only [onModules, List.mem_append, List.mem_filter, List.mem_range] at hon
  rcases hon with hon | hon <;> exact hon.1.1

theorem plaModules_getD_lt (d : Dev) (i : Nat) : (plaModules d).getD i 0 < 2 ^ 5 := by
  rw [List.getD_eq_getElem?_getD]
  cases h : (plaModules d)[i]? with
  | none => simp
  | some m => exact plaModules_lt (List.mem_of_getElem? h)

theorem b2n_lt (b : Bool) : b2n b < 2 ^ 1 := by cases b <;> decide

theorem overlayCount_lt (d : Dev) : overlayCount d < 2 ^ 21 := by
  unfold overlayCount
  split
  · exact lt_of_le_of_lt (Nat.min_le_right ..) (by decide)
  · decide

theorem timeSource_lt (d : Dev) : timeSource d < 2 ^ 2 := by
  unfold timeSource
  split
  · decide
  · split <;> split <;> decide

/-- Every level of the area fits its field where the capacity does. -/
theorem areaLevels_fit {d : Dev} (hcap : areaCapMib d < 2 ^ 24) : ∀ p ∈ areaLevels d, p.2 < 2 ^ p.1.w := by
  simp only [areaLevels, List.forall_mem_append, List.forall_mem_cons, List.forall_mem_map]
  exact ⟨⟨plaModules_getD_lt d 0, plaModules_getD_lt d 1, hcap, by simp⟩, fun _ _ => b2n_lt _⟩

/-- The fields of the area show it exactly when the modules, the capacity and the holders stand in the registers. -/
theorem shows_areaLevels_iff (d : Dev) :
    (∀ p ∈ areaLevels d, Shows d p) ↔
      d.getF R.MED_PLA_MOD_A = (plaModules d).getD 0 0 ∧ d.getF R.MED_PLA_MOD_B = (plaModules d).getD 1 0 ∧
      d.getF R.MED_PLA_CAP_MIB = areaCapMib d % 2 ^ 24 ∧
      ∀ m, m < 32 → d.getF (R.MED_M_STATE_PLA_HOLDER m) = b2n ((plaModules d).contains m) := by
  have hA : (plaModules d).getD 0 0 % 2 ^ R.MED_PLA_MOD_A.w = (plaModules d).getD 0 0 := Nat.mod_eq_of_lt (plaModules_getD_lt d 0)
  have hB : (plaModules d).getD 1 0 % 2 ^ R.MED_PLA_MOD_B.w = (plaModules d).getD 1 0 := Nat.mod_eq_of_lt (plaModules_getD_lt d 1)
  have hHolder : ∀ m, b2n ((plaModules d).contains m) % 2 ^ (R.MED_M_STATE_PLA_HOLDER m).w = b2n ((plaModules d).contains m) :=
    fun m => Nat.mod_eq_of_lt (b2n_lt _)
  simp only [areaLevels, Shows, List.forall_mem_append, List.forall_mem_cons, List.forall_mem_map, List.mem_range, moduleCount,
    hA, hB, hHolder, List.not_mem_nil, IsEmpty.forall_iff, implies_true, and_true, and_assoc]
  rfl

/-- The level registers show the state exactly when the area's do and the four other levels do. -/
theorem levelsShown_iff (d : Dev) :
    levelsShown d ↔ (∀ p ∈ areaLevels d, Shows d p) ∧ d.getB R.MED_PLA_CAPPED = areaOver d ∧
      d.getF R.PER_OVERLAY_RECORDS = overlayCount d ∧ d.getF R.PER_HOLDOFF_TO_RECLAIM = Nat.min d.per.reclaim.length 2047 ∧
      d.getF R.HTH_TIME_ADJ_SOURCE = timeSource d := by
  rw [shows_areaLevels_iff, levelsShown]
  tauto

/-! ## What showing levels changes -/

/-- Between two heads no level changes but those in the fields `fs`, and nothing that levels are made from changes. -/
structure WritesOnly (fs : List Field) (d e : Dev) : Prop where
  sources : SameSources d e
  kept : ∀ f ∈ levelFields, f ∉ fs → e.getF f = d.getF f

theorem WritesOnly.refl (fs : List Field) (d : Dev) : WritesOnly fs d d := ⟨SameSources.refl d, fun _ _ _ => rfl⟩

theorem WritesOnly.trans {fs : List Field} {d e f : Dev} (h : WritesOnly fs d e) (k : WritesOnly fs e f) : WritesOnly fs d f :=
  ⟨h.sources.trans k.sources, fun g hg hfs => (k.kept g hg hfs).trans (h.kept g hg hfs)⟩

theorem WritesOnly.mono {fs gs : List Field} {d e : Dev} (h : WritesOnly fs d e) (hs : fs ⊆ gs) : WritesOnly gs d e :=
  ⟨h.sources, fun f hf hgs => h.kept f hf fun hfs => hgs (hs hfs)⟩

theorem writesOnly_setF {f : Field} (hf : f ∈ levelFields) (d : Dev) (v : Nat) : WritesOnly [f] d (d.setF f v) where
  sources :=
    ⟨fun g hg => getF_setF_other d f g v (levelSources_fit g hg) (levelFields_apart_sources f hf g hg), rfl, rfl, rfl, rfl, rfl, rfl⟩
  kept g hg hgf := getF_setF_other d f g v (levelFields_fit g hg) (levelFields_apart f hf g hg fun h => hgf (by simp [h]))

theorem writesOnly_setB {f : Field} (hf : f ∈ levelFields) (d : Dev) (b : Bool) : WritesOnly [f] d (d.setB f b) := writesOnly_setF hf d _

theorem writesOnly_setIf {f : Field} (hf : f ∈ levelFields) (d : Dev) (v : Nat) : WritesOnly [f] d (d.setIf f v) := by
  unfold Dev.setIf
  split
  · exact WritesOnly.refl _ d
  · exact writesOnly_setF hf d v

/-- A change that leaves all registers but the bookkeeping's alone keeps the fields that levels are shown in or made from. -/
theorem getF_of_bookkeeping {d e : Dev} (h : ∀ a ∉ bookkeeping, e.rd a = d.rd a) {f : Field} (hf : f ∈ levelFields ++ levelSources) :
    e.getF f = d.getF f := by
  rw [Dev.getF, h f.sa (levels_no_bookkeeping f hf), Dev.getF]

theorem writesOnly_post (d : Dev) (code : Nat) (ps : List Nat) : WritesOnly [] d (d.post code ps) := by
  obtain ⟨hframe, hregs, -⟩ := post_frame d code ps
  have hrd : ∀ a ∉ bookkeeping, (d.post code ps).rd a = d.rd a := fun a ha => by
    simp only [bookkeeping, List.mem_cons, not_or] at ha
    obtain ⟨hmasked, hdropped, hsat, -⟩ := ha
    exact hregs a hmasked hdropped hsat
  refine ⟨⟨fun f hf => getF_of_bookkeeping hrd (List.mem_append_right _ hf), ?_, ?_, ?_, ?_, ?_, ?_⟩, fun f hf _ =>
    getF_of_bookkeeping hrd (List.mem_append_left _ hf)⟩
  all_goals rw [hframe]

/-! ## Showing a table of levels -/

/-- Show each level of a table in its field. -/
def showAll (t : List (Field × Nat)) (d : Dev) : Dev := forEach t (fun p d => d.setIf p.1 p.2) d

theorem writesOnly_showAll (fs : List Field) (t : List (Field × Nat)) (d : Dev) (h : ∀ p ∈ t, p.1 ∈ levelFields ∧ p.1 ∈ fs) :
    WritesOnly fs d (showAll t d) :=
  forEach_inv (WritesOnly fs d) _ t d
    (fun p hp e he => he.trans ((writesOnly_setIf (h p hp).1 e p.2).mono (by simpa using (h p hp).2))) (WritesOnly.refl fs d)

/-- Each level of a table that names no field twice is shown. -/
theorem shows_showAll (t : List (Field × Nat)) :
    ∀ d : Dev, (∀ p ∈ t, p.1 ∈ levelFields) → (t.map Prod.fst).Nodup → ∀ p ∈ t, Shows (showAll t d) p := by
  induction t with
  | nil => intro d _ _ p hp; cases hp
  | cons q r ih =>
    intro d ht hnodup p hp
    obtain ⟨hq, hr⟩ := List.forall_mem_cons.1 ht
    obtain ⟨hnew, hrest⟩ := List.nodup_cons.1 hnodup
    rcases List.mem_cons.1 hp with rfl | hp
    · have hwrites := writesOnly_showAll (r.map Prod.fst) r (d.setIf p.1 p.2) fun x hx => ⟨hr x hx, List.mem_map_of_mem hx⟩
      exact (hwrites.kept p.1 hq hnew).trans (getF_setIf_same d p.1 p.2 (levelFields_fit p.1 hq))
    · exact ih _ hr hrest p hp

/-- Where every field holds its level, showing the table changes nothing. -/
theorem showAll_of_shown (t : List (Field × Nat)) (d : Dev) (h : ∀ p ∈ t, d.getF p.1 = p.2) : showAll t d = d :=
  forEach_inv (fun e => e = d) _ t d (fun p hp e he => by rw [he, setIf_eq d p.1 p.2 (h p hp)]) rfl

/-! ## The power-loss area (R308, R311) -/

/-- Show whether the area caps the dirty limit, with an event when that begins (R311). -/
def showCapped (b cap : Nat) (exceeds : Bool) (d : Dev) : Dev :=
  if exceeds == d.getB R.MED_PLA_CAPPED then d
  else if exceeds then (d.setB R.MED_PLA_CAPPED true).post 0x1207 [b, cap]
  else d.setB R.MED_PLA_CAPPED false

theorem areaLevels_mem_fields {d : Dev} {p : Field × Nat} (h : p ∈ areaLevels d) : p.1 ∈ areaFields :=
  areaLevels_fields d ▸ List.mem_map_of_mem h

theorem areaFields_subset : areaFields ⊆ levelFields := List.subset_append_left _ _

theorem writesOnly_areaLevels (d : Dev) : WritesOnly areaFields d (showAll (areaLevels d) d) :=
  writesOnly_showAll _ _ d fun _ hp => ⟨areaFields_subset (areaLevels_mem_fields hp), areaLevels_mem_fields hp⟩

theorem syncPla_eq (d : Dev) :
    syncPla d = showCapped (budgetB d / 2 ^ 20) (areaCapMib d) (areaOver d) (showAll (areaLevels d) d) := by
  have hbudget := (writesOnly_areaLevels d).sources.budgetB
  unfold areaOver
  rw [← hbudget]
  simp only [showAll, areaLevels, forEach, List.foldl_append, List.foldl_map]
  rfl

section Capped

variable (b cap : Nat) (exceeds : Bool) (d : Dev)

theorem capped_mem : R.MED_PLA_CAPPED ∈ levelFields := by simp [levelFields]

theorem writesOnly_showCapped : WritesOnly [R.MED_PLA_CAPPED] d (showCapped b cap exceeds d) := by
  unfold showCapped
  split
  · exact WritesOnly.refl _ d
  · split
    · exact (writesOnly_setB capped_mem d true).trans ((writesOnly_post _ _ _).mono (List.nil_subset _))
    · exact writesOnly_setB capped_mem d false

theorem showCapped_shows : (showCapped b cap exceeds d).getB R.MED_PLA_CAPPED = exceeds := by
  have hset : ∀ v, (d.setB R.MED_PLA_CAPPED v).getB R.MED_PLA_CAPPED = v := fun v => getB_setB_same d _ v (by decide) (by decide)
  unfold showCapped
  split
  · rename_i h
    exact (beq_iff_eq.1 h).symm
  · split
    · rename_i h
      rw [h, Dev.getB, (writesOnly_post _ _ _).kept _ capped_mem List.not_mem_nil]
      exact hset true
    · rename_i h
      rw [hset, Bool.eq_false_of_not_eq_true h]

theorem showCapped_of_shown (h : d.getB R.MED_PLA_CAPPED = exceeds) : showCapped b cap exceeds d = d := by simp [showCapped, h]

end Capped

theorem writesOnly_syncPla (d : Dev) : WritesOnly (R.MED_PLA_CAPPED :: areaFields) d (syncPla d) := by
  rw [syncPla_eq]
  exact ((writesOnly_areaLevels d).mono (List.subset_cons_self _ _)).trans ((writesOnly_showCapped _ _ _ _).mono (by simp))

theorem capped_notMem_areaFields : R.MED_PLA_CAPPED ∉ areaFields := by decide +kernel

theorem syncPla_shows_area (d : Dev) : ∀ p ∈ areaLevels d, Shows (syncPla d) p := by
  intro p hp
  have hfield := areaLevels_mem_fields hp
  have hshown := shows_showAll (areaLevels d) d (fun q hq => areaFields_subset (areaLevels_mem_fields hq)) areaFields_nodup p hp
  have hne : p.1 ∉ [R.MED_PLA_CAPPED] := fun h => capped_notMem_areaFields (List.mem_singleton.1 h ▸ hfield)
  rw [syncPla_eq]
  exact ((writesOnly_showCapped _ _ _ _).kept p.1 (areaFields_subset hfield) hne).trans hshown

theorem syncPla_shows_capped (d : Dev) : (syncPla d).getB R.MED_PLA_CAPPED = areaOver d := by
  rw [syncPla_eq]
  exact showCapped_shows ..

/-! ## The overlay, the instances to reclaim, the source of time (R511, R516, R543) -/

/-- Without a peer nothing waits to be reclaimed, and the hold-off begins again (R511). -/
def dropReclaim (d : Dev) : Dev :=
  if d.per.reclaim.isEmpty || d.peerUp then d else { d with per := { d.per with reclaim := [], holdoff := true } }

theorem syncOverlay_eq (d : Dev) : syncOverlay d = d.setIf R.PER_OVERLAY_RECORDS (overlayCount d) := rfl

theorem syncHoldoff_eq (d : Dev) :
    syncHoldoff d = (dropReclaim d).setIf R.PER_HOLDOFF_TO_RECLAIM (Nat.min (dropReclaim d).per.reclaim.length 2047) := by
  unfold syncHoldoff dropReclaim
  split <;> rfl

theorem syncSource_eq (d : Dev) : syncSource d = d.setIf R.HTH_TIME_ADJ_SOURCE (timeSource d) := rfl

theorem writesOnly_dropReclaim (d : Dev) : WritesOnly [] d (dropReclaim d) := by
  unfold dropReclaim
  split
  · exact WritesOnly.refl _ d
  · exact ⟨⟨fun _ _ => rfl, rfl, rfl, rfl, rfl, rfl, rfl⟩, fun _ _ _ => rfl⟩

theorem writesOnly_syncOverlay (d : Dev) : WritesOnly [R.PER_OVERLAY_RECORDS] d (syncOverlay d) :=
  writesOnly_setIf (by simp [levelFields]) d _

theorem writesOnly_syncHoldoff (d : Dev) : WritesOnly [R.PER_HOLDOFF_TO_RECLAIM] d (syncHoldoff d) := by
  rw [syncHoldoff_eq]
  exact ((writesOnly_dropReclaim d).mono (List.nil_subset _)).trans (writesOnly_setIf (by simp [levelFields]) _ _)

theorem writesOnly_syncSource (d : Dev) : WritesOnly [R.HTH_TIME_ADJ_SOURCE] d (syncSource d) :=
  writesOnly_setIf (by simp [levelFields]) d _

theorem setIf_per (d : Dev) (f : Field) (v : Nat) : (d.setIf f v).per = d.per := by
  unfold Dev.setIf
  split <;> rfl

theorem syncSource_per (d : Dev) : (syncSource d).per = d.per := setIf_per ..

theorem syncHoldoff_shows (d : Dev) :
    (syncHoldoff d).getF R.PER_HOLDOFF_TO_RECLAIM = Nat.min (syncHoldoff d).per.reclaim.length 2047 := by
  have hlt : Nat.min (dropReclaim d).per.reclaim.length 2047 < 2 ^ 11 := lt_of_le_of_lt (Nat.min_le_right ..) (by decide)
  rw [syncHoldoff_eq, setIf_per, getF_setIf_same _ _ _ (by decide)]
  exact Nat.mod_eq_of_lt hlt

theorem syncOverlay_shows (d : Dev) : (syncOverlay d).getF R.PER_OVERLAY_RECORDS = overlayCount d :=
  (getF_setIf_same d _ _ (by decide)).trans (Nat.mod_eq_of_lt (overlayCount_lt d))

theorem syncSource_shows (d : Dev) : (syncSource d).getF R.HTH_TIME_ADJ_SOURCE = timeSource d :=
  (getF_setIf_same d _ _ (by decide)).trans (Nat.mod_eq_of_lt (timeSource_lt d))

/-! ## All levels -/

/-- Each of the four steps shows its own levels, and the later ones neither change these nor what they are made from. -/
theorem levelsShown_syncLevels (d : Dev) : levelsShown (syncLevels d) := by
  have hpla := writesOnly_syncPla d
  have hoverlay := writesOnly_syncOverlay (syncPla d)
  have hholdoff := writesOnly_syncHoldoff (syncOverlay (syncPla d))
  have hsource : WritesOnly [R.HTH_TIME_ADJ_SOURCE] _ (syncLevels d) := writesOnly_syncSource (syncHoldoff (syncOverlay (syncPla d)))
  have afterOverlay : WritesOnly [R.PER_HOLDOFF_TO_RECLAIM, R.HTH_TIME_ADJ_SOURCE] _ (syncLevels d) :=
    (hholdoff.mono (by simp)).trans (hsource.mono (by simp))
  have afterPla : WritesOnly [R.PER_OVERLAY_RECORDS, R.PER_HOLDOFF_TO_RECLAIM, R.HTH_TIME_ADJ_SOURCE] _ (syncLevels d) :=
    (hoverlay.mono (by simp)).trans (afterOverlay.mono (by simp))
  have hall : SameSources d (syncLevels d) := hpla.sources.trans afterPla.sources
  rw [levelsShown_iff]
  refine ⟨fun p hp => ?_, ?_, ?_, ?_, ?_⟩
  · rw [hall.areaLevels] at hp
    have hfield := areaLevels_mem_fields hp
    exact (afterPla.kept p.1 (areaFields_subset hfield) (areaFields_disjoint_later p.1 hfield)).trans (syncPla_shows_area d p hp)
  · rw [hall.areaOver, ← syncPla_shows_capped, Dev.getB, afterPla.kept _ capped_mem (by decide), Dev.getB]
  · rw [afterOverlay.kept _ (by simp [levelFields]) (by decide), syncOverlay_shows, afterPla.sources.overlayCount]
  · rw [hsource.kept _ (by simp [levelFields]) (by decide), syncHoldoff_shows, syncLevels, syncSource_per]
  · rw [hsource.sources.timeSource]
    exact syncSource_shows _

/-- What the head does by itself after any command ends in showing its levels. -/
theorem effect_shows_levels (i : Instr) (d : Dev) : ∃ e, effect i d = syncLevels e := by
  cases i <;> exact ⟨_, rfl⟩

/-- The time base is no level, and no level is made from it. -/
theorem levelsShown_tickTime {d : Dev} (h : levelsShown d) : levelsShown (tickTime d) := by
  have hrd : ∀ a ∉ bookkeeping, (tickTime d).rd a = d.rd a := fun a ha =>
    rd_wr_other d R.HTH_TIME a _ fun heq => ha (by simp [bookkeeping, ← heq])
  have hsame : SameSources d (tickTime d) :=
    ⟨fun f hf => getF_of_bookkeeping hrd (List.mem_append_right _ hf), rfl, rfl, rfl, rfl, rfl, rfl⟩
  have hkept : ∀ f ∈ levelFields, (tickTime d).getF f = d.getF f := fun f hf => getF_of_bookkeeping hrd (List.mem_append_left _ hf)
  rw [levelsShown_iff] at h ⊢
  obtain ⟨harea, hcapped, hoverlay, hreclaim, hsource⟩ := h
  refine ⟨fun p hp => ?_, ?_, ?_, ?_, ?_⟩
  · rw [hsame.areaLevels] at hp
    exact (hkept p.1 (areaFields_subset (areaLevels_mem_fields hp))).trans (harea p hp)
  · rw [hsame.areaOver, ← hcapped, Dev.getB, hkept _ capped_mem, Dev.getB]
  · rw [hsame.overlayCount, ← hoverlay, hkept _ (by simp [levelFields])]
  · exact (hkept _ (by simp [levelFields])).trans hreclaim
  · rw [hsame.timeSource, ← hsource, hkept _ (by simp [levelFields])]

/-- A step answers what its command's effect makes, or on an empty queue what the time base makes. -/
theorem step_eq (s : State) :
    (s.pending = [] ∧ step s = .next { s with dev := tickTime s.dev }) ∨
      ∃ c rest, s.pending = c :: rest ∧ step s = .next ⟨effect c s.dev, rest⟩ := by
  obtain ⟨d, queue⟩ := s
  cases queue with
  | nil => exact .inl ⟨rfl, rfl⟩
  | cons c rest => exact .inr ⟨c, rest, rfl, everyCommandAnswers c ⟨d, rest⟩⟩

/-- Settles O5: a command's effect ends in showing all levels, and on an empty queue the time base touches none. -/
theorem levelsKept : Obligations.LevelsKept := by
  intro s t hstep hshown
  rcases step_eq s with ⟨-, hnext⟩ | ⟨c, rest, -, hnext⟩
  · obtain rfl := Host.Outcome.next.inj (hnext.symm.trans hstep)
    exact levelsShown_tickTime hshown
  · obtain rfl := Host.Outcome.next.inj (hnext.symm.trans hstep)
    obtain ⟨e, heffect⟩ := effect_shows_levels c s.dev
    exact heffect ▸ levelsShown_syncLevels e

/-! ## A quiet head -/

theorem syncPla_of_shown {d : Dev} (harea : ∀ p ∈ areaLevels d, Shows d p) (hcapped : d.getB R.MED_PLA_CAPPED = areaOver d)
    (hcap : areaCapMib d < 2 ^ 24) : syncPla d = d := by
  have hall : showAll (areaLevels d) d = d :=
    showAll_of_shown _ d fun p hp => (harea p hp).trans (Nat.mod_eq_of_lt (areaLevels_fit hcap p hp))
  rw [syncPla_eq, hall, showCapped_of_shown _ _ _ _ hcapped]

theorem dropReclaim_of_settled {d : Dev} (h : d.per.reclaim = [] ∨ d.peerUp = true) : dropReclaim d = d := by
  simp [dropReclaim, h]

/-- Showing levels that are shown, with nothing to reclaim without a peer and a capacity that fits its register, changes nothing. -/
theorem syncLevels_of_shown {d : Dev} (h : levelsShown d) (hsettled : levelsSettled d) : syncLevels d = d := by
  obtain ⟨harea, hcapped, hoverlay, hreclaim, hsource⟩ := (levelsShown_iff d).1 h
  obtain ⟨hpeer, hcap⟩ := hsettled
  have hholdoff : syncHoldoff d = d := by
    rw [syncHoldoff_eq, dropReclaim_of_settled hpeer, setIf_eq _ _ _ hreclaim]
  rw [syncLevels, syncPla_of_shown harea hcapped hcap, syncOverlay_eq, setIf_eq _ _ _ hoverlay, hholdoff, syncSource_eq,
    setIf_eq _ _ _ hsource]

theorem settleDown_of_quiet {d : Dev} (h : quiet d = true) : settleDown d = syncLevels d := by rw [settleDown, if_pos h]

/-- Settles O6: a quiet head skips its two rounds of work (log entry 43), and a level that is shown is not written again. -/
theorem quietHeadSettles : Obligations.QuietHeadSettles := fun _ => ⟨settleDown_of_quiet, syncLevels_of_shown⟩

end Sys2Proof.Machine
end

section
/-! Proofs: a block's summary page written as bytes and read back (O38). -/

namespace Sys2Proof.Machine

/-! ## Numbers in a row of records of one length (R10) -/

/-- A number within the first part of a string is read from that part. -/
theorem fieldAt_append_left {a : Bytes} (c : Bytes) {o n : Nat} (h : o + n ≤ a.length) : fieldAt (a ++ c) o n = fieldAt a o n := by
  simp only [fieldAt, slice, List.drop_append_of_le_length (show o ≤ a.length by omega)]
  rw [List.take_append_of_le_length (by rw [List.length_drop]; omega)]

/-- The bytes of a number are those of its low part and those of the rest. -/
theorem leBytes_add (n k v : Nat) : leBytes (n + k) v = leBytes n v ++ leBytes k (v / 256 ^ n) := by
  induction n generalizing v with
  | zero => simp [leBytes]
  | succ n ih =>
    rw [Nat.succ_add, leBytes, ih, leBytes, List.cons_append, Nat.div_div_eq_div_mul, ← pow_succ']

/-- A number in a row of records of one length is read from the record it lies in. -/
theorem fieldAt_flatMap {α : Type} (f : α → Bytes) (w : Nat) (hf : ∀ x, (f x).length = w) (c : Bytes) {o n : Nat} (ho : o + n ≤ w) :
    ∀ (l : List α) (i : Nat) (h : i < l.length), fieldAt (l.flatMap f ++ c) (w * i + o) n = fieldAt (f l[i]) o n
  | [], _, h => absurd h (Nat.not_lt_zero _)
  | x :: r, 0, _ => by
    rw [List.flatMap_cons, List.append_assoc, fieldAt_append_left _ (by rw [hf]; omega)]
    simp
  | x :: r, i + 1, h => by
    have hle : w ≤ w * (i + 1) + o := by rw [Nat.mul_add]; omega
    have hsub : w * (i + 1) + o - w = w * i + o := by rw [Nat.mul_add]; omega
    rw [List.flatMap_cons, List.append_assoc, fieldAt_append_of_le _ _ (by rw [hf]; exact hle), hf, hsub]
    exact fieldAt_flatMap f w hf c ho r i (Nat.lt_of_succ_lt_succ h)

/-! ## The bytes of a summary page (R273) -/

/-- One entry of a summary page. -/
def sumEntBytes (e : SumEnt) : Bytes := leBytes 8 e.handle ++ leBytes 4 e.off ++ leBytes 1 (e.len - 1) ++ zeros 1 ++ leBytes 2 e.dom

/-- The head of a summary page, before its CRC. -/
def summaryHead (d : Dev) (k idx n : Nat) : Bytes :=
  leBytes 4 (blkEbn k % 2 ^ 24 + blkModule k * 2 ^ 24) ++ leBytes 1 1 ++ leBytes 1 d.headNum ++ leBytes 2 n ++ leBytes 4 idx ++ zeros 16

/-- What follows the CRC of a summary page: the entries, then zeros up to 4096 bytes. -/
def summaryTail (es : List SumEnt) : Bytes := es.flatMap sumEntBytes ++ zeros (4064 - 16 * es.length)

/-- A content summary entry whose numbers fit their fields (R273). -/
def SumEnt.fits (e : SumEnt) : Prop := e.handle < 2 ^ 64 ∧ e.off < 2 ^ 24 ∧ 1 ≤ e.len ∧ e.len ≤ 64 ∧ e.dom < 2 ^ 16

@[simp] theorem sumEntBytes_length (e : SumEnt) : (sumEntBytes e).length = 16 := by simp [sumEntBytes, zeros_length]

@[simp] theorem summaryHead_length (d : Dev) (k idx n : Nat) : (summaryHead d k idx n).length = 28 := by simp [summaryHead, zeros_length]

theorem flatMap_sumEntBytes_length (es : List SumEnt) : (es.flatMap sumEntBytes).length = 16 * es.length := by
  simp [List.length_flatMap, Nat.mul_comm]

theorem summaryTail_length {es : List SumEnt} (h : es.length ≤ 254) : (summaryTail es).length = 4064 := by
  rw [summaryTail, List.length_append, flatMap_sumEntBytes_length, zeros_length]
  omega

/-- A string that is not too long is filled with zeros. -/
theorem slice_zero_of_length_le {b : Bytes} {n : Nat} (h : b.length ≤ n) : slice b 0 n = b ++ zeros (n - b.length) := by
  simp [slice, List.take_of_length_le h]

/-- Bytes written over others of their own number. -/
theorem overlay_mid (a b c e : Bytes) (h : e.length = b.length) : overlay (a ++ b ++ c) a.length e = a ++ e ++ c := by
  have ha : slice (a ++ b ++ c) 0 a.length = a := by
    have := slice_mid [] a (b ++ c)
    simpa using this
  rw [overlay, ha, h, List.append_assoc a b c, List.drop_append, List.drop_eq_nil_of_le (by omega)]
  simp

section Page

variable (d : Dev) (k idx : Nat) {es : List SumEnt} (h : es.length ≤ 254)

/-- The CRC that a summary page carries: that of the page with zeros in its place (R11). -/
def summaryCrc (d : Dev) (k idx : Nat) (es : List SumEnt) : Nat :=
  crcNat (summaryHead d k idx es.length ++ zeros 4 ++ summaryTail es)

include h

theorem summaryPage_eq :
    summaryPage d k idx es = summaryHead d k idx es.length ++ leBytes 4 (summaryCrc d k idx es) ++ summaryTail es := by
  have hbody : (summaryHead d k idx es.length ++ zeros 4 ++ es.flatMap sumEntBytes).length = 32 + 16 * es.length := by
    simp only [List.length_append, summaryHead_length, zeros_length, flatMap_sumEntBytes_length]
  have hfull : slice (summaryHead d k idx es.length ++ zeros 4 ++ es.flatMap sumEntBytes) 0 4096 =
      summaryHead d k idx es.length ++ zeros 4 ++ summaryTail es := by
    rw [slice_zero_of_length_le (by omega), hbody, List.append_assoc, summaryTail, Nat.sub_add_eq]
  have hover := overlay_mid (summaryHead d k idx es.length) (zeros 4) (summaryTail es) (leBytes 4 (summaryCrc d k idx es))
    (by simp [zeros_length])
  rw [summaryHead_length] at hover
  rw [← hover, summaryCrc, ← hfull]
  rfl

theorem summaryPage_length : (summaryPage d k idx es).length = 4096 := by
  simp [summaryPage_eq d k idx h, summaryTail_length h]

/-- The CRC of a summary page verifies (R11). -/
theorem fieldAt_summaryPage_crc : fieldAt (summaryPage d k idx es) 28 4 = crcNat (overlay (summaryPage d k idx es) 28 (zeros 4)) := by
  have hlt : summaryCrc d k idx es < 256 ^ 4 := (crc32c _).isLt
  have hover := overlay_mid (summaryHead d k idx es.length) (leBytes 4 (summaryCrc d k idx es)) (summaryTail es) (zeros 4)
    (by simp [zeros_length])
  have hcrc := fieldAt_mid (summaryHead d k idx es.length) (summaryTail es) 4 (summaryCrc d k idx es)
  rw [summaryHead_length] at hover hcrc
  rw [summaryPage_eq d k idx h, hover, hcrc, Nat.mod_eq_of_lt hlt, summaryCrc]

/-- The count of entries stands in the head. -/
theorem fieldAt_summaryPage_count : fieldAt (summaryPage d k idx es) 6 2 = es.length := by
  have hlt : es.length % 65536 = es.length := Nat.mod_eq_of_lt (by omega)
  simp [summaryPage_eq d k idx h, summaryHead, fieldAt_append_of_le, fieldAt_leBytes_append, hlt]

/-- A number of the entries is read from the entry it lies in. -/
theorem fieldAt_summaryPage_entry {i : Nat} (hi : i < es.length) {o n : Nat} (ho : o + n ≤ 16) :
    fieldAt (summaryPage d k idx es) (32 + 16 * i + o) n = fieldAt (sumEntBytes es[i]) o n := by
  have hfront : (summaryHead d k idx es.length ++ leBytes 4 (summaryCrc d k idx es)).length = 32 := by simp
  rw [summaryPage_eq d k idx h, fieldAt_append_of_le _ _ (by omega), hfront, show 32 + 16 * i + o - 32 = 16 * i + o by omega, summaryTail]
  exact fieldAt_flatMap sumEntBytes 16 sumEntBytes_length _ ho es i hi

end Page

/-! ## An entry read back -/

/-- The low three bytes of an entry's offset hold it whole. -/
theorem fieldAt_sumEntBytes_off (e : SumEnt) : fieldAt (sumEntBytes e) 8 3 = e.off % 2 ^ 24 := by
  simp [sumEntBytes, leBytes_add 3 1, fieldAt_append_of_le, fieldAt_leBytes_append]

theorem fieldAt_sumEntBytes_handle (e : SumEnt) : fieldAt (sumEntBytes e) 0 8 = e.handle % 2 ^ 64 := by
  simp [sumEntBytes, fieldAt_leBytes_append]

theorem fieldAt_sumEntBytes_len (e : SumEnt) : fieldAt (sumEntBytes e) 12 1 = (e.len - 1) % 2 ^ 8 := by
  simp [sumEntBytes, fieldAt_append_of_le, fieldAt_leBytes_append]

theorem fieldAt_sumEntBytes_dom (e : SumEnt) : fieldAt (sumEntBytes e) 14 2 = e.dom % 2 ^ 16 := by
  have hdom := fieldAt_mid (leBytes 8 e.handle ++ leBytes 4 e.off ++ leBytes 1 (e.len - 1) ++ zeros 1) [] 2 e.dom
  simpa [sumEntBytes, zeros_length] using hdom

/-- An entry whose numbers fit reads back from its bytes. -/
theorem sumEnt_of_fields {e : SumEnt} (h : e.fits) :
    (⟨fieldAt (sumEntBytes e) 0 8, fieldAt (sumEntBytes e) 8 3, fieldAt (sumEntBytes e) 12 1 % 64 + 1,
      fieldAt (sumEntBytes e) 14 2⟩ : SumEnt) = e := by
  obtain ⟨hhandle, hoff, hlow, hhigh, hdom⟩ := h
  have hlen : (e.len - 1) % 2 ^ 8 % 64 + 1 = e.len := by omega
  rw [fieldAt_sumEntBytes_handle, fieldAt_sumEntBytes_off, fieldAt_sumEntBytes_len, fieldAt_sumEntBytes_dom, Nat.mod_eq_of_lt hhandle,
    Nat.mod_eq_of_lt hoff, hlen, Nat.mod_eq_of_lt hdom]

/-- Reading a summary page gives the entries in order. -/
theorem summaryEntries_summaryPage (d : Dev) (k idx : Nat) {es : List SumEnt} (h : es.length ≤ 254) (hfits : ∀ e ∈ es, e.fits) :
    summaryEntries (summaryPage d k idx es) = some es := by
  have hcount : Nat.min (fieldAt (summaryPage d k idx es) 6 2) sumPer = es.length := by
    rw [fieldAt_summaryPage_count d k idx h]
    exact Nat.min_eq_left h
  rw [summaryEntries, if_neg (not_not.2 (fieldAt_summaryPage_crc d k idx h)), hcount]
  refine congrArg some (List.ext_getElem (by simp) fun i _ hi => ?_)
  have hentry := fun {o n : Nat} => fieldAt_summaryPage_entry d k idx h hi (o := o) (n := n)
  rw [List.getElem_map, List.getElem_range, ← sumEnt_of_fields (hfits es[i] (List.getElem_mem hi)), ← hentry (by decide),
    ← hentry (by decide), ← hentry (by decide), ← hentry (by decide)]
  simp only [Nat.add_right_comm]

/-- Settles O38: the CRC verifies, and each number of an entry is read at the place it was written to, where it fits. -/
theorem summaryPageRoundTrip : Obligations.SummaryPageRoundTrip := fun d k idx _ hlen hfits =>
  ⟨summaryPage_length d k idx hlen, summaryEntries_summaryPage d k idx hlen hfits⟩

end Sys2Proof.Machine
end

section
/-! Proofs: the orders of flash management, one equation for each branch of a command (O44). -/

namespace Sys2Proof.Machine

section Media

variable {d : Dev} {m : Nat}

/-! ## Failed modules and the scrub (R294, R300) -/

theorem failModule_failed {cause : Nat} (h : d.getB (R.MED_M_STATE_FAILED m) = true) : failModule m cause d = d := if_pos h

theorem moduleFailTimeout_available (h : (d.module m).unavail = none) : moduleFailTimeout m d = d := by simp [moduleFailTimeout, h]

theorem scrubTick_held (h : d.modOn m = false ∨ d.med.pla.phase ≠ 0) : scrubTick m d = d := by
  rcases h with hoff | hflush
  · simp [scrubTick, hoff]
  · simp [scrubTick, hflush]

/-! ## Erases, reclamation, stream M and tallies (R279, R289, R290, R293) -/

theorem victimErase_noVictim {ebn : Nat} (h : (d.eblock (blkKey m ebn)).state ≠ 4) : victimErase m ebn d = d := by simp [victimErase, h]

theorem reclaim_notDead {handle : Nat} (h : handle ∉ d.med.dead) : reclaim handle d = d := by simp [reclaim, h]

theorem mPageTimer_noPage (h : (d.module m).mPage = none) : mPageTimer m d = d := by simp [mPageTimer, h]

theorem tallyTimer_noTally {ebn : Nat} (h : ∀ e ∈ d.med.tallies, ¬ (e.1 = m ∧ e.2.1 = ebn)) : tallyTimer m ebn d = d := by
  have hnone : (d.med.tallies.find? fun e => e.1 == m && e.2.1 == ebn) = none :=
    List.find?_eq_none.2 fun e he => by simpa using h e he
  simp [tallyTimer, hnone]

/-! ## The sweep and the flush of the power-loss area (R302, R308) -/

theorem sweepPhaseEnd_noSweep (h : d.med.sweep = none) : sweepPhaseEnd d = d := by simp [sweepPhaseEnd, h]

theorem plaSettleEnd_outOfPhase (h : d.med.pla.phase ≠ 1) : plaSettleEnd d = d := by simp [plaSettleEnd, h]

theorem plaSectionsWritten_outOfPhase {copy : Nat} (h : d.med.pla.phase ≠ 2) : plaSectionsWritten copy d = d := by
  unfold plaSectionsWritten
  dsimp only
  split
  · simp [h]
  · rfl

end Media

/-- Settles O44: the orders of the host act without a guard, a failed module stays as it is, and each other command meets the guard that
leaves the head alone. -/
theorem mediaOrders : Obligations.MediaOrders := by
  intro s m ebn h copy d roots
  refine ⟨answers_of_effect rfl, answers_of_effect rfl, answers_of_effect rfl, fun hfailed => ?_, fun havail => ?_, fun hheld => ?_,
    fun hstate => ?_, fun hdead => ?_, fun hpage => ?_, fun htally => ?_, fun hsweep => ?_, fun hphase => ?_, fun hphase => ?_⟩
  · exact answers_settled (failModule_failed (d := d) hfailed) rfl
  · exact answers_settled (moduleFailTimeout_available havail) rfl
  · exact answers_settled (scrubTick_held hheld) rfl
  · exact answers_settled (victimErase_noVictim hstate) rfl
  · exact answers_settled (reclaim_notDead hdead) rfl
  · exact answers_settled (mPageTimer_noPage hpage) rfl
  · exact answers_settled (tallyTimer_noTally htally) rfl
  · exact answers_settled (sweepPhaseEnd_noSweep hsweep) rfl
  · exact answers_settled (plaSettleEnd_outOfPhase hphase) rfl
  · exact answers_settled (plaSectionsWritten_outOfPhase hphase) rfl

end Sys2Proof.Machine
end

section
/-! Proofs: the orders of a media link, one equation for each branch of a command (O45, O46). -/

namespace Sys2Proof.Machine

section MediaLink

variable {d : Dev} {m : Nat}

/-! ## Bring-up, phase by phase (R334, R335, R337) -/

theorem linkDetected_detect (h : d.linkPhase m = lpDetect) : linkDetected m d = setPhase m lpEqualise d := if_pos h

theorem linkDetected_outOfPhase (h : d.linkPhase m ≠ lpDetect) : linkDetected m d = d := if_neg h

theorem equaliseDone_equalise (h : d.linkPhase m = lpEqualise) :
    equaliseDone m d = setPhase m lpLock (d.modLink m fun l => { l with idleRun := 0 }) := if_pos h

theorem equaliseDone_outOfPhase (h : d.linkPhase m ≠ lpEqualise) : equaliseDone m d = d := if_neg h

theorem blockLock_tooFewIdle (h : (d.link m).idleRun < 64) : blockLock m d = d := if_pos h

/-- The TRAIN message gives role 0, link version 1, the head's number and the device's identity. -/
theorem blockLock_lock (hrun : 64 ≤ (d.link m).idleRun) (h : d.linkPhase m = lpLock) :
    blockLock m d = (setPhase m lpIdent d).emit
      (.mediaCtl m 5 (256 + d.per.head.getD 255 * 65536 + d.sec.fuses.deviceId * 2 ^ 24)) :=
  (if_neg (Nat.not_lt.2 hrun)).trans (if_pos h)

theorem mediaTrain_outOfPhase {role ver port id : Nat} (h : d.linkPhase m ≠ lpIdent) : mediaTrain m role ver port id d = d := if_pos h

theorem mediaTrain_mismatch {role ver port id : Nat} (h : d.linkPhase m = lpIdent) (hend : role ≠ 1 ∨ ver ≠ 1) :
    mediaTrain m role ver port id d = trainFailed m d := (if_neg (not_not.2 h)).trans (if_pos hend)

theorem mediaTrain_module {port id : Nat} (h : d.linkPhase m = lpIdent) :
    mediaTrain m 1 1 port id d = setPhase m lpCredit ((d.setF (R.MED_L_STATE_PORT m) port).modModule m fun x => { x with id := id }) :=
  (if_neg (not_not.2 h)).trans (if_neg (by decide))

theorem mediaBringupTimeout_notUp (h : d.linkUp m = false) :
    mediaBringupTimeout m d =
      (d.setB (R.MED_M_STATE_IN_SERVICE m) false).modModule m fun x => { x with unavail := some (x.unavail.getD d.now) } := by
  simp [mediaBringupTimeout, h]

/-! ## Loss, retrain and the host's orders (R335, R336) -/

theorem mediaSignalLoss_notUp (h : d.linkPhase m ≠ lpUp) : mediaSignalLoss m d = d := if_neg h

theorem startRetrain_notUp (h : d.linkPhase m ≠ lpUp) : startRetrain m d = d := if_pos h

theorem mediaLinkUp_held (h : d.linkPhase m = lpDown) (hheld : (d.link m).hostDown = true) :
    mediaLinkUp m d = setPhase m lpDetect (d.modLink m fun l => { l with hostDown := false }) := if_pos ⟨h, hheld⟩

theorem linkRestartTimer_held (hheld : (d.link m).hostDown = true) : linkRestartTimer m d = d := by
  simp [linkRestartTimer, hheld]

theorem mediaLinkDown_down (h : d.linkPhase m = lpDown) :
    mediaLinkDown m d = d.modLink m fun l => { l with hostDown := true } := if_pos h

/-! ## Frames, blocks and credits (R319, R320, R324, R326) -/

theorem mediaCredit_running {cmds units : Nat} (h : d.linkPhase m = lpUp ∨ d.linkPhase m = lpRetrain) :
    mediaCredit m cmds units d = syncLink m (pumpLink m (d.modLink m fun l => { l with
      cmdCred := l.cmdCred + cmds, dataCred := l.dataCred + units })) := by
  rcases h with hup | hretrain
  · simp [mediaCredit, hup, lpCredit, lpUp]
  · simp [mediaCredit, hretrain, lpCredit, lpRetrain]

theorem mediaCredit_outOfPhase {cmds units : Nat} (hcredit : d.linkPhase m ≠ lpCredit) (hup : d.linkPhase m ≠ lpUp)
    (hretrain : d.linkPhase m ≠ lpRetrain) : mediaCredit m cmds units d = d := if_pos ⟨hcredit, hup, hretrain⟩

theorem mediaFrameError_up (h : d.linkPhase m = lpUp) :
    mediaFrameError m d = ((d.err (R.E_MED_L_CRC_ERR m)).modLink m fun l => { l with discard := true }).emit
      (.mediaCtl m 3 (d.link m).lseqRx) := if_neg (not_not.2 h)

theorem mediaFrameError_notUp (h : d.linkPhase m ≠ lpUp) : mediaFrameError m d = d := if_pos h

theorem mediaNak_notUp {lseq : Nat} (h : d.linkPhase m ≠ lpUp) : mediaNak m lseq d = d := if_pos h

theorem idleBlock_locking {ok : Bool} (h : d.linkPhase m = lpLock ∨ d.linkPhase m = lpRetrain) :
    idleBlock m ok d = d.modLink m fun l => { l with idleRun := if ok then l.idleRun + 1 else 0 } := if_pos h

theorem idleBlock_up_valid (h : d.linkPhase m = lpUp) : idleBlock m true d = d := by
  simp [idleBlock, h, lpUp, lpLock, lpRetrain]

/-- On a link that is Up a bad block is met as a bad frame is. -/
theorem idleBlock_up_bad (h : d.linkPhase m = lpUp) : idleBlock m false d = mediaFrameError m d := by
  simp [idleBlock, mediaFrameError_up h, h, lpUp, lpLock, lpRetrain]

theorem responseTimeout_notOutstanding {tag : Nat} (h : ∀ c ∈ (d.link m).tags, c.tag ≠ tag) : responseTimeout m tag d = d := by
  have hnone : ((d.link m).tags.any fun c => c.tag == tag) = false := List.any_eq_false.2 fun c hc => by simpa using h c hc
  simp [responseTimeout, hnone]

theorem statusPoll_notUp (h : d.linkUp m = false) : statusPoll m d = d := by simp [statusPoll, h]

end MediaLink

/-- Settles O45: the phase of the link, with its run of IDLE blocks or the host's hold, decides which branch of each command acts; a failed
training acts by its own definition. -/
theorem mediaLinkBringUp : Obligations.MediaLinkBringUp := by
  intro s m port id role ver ph
  refine ⟨fun hdetect => ?_, fun hother => ?_, fun hequalise => ?_, fun hother => ?_, fun hfew => ?_, fun hrun hlock => ?_,
    fun hident => ?_, fun hident hend => ?_, fun hother => ?_, answers_of_effect rfl, fun hnotUp => ⟨?_, ?_⟩,
    fun hdown hheld => ⟨?_, ?_⟩, fun hdown => ?_, fun hnotUp => ?_⟩
  · exact answers_settled (linkDetected_detect hdetect) rfl
  · exact answers_settled (linkDetected_outOfPhase hother) rfl
  · exact answers_settled (equaliseDone_equalise hequalise) rfl
  · exact answers_settled (equaliseDone_outOfPhase hother) rfl
  · exact answers_settled (blockLock_tooFewIdle hfew) rfl
  · exact answers_settled (blockLock_lock hrun hlock) rfl
  · exact answers_settled (mediaTrain_module hident) rfl
  · exact answers_settled (mediaTrain_mismatch hident hend) rfl
  · exact answers_settled (mediaTrain_outOfPhase hother) rfl
  · exact answers_settled (mediaSignalLoss_notUp hnotUp) rfl
  · exact answers_settled (startRetrain_notUp (d := dropLatches s.dev) hnotUp) rfl
  · exact answers_settled (mediaLinkUp_held (d := dropLatches s.dev) hdown hheld) rfl
  · exact answers_settled (linkRestartTimer_held hheld) rfl
  · exact answers_settled (mediaLinkDown_down (d := dropLatches s.dev) hdown) rfl
  · exact answers_settled (mediaBringupTimeout_notUp hnotUp) rfl

/-- Settles O46: an ACK acts without a guard, a bad block on an Up link is met as a bad frame, and outside its phases each command leaves the
head alone. -/
theorem mediaLinkFrames : Obligations.MediaLinkFrames := by
  intro s m lseq cmds units tag ok ph bad
  refine ⟨answers_of_effect rfl, fun hrunning => ?_, fun hcredit hup hretrain => ?_, fun hup => ⟨?_, ?_, ?_⟩, fun hnotUp => ⟨?_, ?_⟩,
    fun hlocking => ?_, fun hnone => ?_, fun hnotUp => ?_⟩
  · exact answers_settled (mediaCredit_running hrunning) rfl
  · exact answers_settled (mediaCredit_outOfPhase hcredit hup hretrain) rfl
  · exact answers_settled (mediaFrameError_up hup) rfl
  · exact answers_settled ((idleBlock_up_bad hup).trans (mediaFrameError_up hup)) rfl
  · exact answers_settled (idleBlock_up_valid hup) rfl
  · exact answers_settled (mediaFrameError_notUp hnotUp) rfl
  · exact answers_settled (mediaNak_notUp hnotUp) rfl
  · exact answers_settled (idleBlock_locking hlocking) rfl
  · exact answers_settled (responseTimeout_notOutstanding hnone) rfl
  · exact answers_settled (statusPoll_notUp hnotUp) rfl

end Sys2Proof.Machine
end

section
/-! Proofs: the rate of a queue pair, and the orders of the front ports, one equation for each branch of a command (O48, O49). -/

namespace Sys2Proof.Machine

section Rate

variable {d : Dev} {n : Nat} {q : Qp}

/-! ## Rate control (R348; the unit and the rounding are log entry 14) -/

/-- A queue pair that has no rate of its own: it is in RESET, or belongs to the Thagrait link. -/
abbrev unrated (n : Nat) (d : Dev) : Prop := (d.qp n).st = .reset ∨ isPeerQp n = true

theorem cnpReceive_unrated (h : unrated n d) : cnpReceive n d = d := if_pos h

theorem cnpReceive_rated (h : ¬ unrated n d) :
    cnpReceive n d = (d.modQp n fun x => { x with cnps := x.cnps + 1 }).stat R.TRN_CNP_RX 1 := if_neg h

theorem ccInterval_unrated (h : unrated n d) : ccInterval n d = d := if_pos h

theorem ccInterval_rated (h : ¬ unrated n d) :
    ccInterval n d = d.modQp n fun x => { x with rate := (nextRate d (d.qp n)).1, calm := (nextRate d (d.qp n)).2, cnps := 0 } := if_neg h

theorem nextRate_congested (h : 0 < q.cnps) :
    nextRate d q = (max (d.getF R.TRN_CC_RATE_MIN_100M * 100000000)
      (q.rate * (16 - min q.cnps (d.getF R.TRN_CC_CUT_CAP) * d.getF R.TRN_CC_CUT) / 16), 0) := if_pos h

theorem nextRate_holding (h : q.cnps = 0) (hhold : min (q.calm + 1) 255 ≤ d.getF R.TRN_CC_HOLD) :
    nextRate d q = (q.rate, min (q.calm + 1) 255) :=
  (if_neg (Nat.not_lt.2 h.le)).trans (if_neg (Nat.not_lt.2 hhold))

theorem nextRate_climbing (h : q.cnps = 0) (hclimb : d.getF R.TRN_CC_HOLD < min (q.calm + 1) 255) :
    nextRate d q = (min (portRate d q.port) (q.rate +
      min ((min (q.calm + 1) 255 - d.getF R.TRN_CC_HOLD) * (d.getF R.TRN_CC_STEP_STEP_100M * 100000000))
        (d.getF R.TRN_CC_STEP_STEP_MAX_100M * 100000000)), min (q.calm + 1) 255) :=
  (if_neg (Nat.not_lt.2 h.le)).trans (if_pos hclimb)

/-- A quiet interval counts in CALM whether the rate holds or climbs. -/
theorem nextRate_quiet_calm (h : q.cnps = 0) : (nextRate d q).2 = min (q.calm + 1) 255 := by
  rcases le_or_gt (min (q.calm + 1) 255) (d.getF R.TRN_CC_HOLD) with hhold | hclimb
  · rw [nextRate_holding h hhold]
  · rw [nextRate_climbing h hclimb]

end Rate

/-- Settles O49: the CNPs counted in the interval decide between the cut and the count of CALM, and CALM against HOLD between the old
rate and the climb. -/
theorem rateControl : Obligations.RateControl := by
  intro s n
  refine ⟨fun hunrated => ⟨?_, ?_⟩, fun hown hst => ?_⟩
  · exact answers_settled (cnpReceive_unrated hunrated) rfl
  · exact answers_settled (ccInterval_unrated hunrated) rfl
  · have hrated : ¬ unrated n s.dev := by simp [hown, hst]
    refine ⟨answers_settled (cnpReceive_rated hrated) rfl, _, _, answers_settled (ccInterval_rated hrated) rfl, fun hcnps => ?_,
      fun hquiet => ⟨nextRate_quiet_calm hquiet, fun hhold => ?_, fun hclimb => ?_⟩⟩
    · exact Prod.ext_iff.1 (nextRate_congested hcnps)
    · exact congrArg Prod.fst (nextRate_holding hquiet hhold)
    · exact congrArg Prod.fst (nextRate_climbing hquiet hclimb)

section Ports

variable {d : Dev} {p prio : Nat}

/-! ## Pauses and storms (R345, R346) -/

theorem pfcFrame_notUp {pause : Bool} (h : d.portUp p = false) : pfcFrame p prio pause d = d := by simp [pfcFrame, h]

/-- A frame that resumes a priority ends its pause as the expiry does. -/
theorem pfcFrame_resume (h : d.portUp p = true) : pfcFrame p prio false d = pfcPauseExpiry p prio d := by
  simp [pfcFrame, pfcPauseExpiry, h]

theorem pfcFrame_pauseRoce (h : d.portUp p = true) (hprio : prio = d.getF R.FRT_CLASS_ROCE_PRIO) (hnew : prio ∉ (d.port p).pause) :
    pfcFrame p prio true d =
      syncPause p ((d.modPort p fun x => { x with pause := x.pause ++ [prio] }).stat (R.FRT_P_XOFF_RX p) 1) := by
  simp [pfcFrame, Dev.modPort, h, ← hprio, hnew]

theorem pfcStorm_notUp (h : d.portUp p = false) : pfcStorm p d = d := by simp [pfcStorm, h]

theorem pfcStorm_notPaused (h : d.getB (R.FRT_P_STATE_PAUSED p) = false) : pfcStorm p d = d := by simp [pfcStorm, h]

theorem pfcStorm_paused (h : d.portUp p = true) (hpaused : d.getB (R.FRT_P_STATE_PAUSED p) = true) :
    pfcStorm p d = portLinkDown p 2 ((d.postAt 0x0A01 (sa 0x0A p 0 0) [p]).err (R.E_FRT_P_STORMS p)) := by simp [pfcStorm, h, hpaused]

/-! ## Loss of the signal, and the host's orders (R343, R380) -/

theorem portSignalLost_notUp (h : d.portUp p = false) : portSignalLost p d = d := by simp [portSignalLost, h]

theorem portSignalLost_up (h : d.portUp p = true) : portSignalLost p d = portLinkDown p 1 d := if_pos h

theorem portDown_beyondCount (h : d.portCount ≤ p) : portDown p d = d := if_pos h

theorem portDown_configured (h : p < d.portCount) :
    portDown p d = (portLinkDown p 3 d).modPort p fun x => { x with hostDown := true, bringUp := false } := if_neg (Nat.not_le.2 h)

theorem portUpCmd_held (h : (d.port p).hostDown = true) :
    portUpCmd p d = startBringUp p (d.modPort p fun x => { x with hostDown := false }) := if_pos h

theorem portUpCmd_notHeld (h : (d.port p).hostDown = false) : portUpCmd p d = d := by simp [portUpCmd, h]

end Ports

/-- Settles O48: the link, the pause and the host's hold of a port decide which branch of each command acts; the expiry of a pause and
the restart timer have no guard of their own. -/
theorem portOrders : Obligations.PortOrders := by
  intro s p prio on d
  refine ⟨fun hnotUp => ⟨?_, ?_, ?_⟩, fun hup => ?_, fun hup hprio hnew => ?_, answers_of_effect rfl, fun hup hpaused => ?_,
    fun hnotPaused => ?_, fun hup => ?_, fun hbeyond => ?_, fun hconfigured => ?_, fun hheld => ?_, fun hfree => ?_, answers_of_effect rfl⟩
  · exact answers_settled (pfcFrame_notUp hnotUp) rfl
  · exact answers_settled (pfcStorm_notUp hnotUp) rfl
  · exact answers_settled (portSignalLost_notUp hnotUp) rfl
  · exact answers_settled (pfcFrame_resume hup) rfl
  · exact answers_settled (pfcFrame_pauseRoce hup hprio hnew) rfl
  · exact answers_settled (pfcStorm_paused hup hpaused) rfl
  · exact answers_settled (pfcStorm_notPaused hnotPaused) rfl
  · exact answers_settled (portSignalLost_up hup) rfl
  · exact answers_settled (portDown_beyondCount (d := d) hbeyond) rfl
  · exact answers_settled (portDown_configured (d := d) hconfigured) rfl
  · exact answers_settled (portUpCmd_held (d := d) hheld) rfl
  · exact answers_settled (portUpCmd_notHeld (d := d) hfree) rfl

end Sys2Proof.Machine
end

section
/-! Proofs: the packets and timers of queue pairs, connections and windows, one equation for each branch of a command (O50). -/

namespace Sys2Proof.Machine

section Transport

variable {d : Dev} {n : Nat}

/-! ## Connections (R352) -/

section Conn

variable {cm : Nat} (h : d.conn cm = none)
include h

theorem cmRtu_unknown : cmRtu cm d = d := by simp [cmRtu, h]

theorem cmRej_unknown : cmRej cm d = d := by simp [cmRej, h]

theorem cmDreq_unknown : cmDreq cm d = d := by simp [cmDreq, h]

theorem cmDrep_unknown : cmDrep cm d = d := by simp [cmDrep, h]

end Conn

/-! ## Packets of a Standard-mode queue pair by their place (R354, R358, R359) -/

section Packet

variable {psn : Nat} {run dup : Dev → Dev}

theorem rcPacket_notLive (h : rcLive (d.qp n) = false) : rcPacket n psn run dup d = d := by simp [rcPacket, h]

/-- A packet that is executed and repeated alike acts wherever it is not ahead of its place. -/
theorem rcPacket_notAhead (h : rcLive (d.qp n) = true) (hplace : psnPlace (d.qp n) psn ≠ .ahead) : rcPacket n psn run run d = run d := by
  cases hp : psnPlace (d.qp n) psn with
  | expected => simp [rcPacket, h, hp]
  | ahead => exact absurd hp hplace
  | behind => simp [rcPacket, h, hp]

/-- The sequence error of a gap is answered once. -/
theorem rcPacket_ahead_nakSent (h : rcLive (d.qp n) = true) (hplace : psnPlace (d.qp n) psn = .ahead) (hsent : (d.qp n).nakSent = true) :
    rcPacket n psn run dup d = d := by simp [rcPacket, h, hplace, hsent]

theorem rcPacket_ahead_first (h : rcLive (d.qp n) = true) (hplace : psnPlace (d.qp n) psn = .ahead) (hsent : (d.qp n).nakSent = false) :
    rcPacket n psn run dup d = (sendNak n 0x60 d).modQp n fun q => { q with nakSent := true } := by simp [rcPacket, h, hplace, hsent]

end Packet

/-! ## Acknowledgements and timers (R355, R358, R360, R361) -/

section NotLive

variable (h : rcLive (d.qp n) = false)
include h

theorem rcAck_notLive {psn : Nat} : rcAck n psn d = d := by simp [rcAck, h]

theorem rcNak_notLive {psn syn : Nat} : rcNak n psn syn d = d := by simp [rcNak, h]

theorem rnrNak_notLive {psn : Nat} : rnrNak n psn d = d := by simp [rnrNak, h]

theorem ackTimer_notLive : ackTimer n d = d := by simp [ackTimer, h]

theorem retransmitTimeout_notLive : retransmitTimeout n d = d := by simp [retransmitTimeout, h]

theorem rnrTimer_notLive : rnrTimer n d = d := by simp [rnrTimer, h]

end NotLive

theorem ackTimer_nothingDue (h : (d.qp n).ackPending = 0) : ackTimer n d = d := by simp [ackTimer, h]

theorem retransmitTimeout_nothingOutstanding (h : (d.qp n).pkts = []) : retransmitTimeout n d = d := by simp [retransmitTimeout, h]

theorem retransmitTimeout_last (h : rcLive (d.qp n) = true) (hpkts : (d.qp n).pkts ≠ [])
    (hlast : d.getF R.TRN_STD_RETRY_CNT ≤ (d.qp n).timeouts + 1) : retransmitTimeout n d = qpError n d := by
  simp [retransmitTimeout, h, hpkts, hlast]

theorem rnrTimer_notWaiting (h : (d.qp n).rnrWait = false) : rnrTimer n d = d := by simp [rnrTimer, h]

/-! ## Refused messages and windows (R376, R379) -/

theorem spNak_unknown {msn : Nat} (h : ∀ m ∈ (d.qp n).msgs, m.msn ≠ msn) : spNak n msn d = d := by
  have hnone : ((d.qp n).msgs.find? fun m => m.msn == msn && m.sent) = none :=
    List.find?_eq_none.2 fun m hm => by simp [h m hm]
  simp [spNak, hnone]

theorem mwRewriteComplete_rewriting {w : Nat} (h : (d.win w).rewriting = true) :
    mwRewriteComplete w d =
      { d with net := { d.net with windows := tabPut d.net.windows w { d.win w with rewriting := false } } } := if_pos h

end Transport

/-- Settles O50: the packets of a queue pair share one dispatch on its state and on their place, and each acknowledgement and timer has a
guard of its own. -/
theorem transportOrders : Obligations.TransportOrders := by
  intro s n psn syn key va len cm w msn b first last ar
  refine ⟨answers_of_effect rfl, fun hunknown => ⟨?_, ?_, ?_, ?_⟩, fun hnotLive => ?_, fun hlive hplace => ?_, fun hlive hahead => ?_,
    fun _ hdue => ?_, fun _ hpkts => ?_, fun hlive hpkts hlast => ?_, fun _ hwait => ?_, fun hmsn => ?_, fun hrewriting => ?_⟩
  · exact answers_settled (cmRtu_unknown hunknown) rfl
  · exact answers_settled (cmRej_unknown hunknown) rfl
  · exact answers_settled (cmDreq_unknown hunknown) rfl
  · exact answers_settled (cmDrep_unknown hunknown) rfl
  · simp only [List.forall_mem_cons, List.not_mem_nil, false_imp_iff, implies_true, and_true]
    refine ⟨?send, ?write, ?read, ?ack, ?nak, ?rnr, ?flush, ?atomic, ?ackTimer, ?timeout, ?rnrTimer⟩
    case send | write | read | flush | atomic => exact answers_settled (rcPacket_notLive hnotLive) rfl
    case ack => exact answers_settled (rcAck_notLive hnotLive) rfl
    case nak => exact answers_settled (rcNak_notLive hnotLive) rfl
    case rnr => exact answers_settled (rnrNak_notLive hnotLive) rfl
    case ackTimer => exact answers_settled (ackTimer_notLive hnotLive) rfl
    case timeout => exact answers_settled (retransmitTimeout_notLive hnotLive) rfl
    case rnrTimer => exact answers_settled (rnrTimer_notLive hnotLive) rfl
  · exact answers_settled (rcPacket_notAhead hlive hplace) rfl
  · simp only [List.forall_mem_cons, List.not_mem_nil, false_imp_iff, implies_true, and_true]
    refine ⟨?send, ?write, ?read, ?flush, ?atomic⟩
    case send | write | read | flush | atomic =>
      exact ⟨fun hsent => answers_settled (rcPacket_ahead_nakSent hlive hahead hsent) rfl,
        fun hsent => answers_settled (rcPacket_ahead_first hlive hahead hsent) rfl⟩
  · exact answers_settled (ackTimer_nothingDue hdue) rfl
  · exact answers_settled (retransmitTimeout_nothingOutstanding hpkts) rfl
  · exact answers_settled (retransmitTimeout_last hlive hpkts hlast) rfl
  · exact answers_settled (rnrTimer_notWaiting hwait) rfl
  · exact answers_settled (spNak_unknown hmsn) rfl
  · exact answers_settled (mwRewriteComplete_rewriting hrewriting) rfl

end Sys2Proof.Machine
end

section
/-! Proofs: the commands of a controller's admin queue (O51). -/

namespace Sys2Proof.Machine

section AdminQueue

variable {d : Dev} {c cid : Nat} {e : Sqe} {cap : Bytes}

/-! ## A controller that does not exist (R383) -/

section Unknown

variable {q : Nat} (h : d.ctrl c = none)
include h

theorem originOf_unknownCtrl {admin : Bool} : originOf d admin (.fabric c q cid) = none := by simp [originOf, h]

theorem adminCommand_unknownCtrl {opc : Nat} {f : CHead → Nat → Ctrl → Dev → Dev} :
    adminCommand opc f (.fabric c q cid) e cap d = d := by simp [adminCommand, originOf_unknownCtrl h]

theorem unsupportedCommand_unknownCtrl : unsupportedCommand (.fabric c q cid) e cap d = d := by
  simp [unsupportedCommand, originOf_unknownCtrl h]

theorem disconnect_unknownCtrl : disconnect (.fabric c q cid) e cap d = d := by
  simp [disconnect, adminCommand_unknownCtrl h, originOf_unknownCtrl h]

theorem keepAliveExpiry_unknownCtrl : keepAliveExpiry c d = d := by simp [keepAliveExpiry, h]

end Unknown

/-! ## The keep-alive timer (R400) -/

theorem keepAliveExpiry_off {x : Ctrl} (h : d.ctrl c = some x) (hkato : x.kato = 0) : keepAliveExpiry c d = d := by
  simp [keepAliveExpiry, h, hkato]

theorem keepAliveExpiry_on {x : Ctrl} (h : d.ctrl c = some x) (hkato : x.kato ≠ 0) :
    keepAliveExpiry c d = endAssociation c (d.err R.E_CMQ_KATO_EXP) := by simp [keepAliveExpiry, h, hkato]

/-! ## Commands that pass the checks of the admin queue (R384, R388) -/

/-- The head of the command that an entry makes under an admin row's opcode. -/
abbrev adminHead (d : Dev) (c : Nat) (e : Sqe) (cap : Bytes) (x : Ctrl) (opc : Nat) : CHead :=
  mkHead d true (.fabric c 0 e.cid) { e with opc := opc } cap x.inst 0

/-- An entry that the admin queue of an existing controller takes: it is not fused, its reserved fields are zero, and no admin row refuses
its data pointer. -/
structure AdminTakes (d : Dev) (c : Nat) (e : Sqe) (cap : Bytes) (x : Ctrl) : Prop where
  ctrl : d.ctrl c = some x
  fuse : e.fuse = 0
  cdw2 : e.cdw2 = 0
  cdw3 : e.cdw3 = 0
  pointer : ∀ opc st, dataPtr (adminHead d c e cap x opc) ≠ .bad st

section Takes

variable {x : Ctrl} (h : AdminTakes d c e cap x)
include h

/-- A command that passes the checks takes the next number, and its row's effect is all it does. -/
theorem adminCommand_taken {opc : Nat} {f : CHead → Nat → Ctrl → Dev → Dev} :
    adminCommand opc f (.fabric c 0 cid) e cap d = f (adminHead d c e cap x opc) c x (newId d).2 := by
  obtain ⟨hctrl, hfuse, hcdw2, hcdw3, hpointer⟩ := h
  have horigin : originOf d true (.fabric c 0 cid) = some (x.inst, 0) := by simp [originOf, hctrl]
  have hfields : ¬ (e.fuse ≠ 0 ∨ e.cdw2 ≠ 0 ∨ e.cdw3 ≠ 0) := by simp [hfuse, hcdw2, hcdw3]
  simp only [adminCommand, horigin, hctrl, withCid, if_neg hfields]
  split
  · next st hbad => exact absurd hbad (hpointer opc st)
  · rfl

/-! ## Keep-alive and features (R386, R400) -/

theorem keepAlive_taken :
    keepAlive (.fabric c 0 cid) e cap d = sendCompletion (adminHead d c e cap x 0x18) stOk 0 0 (newId d).2 := adminCommand_taken h

theorem getFeatures_keepAliveTime (hfid : e.cdw10 % 256 = 0x0F) :
    getFeatures (.fabric c 0 cid) e cap d = sendCompletion (adminHead d c e cap x 0x0A) stOk x.kato 0 (newId d).2 := by
  simp only [getFeatures, adminCommand_taken h, hfid]

theorem setFeatures_keepAliveTime (hfid : e.cdw10 % 256 = 0x0F) :
    setFeatures (.fabric c 0 cid) e cap d = sendCompletion (adminHead d c e cap x 0x09) stOk 0 0
      ((newId d).2.modCtrl c fun y => { y with kato := e.cdw11 }) := by
  simp only [setFeatures, adminCommand_taken h, hfid]

theorem getFeatures_events (hfid : e.cdw10 % 256 = 0x0B) :
    getFeatures (.fabric c 0 cid) e cap d =
      sendCompletion (adminHead d c e cap x 0x0A) stOk (tabGet 0 x.feats 0x0B) 0 (newId d).2 := by
  simp only [getFeatures, adminCommand_taken h, hfid]

theorem setFeatures_events (hfid : e.cdw10 % 256 = 0x0B) :
    setFeatures (.fabric c 0 cid) e cap d = sendCompletion (adminHead d c e cap x 0x09) stOk 0 0
      ((newId d).2.modCtrl c fun y => { y with feats := tabPut y.feats 0x0B e.cdw11 }) := by
  simp only [setFeatures, adminCommand_taken h, hfid]

/-! ## Properties (R387) -/

theorem propertyGet_otherOffset (hprop : property x e.cdw11 = none) :
    propertyGet (.fabric c 0 cid) e cap d = sendCompletion (adminHead d c e cap x 0x7F) stField 0 0 (newId d).2 := by
  simp only [propertyGet, adminCommand_taken h, hprop]

/-- With 8 bytes asked for, the whole value is answered. -/
theorem propertyGet_eightBytes {v : Nat} (hprop : property x e.cdw11 = some v) (hsize : e.cdw10 % 8 = 1) :
    propertyGet (.fabric c 0 cid) e cap d = sendCompletion (adminHead d c e cap x 0x7F) stOk v 0 (newId d).2 := by
  simp only [propertyGet, adminCommand_taken h, hprop, hsize, if_true]

theorem propertySet_otherOffset (hoff : e.cdw11 ≠ 0x14) :
    propertySet (.fabric c 0 cid) e cap d = sendCompletion (adminHead d c e cap x 0x7F) stField 0 0 (newId d).2 :=
  (adminCommand_taken h).trans (if_pos hoff)

theorem propertySet_cc (hoff : e.cdw11 = 0x14) :
    propertySet (.fabric c 0 cid) e cap d = sendCompletion (adminHead d c e cap x 0x7F) stOk 0 0
      ((newId d).2.modCtrl c fun y => { y with cc := e.cdw12 % 2 ^ 32, csts := cstsOf e.cdw12 }) :=
  (adminCommand_taken h).trans (if_neg (not_not_intro hoff))

end Takes

end AdminQueue

/-- Settles O51: no command of the admin queue passes the look-up of an unknown controller, and one that passes the checks has its row's
effect alone. -/
theorem adminCommands : Obligations.AdminCommands := by
  intro s c cid e cap x
  refine ⟨fun hunknown => ?_, fun hctrl hkato => ?_, fun hctrl hkato => ?_, fun hctrl hfuse hcdw2 hcdw3 hpointer => ?_⟩
  · simp only [List.forall_mem_cons, List.not_mem_nil, false_imp_iff, implies_true, and_true]
    refine ⟨?keepAlive, ?getFeatures, ?setFeatures, ?propertyGet, ?propertySet, ?getLogPage, ?identify, ?abort, ?event, ?disconnect,
      ?unsupported, ?expiry⟩
    case keepAlive | getFeatures | setFeatures | propertyGet | propertySet | getLogPage | identify | abort | event =>
      exact answers_settled (adminCommand_unknownCtrl hunknown) rfl
    case disconnect => exact answers_settled (disconnect_unknownCtrl hunknown) rfl
    case unsupported => exact answers_settled (unsupportedCommand_unknownCtrl hunknown) rfl
    case expiry => exact answers_settled (keepAliveExpiry_unknownCtrl hunknown) rfl
  · exact answers_settled (keepAliveExpiry_off hctrl hkato) rfl
  · exact answers_settled (keepAliveExpiry_on hctrl hkato) rfl
  · have htakes : AdminTakes s.dev c e cap x := ⟨hctrl, hfuse, hcdw2, hcdw3, hpointer⟩
    refine ⟨?_, fun hfid => ⟨?_, ?_⟩, fun hfid => ⟨?_, ?_⟩, fun hprop => ?_, fun v hprop hsize => ?_, fun hoff => ?_, fun hoff => ?_⟩
    · exact answers_settled (keepAlive_taken htakes) rfl
    · exact answers_settled (getFeatures_keepAliveTime htakes hfid) rfl
    · exact answers_settled (setFeatures_keepAliveTime htakes hfid) rfl
    · exact answers_settled (getFeatures_events htakes hfid) rfl
    · exact answers_settled (setFeatures_events htakes hfid) rfl
    · exact answers_settled (propertyGet_otherOffset htakes hprop) rfl
    · exact answers_settled (propertyGet_eightBytes htakes hprop hsize) rfl
    · exact answers_settled (propertySet_otherOffset htakes hoff) rfl
    · exact answers_settled (propertySet_cc htakes hoff) rfl

end Sys2Proof.Machine
end

section
/-! Proofs: the orders of a migration, its timers and the messages of the peer (O53). -/

namespace Sys2Proof.Machine

section Migration

variable {d : Dev} {i code : Nat}

/-! ## Freeze (R427, R428) -/

section Freeze

variable {reason : Nat}

theorem migrationFreeze_notAllowed (h : migAllowed d reason = false) : migrationFreeze i reason d = d := by simp [migrationFreeze, h]

theorem migrationFreeze_source (h : migAllowed d reason = true) (hstate : d.getF (R.INS_I_STATE_STATE i) = 1)
    (hreason : migReason d i reason = true) : migrationFreeze i reason d = freezeSource i reason d := by
  simp [migrationFreeze, h, hstate, hreason]

theorem migrationFreeze_destination (h : migAllowed d reason = true) (hstate : d.getF (R.INS_I_STATE_STATE i) = 2) :
    migrationFreeze i reason d =
      putMig (some ⟨i, false, 1, reason, d.now⟩) (anaChange i (d.setF (R.INS_I_STATE_STATE i) 3)) := by
  simp [migrationFreeze, h, hstate]

end Freeze

/-! ## No migration in progress (R428, R434, log entry 9) -/

section NoMigration

variable (h : d.nvm.mig = none)
include h

theorem abortMig_noMigration {tell : Bool} : abortMig tell d = d := by simp [abortMig, h]

theorem migrationThawEnd_noMigration : migrationThawEnd d = d := by simp [migrationThawEnd, h]

theorem migrationDrainEnd_noMigration : migrationDrainEnd d = d := by simp [migrationDrainEnd, h]

theorem migAck_noMigration : migAck i code d = d := by simp [migAck, h]

theorem migAbort_noMigration : migAbort i d = d := by simp [migAbort, h]

theorem migBlob_unexpected {b : Bytes} (hstate : d.getF (R.INS_I_STATE_STATE i) ≠ 2) :
    migBlob i b d = sendPeer 0x41 0 [i, 1] [] d := by simp [migBlob, h, hstate]

end NoMigration

/-! ## A migration in progress (R428, R434, R435) -/

section InProgress

variable {g : Migration} (h : d.nvm.mig = some g)
include h

/-- From the switch point on no abort undoes the migration. -/
theorem abortMig_switched {tell : Bool} (hphase : 6 ≤ g.phase) : abortMig tell d = d := by simp [abortMig, h, hphase]

theorem migAck_otherInstance (hinst : g.inst ≠ i) : migAck i code d = d := by simp [migAck, h, hinst]

theorem migAbort_otherInstance (hinst : g.inst ≠ i) : migAbort i d = d := by simp [migAbort, h, hinst]

/-- At a source that has sent its blob the code of the ACK decides between the switch and the abort. -/
theorem migAck_blobSent (hinst : g.inst = i) (hout : g.outbound = true) (hphase : g.phase = 4) :
    migAck i code d = if code = 0 then switchSource g d else abortMig false d := by simp [migAck, h, hinst, hout, hphase]

end InProgress

end Migration

/-- Settles O53: the guard of a freeze, and of each message and timer the migration in progress with its instance and phase, decide whether
it acts; a message is counted before, which leaves the migration as it is. -/
theorem migrationOrders : Obligations.MigrationOrders := by
  intro s i reason code b g m
  have hcounted : m.nvm.mig = s.dev.nvm.mig := congrArg _ (rxMsg_nvm s.dev)
  refine ⟨fun hno => ?_, fun hok hstate hreason => ?_, fun hok hstate => ?_, fun hnone => ?_, fun hnone hstate => ?_,
    fun hmig hinst => ?_, fun hmig hphase => ?_, fun hmig hinst hout hphase => ?_⟩
  · exact answers_settled (migrationFreeze_notAllowed hno) rfl
  · exact answers_settled (migrationFreeze_source hok hstate hreason) rfl
  · exact answers_settled (migrationFreeze_destination hok hstate) rfl
  · have hnone' := hcounted.trans hnone
    refine ⟨?timeout, ?thawEnd, ?drainEnd, ?ack, ?abort⟩
    case timeout => exact answers_settled (abortMig_noMigration hnone) rfl
    case thawEnd => exact answers_settled (migrationThawEnd_noMigration hnone) rfl
    case drainEnd => exact answers_settled (migrationDrainEnd_noMigration hnone) rfl
    case ack => exact answers_settled (migAck_noMigration hnone') rfl
    case abort => exact answers_settled (migAbort_noMigration hnone') rfl
  · exact answers_settled (migBlob_unexpected (hcounted.trans hnone) hstate) rfl
  · have hmig' := hcounted.trans hmig
    exact ⟨answers_settled (migAck_otherInstance hmig' hinst) rfl, answers_settled (migAbort_otherInstance hmig' hinst) rfl⟩
  · exact answers_settled (abortMig_switched hmig hphase) rfl
  · have hack := fun c => migAck_blobSent (code := c) (hcounted.trans hmig) hinst hout hphase
    exact ⟨answers_settled ((hack 0).trans (if_pos rfl)) rfl, fun hcode => answers_settled ((hack code).trans (if_neg hcode)) rfl⟩

end Sys2Proof.Machine
end

section
/-! Proofs: the life-cycle orders and the orders of the Security steward, one equation for each refusal or branch that O55 speaks of. -/

namespace Sys2Proof.Machine

section LifeCycle

variable {d : Dev} {confirm slot : Nat}

/-! ## While an order runs, and without its confirmation (R486) -/

theorem lcCommand_busy {f : Dev → Dev} (h : d.sec.lcOp ≠ 0) : lcCommand confirm f d = d := if_pos h

theorem challenge_busy (h : d.sec.lcOp ≠ 0) : challenge d = d := if_pos h

theorem respondCmd_busy (h : d.sec.lcOp ≠ 0) : respondCmd d = d := if_pos h

section Free

variable (hfree : d.sec.lcOp = 0)
include hfree

theorem lcCommand_unconfirmed {f : Dev → Dev} (h : confirm ≠ 0x5AC3) : lcCommand confirm f d = lcErr 2 d := by simp [lcCommand, hfree, h]

theorem lcCommand_confirmed {f : Dev → Dev} : lcCommand 0x5AC3 f d = f d := by simp [lcCommand, hfree]

/-! ## Confirmed orders of a free steward, in each life-cycle state (R485, R486, R487, R488) -/

theorem provision_notBlank (h : lcState d ≠ 0) : provision 0x5AC3 d = lcErr 1 d := (lcCommand_confirmed hfree).trans (if_pos h)

theorem provision_trngFailed (hstate : lcState d = 0) (htrng : d.getB R.SEC_TRNG_FAILED = true) : provision 0x5AC3 d = lcErr 5 d := by
  rw [provision, lcCommand_confirmed hfree, if_neg (not_not_intro hstate), if_pos htrng]

theorem enroll_locked (h : 2 ≤ lcState d) : enroll 0x5AC3 slot d = lcErr 1 d := (lcCommand_confirmed hfree).trans (if_pos h)

theorem enroll_badSlot (hstate : lcState d < 2) (hslot : slot = 0 ∨ 3 < slot ∨ tabFind d.sec.fuses.hashes slot ≠ none) :
    enroll 0x5AC3 slot d = lcErr 9 d := by
  rw [← Option.isSome_iff_ne_none] at hslot
  rw [enroll, lcCommand_confirmed hfree, if_neg (Nat.not_le.2 hstate), if_pos hslot]

theorem fieldLock_notProvisioned (h : lcState d ≠ 1) : fieldLock 0x5AC3 d = lcErr 1 d := (lcCommand_confirmed hfree).trans (if_pos h)

theorem fieldLock_provisioned (h : lcState d = 1) : fieldLock 0x5AC3 d = lcStart 3 0 [] d :=
  (lcCommand_confirmed hfree).trans (if_neg (not_not_intro h))

theorem returnCmd_notAllowed (h : lcState d = 0 ∨ lcState d = 3) : returnCmd 0x5AC3 d = lcErr 1 d := by
  have hstate : lcState d ≠ 1 ∧ lcState d ≠ 2 := by omega
  exact (lcCommand_confirmed hfree).trans (if_pos hstate)

theorem challenge_notReturned (h : lcState d ≠ 3) : challenge d = lcErr 1 d := by rw [challenge, if_neg (not_not_intro hfree), if_pos h]

theorem respondCmd_notReturned (h : lcState d ≠ 3) : respondCmd d = lcErr 1 d := by rw [respondCmd, if_neg (not_not_intro hfree), if_pos h]

end Free

end LifeCycle

section Steward

variable {d : Dev} {dom slot : Nat}

/-! ## RAISE (R473; while one raise runs, that of any other domain is refused too: log entry 18) -/

/-- The domain status register shows a refused raise: the domain asked for and the error. -/
abbrev raiseRefused (dom n : Nat) (d : Dev) : Dev := (d.setF R.SEC_DOMAIN_STATUS_DOMAIN dom).setF R.SEC_DOMAIN_STATUS_ERR n

theorem raiseCmd_outOfService (h : d.inService = false) : raiseCmd dom d = raiseRefused dom 3 d := by simp [raiseCmd, h]

theorem raiseCmd_unused (hserv : d.inService = true) (h : (d.domain dom).inUse = false) : raiseCmd dom d = raiseRefused dom 2 d := by
  simp [raiseCmd, hserv, h]

theorem raiseCmd_raising (hserv : d.inService = true) (huse : (d.domain dom).inUse = true) (h : d.sec.raise ≠ none) :
    raiseCmd dom d = raiseRefused dom 1 d := by
  simp [raiseCmd, hserv, huse, Option.isSome_iff_ne_none.2 h]

/-! ## Replication keys (R489) and the random generator (R477) -/

theorem replWrite_noRoot {set : Bool} (hidle : d.sec.replBusy = false) (hroot : d.sec.root = none) :
    replWrite slot set d = d.setF R.SEC_REPL_CMD_ERR 1 := by simp [replWrite, hidle, hroot]

theorem trngRestart_passed (h : d.getB R.SEC_TRNG_FAILED = true) :
    trngRestart true d = (d.setB R.SEC_TRNG_FAILED false).setB R.SEC_TRNG_HEALTHY true := by simp [trngRestart, h]

/-- A restart that does not pass leaves the generator as it is, FAILED or not. -/
theorem trngRestart_notPassed : trngRestart false d = d := by simp [trngRestart]

end Steward

/-- Settles O55: a life-cycle order tests first whether one runs, then its confirmation where it takes one, then the life-cycle state; the
steward's other orders meet their own refusals, and a failed test of the generator acts without a guard. -/
theorem lifeCycleCommands : Obligations.LifeCycleCommands := by
  intro s cfm slot dom d err refuse
  refine ⟨fun hbusy => ?_, fun hfree hcfm => ?_, fun hfree hstate => ?_, fun hfree hstate htrng => ?_, fun hfree hstate => ?_,
    fun hfree hstate hslot => ?_, fun hfree hstate => ?_, fun hfree hstate => ?_, fun hfree hstate => ?_, fun hfree hstate => ⟨?_, ?_⟩,
    fun hserv => ?_, fun hserv huse => ?_, fun hserv huse hraise => ?_, fun hidle hroot => ?_, ?_, fun hfailed => ⟨?_, ?_⟩⟩
  · have hignored (f : Dev → Dev) : lcCommand cfm f d = d := lcCommand_busy hbusy
    simp only [List.forall_mem_cons, List.not_mem_nil, false_imp_iff, implies_true, and_true]
    refine ⟨?provision, ?enroll, ?fieldLock, ?returnHead, ?challenge, ?respond⟩
    case provision | enroll | fieldLock | returnHead => exact answers_settled (hignored _) rfl
    case challenge => exact answers_settled (challenge_busy (d := d) hbusy) rfl
    case respond => exact answers_settled (respondCmd_busy (d := d) hbusy) rfl
  · have hrefused (f : Dev → Dev) : lcCommand cfm f d = lcErr 2 d := lcCommand_unconfirmed (d := d) hfree hcfm
    simp only [List.forall_mem_cons, List.not_mem_nil, false_imp_iff, implies_true, and_true]
    refine ⟨?provision, ?enroll, ?fieldLock, ?returnHead⟩
    all_goals exact answers_settled (hrefused _) rfl
  · exact answers_settled (provision_notBlank (d := d) hfree hstate) rfl
  · exact answers_settled (provision_trngFailed (d := d) hfree hstate htrng) rfl
  · exact answers_settled (enroll_locked (d := d) hfree hstate) rfl
  · exact answers_settled (enroll_badSlot (d := d) hfree hstate hslot) rfl
  · exact answers_settled (fieldLock_notProvisioned (d := d) hfree hstate) rfl
  · exact answers_settled (fieldLock_provisioned (d := d) hfree hstate) rfl
  · exact answers_settled (returnCmd_notAllowed (d := d) hfree hstate) rfl
  · exact answers_settled (challenge_notReturned (d := d) hfree hstate) rfl
  · exact answers_settled (respondCmd_notReturned (d := d) hfree hstate) rfl
  · exact answers_settled (raiseCmd_outOfService (d := d) hserv) rfl
  · exact answers_settled (raiseCmd_unused (d := d) hserv huse) rfl
  · exact answers_settled (raiseCmd_raising (d := d) hserv huse hraise) rfl
  · have hrefused (set : Bool) : replWrite slot set d = d.setF R.SEC_REPL_CMD_ERR 1 := replWrite_noRoot hidle hroot
    simp only [List.forall_mem_cons, List.not_mem_nil, false_imp_iff, implies_true, and_true]
    refine ⟨?replSet, ?replClear⟩
    case replSet => exact answers_settled (hrefused true) rfl
    case replClear => exact answers_settled (hrefused false) rfl
  · exact answers_of_effect rfl
  · exact answers_settled (trngRestart_passed hfailed) rfl
  · exact answers_settled trngRestart_notPassed rfl

end Sys2Proof.Machine
end

section
/-! Proofs: the take-over and the return of a head, one equation for each state in or out of which a step acts (O58). -/

namespace Sys2Proof.Machine

section TakeOver

variable {d : Dev}

/-! ## The contest (R502) -/

theorem contestTimeout_noContest (h : d.per.contest = none) : contestTimeout d = d := by simp [contestTimeout, h]

theorem contestTimeout_contest (h : d.per.contest ≠ none) : contestTimeout d = contestLost d := if_pos (Option.isSome_iff_ne_none.mpr h)

/-! ## Adoption, publication and securing (R506, R508, R509) -/

theorem adoptEnd_notAdopting (h : d.getF R.PER_STATE_STATE ≠ 5) : adoptEnd d = d := if_pos (.inl h)

theorem adoptEnd_adopted (h : d.per.adopted = true) : adoptEnd d = d := if_pos (.inr h)

theorem publishEnd_notAdopting (h : d.getF R.PER_STATE_STATE ≠ 5) : publishEnd d = d := if_pos (.inl h)

theorem publishEnd_notAdopted (h : d.per.adopted = false) : publishEnd d = d := if_pos (.inr (by rw [h]; rfl))

theorem secured_notSolo (h : d.getF R.PER_STATE_STATE ≠ 6) : secured d = d := if_neg fun ⟨hsolo, _⟩ => h hsolo

theorem secured_notAdopted (h : d.per.adopted = false) : secured d = d :=
  if_neg fun ⟨_, hadopted, _⟩ => Bool.false_ne_true (h.symm.trans hadopted)

theorem secured_ownBatches (hsolo : d.getF R.PER_STATE_STATE = 6) (hadopted : d.per.adopted = true)
    (hown : d.write.batches.all (fun b => b.head == d.headNum) = true) : secured d = d.setB R.PER_STATE_SECURED true :=
  if_pos ⟨hsolo, hadopted, hown⟩

/-! ## The return (R510, R511) -/

/-- The count of messages is no part of the state of the pairing. -/
theorem rxMsg_perState (d : Dev) : (rxMsg d).getF R.PER_STATE_STATE = d.getF R.PER_STATE_STATE := rxMsg_getF d _ (by decide)

theorem joinMsg_outOfState {word jsn : Nat} (h : d.getF R.PER_STATE_STATE ≠ 2) : joinMsg word jsn d = d := if_pos (.inl h)

theorem resyncDone_outOfState {first word : Nat} (h : d.getF R.PER_STATE_STATE ≠ 2) : resyncDone first word d = d := if_pos (.inl h)

theorem returnHoldoffExpiry_notRunning (h : d.peerUp = false ∨ d.per.holdoff = false) : returnHoldoffExpiry d = d :=
  if_pos (by simpa using h)

theorem returnHoldoffExpiry_running (hpeer : d.peerUp = true) (hhold : d.per.holdoff = true) :
    returnHoldoffExpiry d = syncReclaim
      (({ d with per := { d.per with holdoff := false, reclaim := toReclaim d } } : Dev).setF R.PER_HOLDOFF_REMAINING_S 0) :=
  if_neg (by simp [hpeer, hhold])

end TakeOver

/-- Settles O58: each step of the take-over and of the return tests the state it acts in, and counting a message leaves that state as it is. -/
theorem takeOverOrders : Obligations.TakeOverOrders := by
  intro s word jsn first m st
  refine ⟨fun hnone => ?_, fun hcontest => ?_, fun hstate => ⟨?_, ?_⟩, fun hadopted => ?_, fun hadopted => ⟨?_, ?_⟩,
    fun hsolo hadopted hown => ?_, fun hstate => ?_, fun hstate => ?_, fun hidle => ?_, fun hpeer hhold => ?_⟩
  · exact answers_settled (contestTimeout_noContest hnone) rfl
  · exact answers_settled (contestTimeout_contest hcontest) rfl
  · exact answers_settled (adoptEnd_notAdopting hstate) rfl
  · exact answers_settled (publishEnd_notAdopting hstate) rfl
  · exact answers_settled (adoptEnd_adopted hadopted) rfl
  · exact answers_settled (publishEnd_notAdopted hadopted) rfl
  · exact answers_settled (secured_notAdopted hadopted) rfl
  · exact answers_settled (secured_ownBatches hsolo hadopted hown) rfl
  · exact answers_settled (secured_notSolo hstate) rfl
  · have hcounted : m.getF R.PER_STATE_STATE ≠ 2 := (rxMsg_perState s.dev).trans_ne hstate
    exact ⟨answers_settled (joinMsg_outOfState hcounted) rfl, answers_settled (resyncDone_outOfState hcounted) rfl⟩
  · exact answers_settled (returnHoldoffExpiry_notRunning hidle) rfl
  · exact answers_settled (returnHoldoffExpiry_running hpeer hhold) rfl

end Sys2Proof.Machine
end

section
/-! Proofs: what a step answers, and runs of a whole queue (O1, O2, O4). -/

namespace Sys2Proof.Machine

/-- Settles O1: a step of a queue that is not empty is the command at its front on the rest, by the definition of a step. -/
theorem stepTakesTheFront : Obligations.StepTakesTheFront := fun _ _ _ => rfl

/-- A step of a queue that is not empty puts the effect of the command at its front into the head. -/
theorem step_cons (c : Instr) (d : Dev) (q : List Instr) : step ⟨d, c :: q⟩ = .next ⟨effect c d, q⟩ :=
  everyCommandAnswers c ⟨d, q⟩

theorem coreRun_succ_of_next {M : Host.Core} {s s' : M.State} (k : Nat) (h : M.step s = .next s') : M.run (k + 1) s = M.run k s' := by
  rw [Host.Core.run, h]

/-- As many steps as commands wait run them all, each on the head that those before it made. -/
theorem run_queue : ∀ (q : List Instr) (d : Dev),
    (Host.Core.run Sys2Proof.core q.length (⟨d, q⟩ : State) : Host.Outcome State Fault Refusal) = .next ⟨runAll q d, []⟩
  | [], _ => rfl
  | c :: q, d =>
    have hstep : Sys2Proof.core.step (⟨d, c :: q⟩ : State) = .next (⟨effect c d, q⟩ : State) := step_cons c d q
    (coreRun_succ_of_next q.length hstep).trans (run_queue q (effect c d))

/-- Settles O4: by induction on the queue, since each command answers its effect and leaves the rest of the queue to the next step. -/
theorem queueRunsDry : Obligations.QueueRunsDry := fun s => run_queue s.pending s.dev

/-! ## The time base (R542, R543) -/

/-- Nanoseconds times 10⁹ that one tick adds to what the time base and its fraction hold. -/
def tickTotal (d : Dev) : Nat := ((tickNs : Int) * (1000000000 + freqPpb d)).toNat + d.hth.frac

theorem tickTime_rd_time (d : Dev) : (tickTime d).rd R.HTH_TIME = (d.rd R.HTH_TIME + tickTotal d / 1000000000) % 2 ^ 64 :=
  (rd_wr_same d R.HTH_TIME _).trans (Nat.mod_mod ..)

theorem tickTime_rd_other (d : Dev) {a : Nat} (h : a ≠ R.HTH_TIME) : (tickTime d).rd a = d.rd a := rd_wr_other d _ _ _ h.symm

theorem tickTime_frac (d : Dev) : (tickTime d).hth.frac = tickTotal d % 1000000000 := rfl

/-- Settles O2: the tick writes whole nanoseconds into the time base and keeps the remainder as the fraction. -/
theorem emptyQueueCountsTime : Obligations.EmptyQueueCountsTime := by
  intro d
  refine ⟨tickTime d, rfl, ?_, ?_, fun a ha => tickTime_rd_other d ha, rfl⟩
  · rw [tickTime_rd_time, tickTime_frac, tickTotal]
  · rw [tickTime_frac]
    exact Nat.mod_lt _ (by decide)

end Sys2Proof.Machine
end

section
/-! Proofs: the Error counters and the recorder's queue of events (O14, O16, O17, O22). -/

namespace Sys2Proof.Machine

/-! ## Counters that a CLR clears (R573) -/

/-- The registers of a list at zero, one after the other. -/
def zeroAll (l : List Nat) (d : Dev) : Dev := forEach l (fun a d => d.wr a 0) d

theorem zeroAll_rd_other (b : Nat) (l : List Nat) (d : Dev) (h : b ∉ l) : (zeroAll l d).rd b = d.rd b :=
  forEach_keeps (fun d => d.rd b) _ l d fun a ha d => rd_wr_other d a b 0 fun hab => h (hab ▸ ha)

/-- A register that reads zero goes on reading zero. -/
theorem zeroAll_rd_zero (b : Nat) (l : List Nat) (d : Dev) (h : d.rd b = 0) : (zeroAll l d).rd b = 0 :=
  forEach_inv (fun e => e.rd b = 0) _ l d (fun a _ e he => by
    by_cases hab : a = b
    · rw [hab, rd_wr_same, Nat.zero_mod]
    · rw [rd_wr_other _ _ _ _ hab, he]) h

theorem zeroAll_rd_mem (b : Nat) (l : List Nat) (d : Dev) (h : b ∈ l) : (zeroAll l d).rd b = 0 := by
  induction l generalizing d with
  | nil => cases h
  | cons a r ih =>
    rcases List.mem_cons.1 h with rfl | hr
    · exact zeroAll_rd_zero b r (d.wr b 0) (by rw [rd_wr_same, Nat.zero_mod])
    · exact ih (d.wr a 0) hr

/-- The counters of a row stand below its SAT register, and have no more SAT bits than it has bits. -/
theorem satRows_counters : ∀ x ∈ satRows, (∀ o ∈ x.ctrs, o < x.off) ∧ x.ctrs.length ≤ 64 := by decide

section Clear

variable {a : Nat} {x : SatRow} (hx : satRow a = some x)

/-- The addresses of a row's counters. -/
def satCounters (x : SatRow) (a : Nat) : List Nat := x.ctrs.map fun o => a - x.off + o

theorem mem_satCounters {b : Nat} : b ∈ satCounters x a ↔ ∃ o ∈ x.ctrs, b = a - x.off + o := by
  simp only [satCounters, List.mem_map, eq_comm]

theorem clearSat_eq (x : SatRow) (a : Nat) (d : Dev) :
    clearSat x a d = (zeroAll (satCounters x a) d).setF ⟨a, 0, x.ctrs.length⟩ 0 := by
  simp only [clearSat, zeroAll, satCounters, forEach, List.foldl_map]

include hx

theorem satRow_mem : x ∈ satRows := by
  unfold satRow at hx
  exact List.mem_of_find?_eq_some hx

theorem satRow_off : x.off = a % 0x200 := by
  unfold satRow at hx
  have h := List.find?_some hx
  simp only [Bool.and_eq_true, beq_iff_eq] at h
  obtain ⟨⟨⟨-, hoff⟩, -⟩, -⟩ := h
  exact hoff

/-- A row's SAT register is none of its counters. -/
theorem sat_notMem_counters : a ∉ satCounters x a := by
  rw [mem_satCounters]
  rintro ⟨o, ho, heq⟩
  have hlt := (satRows_counters x (satRow_mem hx)).1 o ho
  have hle : x.off ≤ a := satRow_off hx ▸ Nat.mod_le ..
  omega

theorem clearSat_rd_counter (d : Dev) {b : Nat} (h : b ∈ satCounters x a) : (clearSat x a d).rd b = 0 := by
  have hne : a ≠ b := fun hab => sat_notMem_counters hx (hab ▸ h)
  rw [clearSat_eq, rd_setF_other _ _ _ _ hne, zeroAll_rd_mem b _ d h]

theorem clearSat_getF_sat (d : Dev) : (clearSat x a d).getF ⟨a, 0, x.ctrs.length⟩ = 0 := by
  have hfit : 0 + x.ctrs.length ≤ 64 := by simpa using (satRows_counters x (satRow_mem hx)).2
  rw [clearSat_eq, getF_setF_same _ _ _ hfit, Nat.zero_mod]

omit hx in
theorem clearSat_rd_other (d : Dev) {b : Nat} (hb : b ≠ a) (h : b ∉ satCounters x a) : (clearSat x a d).rd b = d.rd b := by
  rw [clearSat_eq, rd_setF_other _ _ _ _ hb.symm, zeroAll_rd_other b _ d h]

theorem writeReg_clr (r : RegRow) (d : Dev) : writeReg r a 256 d = clearSat x a d := by
  have hclr : bitAt 256 8 = true := by decide
  simp [writeReg, hx, hclr]

theorem clrWrite_row {r : RegRow} (d : Dev) (hr : narrow a r) : clrWrite a d = clearSat x a (dropLatches d) := by
  have ⟨_, _, haligned, _⟩ := hr
  rw [clrWrite, hostWriteReg_four _ _ haligned, write32_narrow _ _ hr]
  exact writeReg_clr hx r _

end Clear

/-- Settles O14: CLR writes zero to the counters of its row one by one and then to their SAT bits, in registers apart from each other. -/
theorem clearedCounters : Obligations.ClearedCounters := by
  intro s a x r hx hr
  refine ⟨answers_settled (clrWrite_row hx s.dev hr) rfl, fun o ho => ?_, clearSat_getF_sat hx _, fun b hb hother => ?_⟩
  · exact clearSat_rd_counter hx _ (mem_satCounters.2 ⟨o, ho, rfl⟩)
  · refine clearSat_rd_other _ hb fun hmem => ?_
    obtain ⟨o, ho, heq⟩ := mem_satCounters.1 hmem
    exact hother o ho heq

/-! ## An Error counter rises (R571, R574) -/

section Counter

variable {d : Dev} {c : ErrCtr}

theorem err_counts (h : d.rd c.sa < 0xFFFFFFFE) : d.err c = d.wr c.sa (d.rd c.sa + 1) := by
  have hroom : ¬ d.rd c.sa ≥ 0xFFFFFFFF := by omega
  have hbelow : ¬ d.rd c.sa + 1 = 0xFFFFFFFF := by omega
  simp only [Dev.err, if_neg hroom, if_neg hbelow]

theorem err_counts_rd (h : d.rd c.sa < 0xFFFFFFFE) : (d.err c).rd c.sa = d.rd c.sa + 1 := by
  rw [err_counts h, rd_wr_same]
  omega

/-- The event of a full counter bears the time, which the counter is not. -/
theorem err_saturates (hc : c.sa ≠ R.HTH_TIME) (h : d.rd c.sa = 0xFFFFFFFE) :
    d.err c = ((d.wr c.sa 0xFFFFFFFF).setF ⟨c.satSa, c.satBit, 1⟩ 1).satEv
      ⟨c.sa / 0x400000 * 256 + 0xFF, d.rd R.HTH_TIME, c.sa / 0x200 * 0x200, c.sa, 0, 0, 0⟩ := by
  have hnow : (d.wr c.sa 0xFFFFFFFF).now = d.rd R.HTH_TIME := rd_wr_other d _ _ _ hc
  simp [Dev.err, h, hnow, pageOf]

theorem err_sticks (h : 0xFFFFFFFF ≤ d.rd c.sa) : d.err c = d := if_pos h

end Counter

/-- Settles O16: the counter's value decides between the three branches of its rise, and a cleared counter is below the last value. -/
theorem errorCounterSticks : Obligations.ErrorCounterSticks := by
  intro d c hc
  refine ⟨fun h => ⟨err_counts h, err_counts_rd h⟩, err_saturates hc, err_sticks, fun a x hx o ho hsa => ?_⟩
  have hzero : (clearSat x a d).rd c.sa = 0 := clearSat_rd_counter hx d (mem_satCounters.2 ⟨o, ho, hsa⟩)
  refine ⟨hzero, ?_⟩
  rw [err_counts (by rw [hzero]; decide), hzero]

/-! ## An event reaches the recorder (R566, R567) -/

/-- The event is of severity INFO or NOTICE and its steward is masked (R567). -/
abbrev evMasked (d : Dev) (e : Ev) : Prop := (evMeta e.code).1 < 2 ∧ bitAt (d.rd R.EVT_MASK) (e.code / 256) = true

section Post

variable {d : Dev} {e : Ev}

theorem postEv_masked (h : evMasked d e) : d.postEv e = d.stat R.EVT_MASKED 1 := by
  have henqueue : d.enqueueEv e = d.stat R.EVT_MASKED 1 := if_pos h
  simp [Dev.postEv, henqueue]

theorem postEv_queued (h : ¬ evMasked d e) (hroom : d.evt.queue.length < 256) :
    d.postEv e = { d with evt := { d.evt with queue := d.evt.queue ++ [e] } } := by
  have henqueue : d.enqueueEv e = { d with evt := { d.evt with queue := d.evt.queue ++ [e] } } :=
    (if_neg h).trans (if_neg (Nat.not_le.2 hroom))
  simp [Dev.postEv, henqueue]

theorem postEv_dropped (h : ¬ evMasked d e) (hfull : 256 ≤ d.evt.queue.length) :
    d.postEv e = ({ d with evt := { d.evt with dropped := d.evt.dropped + 1 } } : Dev).err R.E_EVT_DROPPED := by
  have henqueue : d.enqueueEv e = { d with evt := { d.evt with dropped := d.evt.dropped + 1 } } :=
    (if_neg h).trans (if_pos hfull)
  simp [Dev.postEv, henqueue]

end Post

/-- Settles O17: the mask is tested first and the room in the queue second; only a drop changes the number of dropped events. -/
theorem eventsReachTheRecorder : Obligations.EventsReachTheRecorder := by
  intro s e masked
  refine ⟨fun h => ?_, fun h hroom => ?_, fun h hfull => ?_⟩
  · exact answers_synced (postEv_masked h) rfl
  · exact answers_synced (postEv_queued h hroom) rfl
  · exact answers_synced (postEv_dropped h hfull) rfl

/-! ## The SMBus transactions (R577, R592) -/

section Smbus

variable {d : Dev} {b : Bytes}

theorem smbSetPtr_block (h : b.length = 4) : smbSetPtr false b d = { d with evt := { d.evt with ptr := leNat b } } := by
  simp [smbSetPtr, h]

theorem smbSetPtr_otherSize (h : b.length ≠ 4) : smbSetPtr false b d = smbRefuse d := by simp [smbSetPtr, h]

end Smbus

/-- Settles O22: a bad PEC refuses each transaction before anything else, and the size of the block refuses a pointer. -/
theorem smbusAnswers : Obligations.SmbusAnswers := by
  intro s b nack
  refine ⟨answers_of_effect rfl, fun h => answers_synced (smbSetPtr_block h) rfl, answers_of_effect rfl, answers_of_effect rfl,
    answers_of_effect rfl, answers_of_effect rfl, fun h => answers_synced (smbSetPtr_otherSize h) rfl, answers_of_effect rfl⟩

end Sys2Proof.Machine
end

section
/-! Proofs: the event recorder and its records (O18 to O21), and the order of sequence numbers (O39). -/

namespace Sys2Proof.Machine

/-! ## Sequence numbers (R564, R571) -/

/-- Newer is at most half the range ahead, the range going round. -/
theorem newerW_iff {a b : Nat} (hb : b < 2 ^ 32) :
    newerW 32 a b = true ↔ 1 ≤ (a + 2 ^ 32 - b) % 2 ^ 32 ∧ (a + 2 ^ 32 - b) % 2 ^ 32 < 2 ^ 31 := by
  simp only [newerW, Nat.mod_eq_of_lt hb, decide_eq_true_eq]

theorem newerW_eq_false_iff {a b : Nat} (hb : b < 2 ^ 32) :
    newerW 32 a b = false ↔ ¬ (1 ≤ (a + 2 ^ 32 - b) % 2 ^ 32 ∧ (a + 2 ^ 32 - b) % 2 ^ 32 < 2 ^ 31) := by
  rw [← newerW_iff hb, Bool.not_eq_true]

/-- Settles O39: the two distances between two values add up to the range, and the value `k` steps on lies at distance `k`. -/
theorem sequenceOrder : Obligations.SequenceOrder := by
  intro a b ha hb
  refine ⟨?_, ?_, fun hne hhalf => ?_, fun k hk hk' => ?_⟩
  · rw [newerW_eq_false_iff ha]
    omega
  · rw [newerW_iff hb, newerW_iff ha]
    omega
  · rw [newerW_iff hb, newerW_iff ha]
    omega
  · have hlt : (a + k) % 2 ^ 32 < 2 ^ 32 := Nat.mod_lt _ (by decide)
    rw [newerW_iff ha, newerW_eq_false_iff hlt]
    omega

theorem nextRingSeq_eq {s : Nat} (h : s < 2 ^ 32) : nextRingSeq s = if s = 2 ^ 32 - 1 then 1 else s + 1 := by
  unfold nextRingSeq
  split <;> split <;> omega

theorem nextRingSeq_ne_zero (s : Nat) : nextRingSeq s ≠ 0 := by
  unfold nextRingSeq
  split <;> omega

theorem nextRingSeq_lt (s : Nat) : nextRingSeq s < 2 ^ 64 := by
  unfold nextRingSeq
  split <;> omega

/-! ## A new record (R564, R566) -/

/-- The head with a new record in its slot and the record's number in the registers. -/
def numbered (d : Dev) (e : Ev) : Dev :=
  let s := nextRingSeq (d.rd R.EVT_NEWEST)
  let d1 : Dev := { d with evt := { d.evt with ring := tabPut d.evt.ring (s % evtSlots) ⟨s, e, 0, false, 0, false⟩ } }
  ((d1.wr R.EVT_NEWEST s).wr R.EVT_OLDEST (oldestAfter d s)).stat R.EVT_RECORDED 1

/-- The registers that a new record writes. -/
def numberRegs : List Nat := [R.EVT_NEWEST, R.EVT_OLDEST, R.EVT_RECORDED]

section Numbered

variable (d : Dev) (e : Ev)

theorem numbered_rd_other {a : Nat} (h : a ∉ numberRegs) : (numbered d e).rd a = d.rd a := by
  simp only [numberRegs, List.mem_cons, List.not_mem_nil, or_false, not_or] at h
  obtain ⟨hnewest, holdest, hrecorded⟩ := h
  unfold numbered Dev.stat
  rw [rd_wr_other _ _ _ _ (Ne.symm hrecorded), rd_wr_other _ _ _ _ (Ne.symm holdest), rd_wr_other _ _ _ _ (Ne.symm hnewest)]
  rfl

theorem numbered_getF {f : Field} (h : f.sa ∉ numberRegs) : (numbered d e).getF f = d.getF f := by
  rw [Dev.getF, numbered_rd_other d e h, Dev.getF]

theorem numbered_rd_newest : (numbered d e).rd R.EVT_NEWEST = nextRingSeq (d.rd R.EVT_NEWEST) := by
  unfold numbered Dev.stat
  rw [rd_wr_other _ _ _ _ (by decide), rd_wr_other _ _ _ _ (by decide), rd_wr_same, Nat.mod_eq_of_lt (nextRingSeq_lt _)]

theorem numbered_rd_recorded : (numbered d e).rd R.EVT_RECORDED = (d.rd R.EVT_RECORDED + 1) % 2 ^ 64 := by
  unfold numbered Dev.stat
  rw [rd_wr_same, Nat.mod_mod, rd_wr_other _ _ _ _ (by decide), rd_wr_other _ _ _ _ (by decide)]
  rfl

theorem numbered_ring : (numbered d e).evt.ring = tabPut d.evt.ring (nextRingSeq (d.rd R.EVT_NEWEST) % 4096)
    ⟨nextRingSeq (d.rd R.EVT_NEWEST), e, 0, false, 0, false⟩ := rfl

theorem numbered_queue : (numbered d e).evt.queue = d.evt.queue := rfl

end Numbered

/-! ## The interrupt of a record (R575) -/

/-- The head once the interrupt of a record is due: NEW set, and a message sent where that is a change and EN is set. -/
def signalled (d : Dev) : Dev :=
  let w := d.setB R.EVT_INT_STATUS_NEW true
  if !d.getB R.EVT_INT_STATUS_NEW && w.getB R.EVT_INT_EN then w.msix (w.getF R.EVT_INT_VECTOR) none else w

section Signalled

variable (d : Dev)

theorem setNew_getF {f : Field} (h : R.EVT_INT_STATUS ≠ f.sa) : (d.setB R.EVT_INT_STATUS_NEW true).getF f = d.getF f :=
  getF_wr_other d f _ _ h

variable {d} in
theorem signalled_silent (h : d.getB R.EVT_INT_STATUS_NEW = true ∨ d.getB R.EVT_INT_EN = false) :
    signalled d = d.setB R.EVT_INT_STATUS_NEW true := by
  have hen : (d.setB R.EVT_INT_STATUS_NEW true).getB R.EVT_INT_EN = d.getB R.EVT_INT_EN := by
    rw [Dev.getB, setNew_getF d (by decide), Dev.getB]
  rcases h with h | h <;> simp [signalled, hen, h]

variable {d} in
theorem signalled_message (hnew : d.getB R.EVT_INT_STATUS_NEW = false) (hen : d.getB R.EVT_INT_EN = true) :
    signalled d = (d.setB R.EVT_INT_STATUS_NEW true).msix (d.getF R.EVT_INT_VECTOR) none := by
  have hen' : (d.setB R.EVT_INT_STATUS_NEW true).getB R.EVT_INT_EN = true := by
    rwa [Dev.getB, setNew_getF d (by decide)]
  have hvector : (d.setB R.EVT_INT_STATUS_NEW true).getF R.EVT_INT_VECTOR = d.getF R.EVT_INT_VECTOR := setNew_getF d (by decide)
  simp [signalled, hnew, hen', hvector]

/-- Signalling sets NEW, and at most sends a message besides. -/
theorem signalled_cases : signalled d = d.setB R.EVT_INT_STATUS_NEW true ∨
    signalled d = (d.setB R.EVT_INT_STATUS_NEW true).msix (d.getF R.EVT_INT_VECTOR) none := by
  cases hnew : d.getB R.EVT_INT_STATUS_NEW with
  | true => exact .inl (signalled_silent (.inl hnew))
  | false =>
    cases hen : d.getB R.EVT_INT_EN with
    | false => exact .inl (signalled_silent (.inr hen))
    | true => exact .inr (signalled_message hnew hen)

theorem msix_evt (v : Nat) (p : Option Nat) : (d.msix v p).evt = d.evt := by rw [(msix_frame d v p).1]

theorem msix_dram (v : Nat) (p : Option Nat) : (d.msix v p).dram = d.dram := by rw [(msix_frame d v p).1]

theorem msix_rd_other (v : Nat) (p : Option Nat) {a : Nat} (h : a ≠ R.HEP_MSIX_SENT) : (d.msix v p).rd a = d.rd a := by
  obtain ⟨-, hrd, -⟩ := msix_frame d v p
  exact hrd a h

theorem signalled_evt : (signalled d).evt = d.evt := by
  rcases signalled_cases d with h | h <;> rw [h]
  · rfl
  · exact msix_evt ..

theorem signalled_dram : (signalled d).dram = d.dram := by
  rcases signalled_cases d with h | h <;> rw [h]
  · rfl
  · exact msix_dram ..

theorem signalled_rd_other {a : Nat} (hstatus : a ≠ R.EVT_INT_STATUS) (hsent : a ≠ R.HEP_MSIX_SENT) : (signalled d).rd a = d.rd a := by
  have hset : (d.setB R.EVT_INT_STATUS_NEW true).rd a = d.rd a := rd_setF_other d _ _ _ (Ne.symm hstatus)
  rcases signalled_cases d with h | h <;> rw [h]
  · exact hset
  · rw [msix_rd_other _ _ _ hsent, hset]

theorem setNew_new : (d.setB R.EVT_INT_STATUS_NEW true).getB R.EVT_INT_STATUS_NEW = true := getB_setB_same d _ _ (by decide) (by decide)

theorem signalled_new : (signalled d).getB R.EVT_INT_STATUS_NEW = true := by
  rcases signalled_cases d with h | h <;> rw [h]
  · exact setNew_new d
  · rw [Dev.getB, Dev.getF, msix_rd_other _ _ _ (by decide)]
    exact setNew_new d

end Signalled

/-! ## Writing a record -/

section WriteRecord

variable (d : Dev) (e : Ev)

/-- The severity of an event asks for the interrupt (R575). -/
abbrev interruptDue (d : Dev) (e : Ev) : Prop := d.getF R.EVT_INT_MIN_SEV ≤ (evMeta e.code).1

theorem writeRecord_eq : writeRecord d e = if interruptDue d e then signalled (numbered d e) else numbered d e := by
  have hsev := numbered_getF d e (f := R.EVT_INT_MIN_SEV) (by decide)
  unfold interruptDue
  rw [← hsev]
  rfl

variable {d e} in
theorem writeRecord_due (h : interruptDue d e) : writeRecord d e = signalled (numbered d e) := by rw [writeRecord_eq, if_pos h]

variable {d e} in
theorem writeRecord_notDue (h : ¬ interruptDue d e) : writeRecord d e = numbered d e := by rw [writeRecord_eq, if_neg h]

theorem writeRecord_evt : (writeRecord d e).evt = (numbered d e).evt := by
  rw [writeRecord_eq]
  split
  · exact signalled_evt _
  · rfl

theorem writeRecord_dram : (writeRecord d e).dram = d.dram := by
  rw [writeRecord_eq]
  split
  · exact signalled_dram _
  · rfl

theorem writeRecord_rd {a : Nat} (hstatus : a ≠ R.EVT_INT_STATUS) (hsent : a ≠ R.HEP_MSIX_SENT) :
    (writeRecord d e).rd a = (numbered d e).rd a := by
  rw [writeRecord_eq]
  split
  · exact signalled_rd_other _ hstatus hsent
  · rfl

theorem numbered_getB {f : Field} (h : f.sa ∉ numberRegs) : (numbered d e).getB f = d.getB f := by
  rw [Dev.getB, numbered_getF d e h, Dev.getB]

theorem writeRecord_new :
    (writeRecord d e).getB R.EVT_INT_STATUS_NEW = (d.getB R.EVT_INT_STATUS_NEW || decide (interruptDue d e)) := by
  by_cases hdue : interruptDue d e
  · simp [writeRecord_due hdue, signalled_new, hdue]
  · simp [writeRecord_notDue hdue, numbered_getB d e (f := R.EVT_INT_STATUS_NEW) (by decide), hdue]

end WriteRecord

/-- Settles O19: the number and the slot are those of the head before the interrupt, which touches neither the ring nor the numbers. -/
theorem recordsAreNumbered : Obligations.RecordsAreNumbered := by
  intro d e hnewest seq t
  have hseq : nextRingSeq (d.rd R.EVT_NEWEST) = seq := nextRingSeq_eq hnewest
  have hring : t.evt.ring = tabPut d.evt.ring (seq % 4096) ⟨seq, e, 0, false, 0, false⟩ := by
    rw [writeRecord_evt, numbered_ring, hseq]
  refine ⟨hseq ▸ nextRingSeq_ne_zero _, ?_, ?_, fun k hk => ?_, ?_, writeRecord_new d e, ?_, writeRecord_dram d e⟩
  · rw [writeRecord_rd d e (by decide) (by decide), numbered_rd_newest, hseq]
  · rw [hring, tabFind_put_same]
  · rw [hring, tabFind_put_other _ _ _ _ hk.symm]
  · rw [writeRecord_rd d e (by decide) (by decide), numbered_rd_recorded]
  · rw [writeRecord_evt, numbered_queue]

/-! ## The oldest waiting event is recorded (R566, R568) -/

/-- The head without the event at the front of the queue: event 0301h with the number of dropped events takes the room it left (R566). -/
def afterPop (d : Dev) (rest : List Ev) : Dev :=
  { d with evt := { d.evt with
    queue := if d.evt.dropped = 0 then rest else rest ++ [⟨0x0301, d.rd R.HTH_TIME, ownPage 3, d.evt.dropped, 0, 0, 0⟩]
    dropped := 0 } }

section EventWrite

variable {d : Dev} {e : Ev} {rest : List Ev}

theorem popEvent_cons (h : d.evt.queue = e :: rest) : popEvent d = some (e, afterPop d rest) := by
  by_cases hdropped : d.evt.dropped = 0
  · simp [popEvent, afterPop, h, hdropped]
  · simp [popEvent, afterPop, h, hdropped, Dev.now]

theorem eventWrite_empty (h : d.evt.queue = []) : eventWrite d = d := by simp [eventWrite, popEvent, h]

theorem eventWrite_cons (h : d.evt.queue = e :: rest) : eventWrite d = recordEvent (afterPop d rest) e := by
  simp [eventWrite, popEvent_cons h]

theorem recordEvent_repeat {r : EvRec} (hnewest : d.rd R.EVT_NEWEST ≠ 0)
    (hslot : tabFind d.evt.ring (d.rd R.EVT_NEWEST % 4096) = some r) (hsame : sameEvent r.ev e = true) :
    recordEvent d e = ({ d with evt := { d.evt with
      ring := tabPut d.evt.ring (d.rd R.EVT_NEWEST % 4096) (mergeRepeat r e) } } : Dev).stat R.EVT_REPEATS 1 := by
  simp [recordEvent, evtSlots, hslot, hnewest, hsame]

theorem recordEvent_new (h : d.rd R.EVT_NEWEST = 0 ∨
    ∀ r, tabFind d.evt.ring (d.rd R.EVT_NEWEST % 4096) = some r → sameEvent r.ev e = false) :
    recordEvent d e = writeRecord d e := by
  unfold recordEvent
  dsimp only
  split
  next r hslot =>
    refine if_neg fun ⟨hnewest, hsame⟩ => ?_
    have hother := h.resolve_left hnewest r hslot
    exact absurd hsame (Bool.eq_false_iff.1 hother)
  next => rfl

end EventWrite

/-- Settles O18: what the newest slot holds decides between a repeat and a new record, whose interrupt follows its severity, NEW and EN. -/
theorem eventsBecomeRecords : Obligations.EventsBecomeRecords := by
  intro s
  refine ⟨fun hempty => answers_synced (eventWrite_empty hempty) rfl, ?_⟩
  intro e rest hqueue d0
  have hwrite : eventWrite s.dev = recordEvent d0 e := eventWrite_cons hqueue
  have hnew : (numbered d0 e).getB R.EVT_INT_STATUS_NEW = s.dev.getB R.EVT_INT_STATUS_NEW := numbered_getB d0 e (by decide)
  have hen : (numbered d0 e).getB R.EVT_INT_EN = s.dev.getB R.EVT_INT_EN := numbered_getB d0 e (by decide)
  refine ⟨fun r hnewest hslot hsame => ?_, fun hother => ?_, fun hdue => ?_, fun hdue hsilent => ?_, fun hdue hwas hon => ?_⟩
  · exact answers_synced (hwrite.trans (recordEvent_repeat (d := d0) hnewest hslot hsame)) rfl
  · exact answers_synced (hwrite.trans (recordEvent_new (d := d0) hother)) rfl
  · rw [writeRecord_notDue (d := d0) hdue]
    exact ⟨hnew, rfl⟩
  · rw [writeRecord_due (d := d0) hdue]
    refine ⟨signalled_new _, ?_⟩
    rw [signalled_silent (by rwa [hnew, hen])]
    rfl
  · refine ⟨(numbered d0 e).setB R.EVT_INT_STATUS_NEW true, ?_, rfl, rfl, setNew_new _⟩
    rw [writeRecord_due (d := d0) hdue, signalled_message (hnew.trans hwas) (hen.trans hon), numbered_getF d0 e (by decide)]
    rfl

/-! ## Repeats (R568, R571) -/

section Merge

variable (r : EvRec) (e : Ev)

theorem mergeRepeat_repeats : (mergeRepeat r e).repeats = min (r.repeats + 1) 0xFFFF := rfl

theorem mergeRepeat_repeatSat : (mergeRepeat r e).repeatSat = (r.repeatSat || decide (0xFFFF ≤ r.repeats + 1)) := rfl

theorem mergeRepeat_delta : (mergeRepeat r e).delta = min (max r.delta (e.time - r.ev.time)) 0xFFFFFFFFFFFF := rfl

theorem mergeRepeat_deltaSat : (mergeRepeat r e).deltaSat = (r.deltaSat || decide (0xFFFFFFFFFFFF < e.time - r.ev.time)) := rfl

end Merge

/-- Settles O20: both numbers are the smaller of a rising value and the field's maximum, and both flags are kept once set. -/
theorem repeatsStick : Obligations.RepeatsStick := by
  intro r e hrepeats hdelta m
  have hcount : m.repeats = min (r.repeats + 1) 0xFFFF := mergeRepeat_repeats r e
  have hlast : m.delta = min (max r.delta (e.time - r.ev.time)) 0xFFFFFFFFFFFF := mergeRepeat_delta r e
  refine ⟨rfl, rfl, by omega, by omega, fun h => by omega, fun hmax => ?_, fun hsat => ?_, by omega, by omega,
    fun hgap => ⟨by omega, ?_⟩, fun hgap => ⟨by omega, ?_⟩⟩
  · have hfull : 0xFFFF ≤ r.repeats + 1 := by omega
    simp [m, mergeRepeat_repeatSat, hfull]
  · simp [m, mergeRepeat_repeatSat, hsat]
  · simp [m, mergeRepeat_deltaSat, Nat.not_lt.2 hgap]
  · simp [m, mergeRepeat_deltaSat, hgap]

/-! ## The bytes of a record (R563) -/

/-- A number written alone. -/
theorem fieldAt_leBytes (n v : Nat) : fieldAt (leBytes n v) 0 n = v % 256 ^ n := by
  simpa using fieldAt_leBytes_append n v []

/-- The bytes of a record before its CRC; the last delta and the repeat count share a word of 64 bits. -/
def evRecHead (r : EvRec) : Bytes :=
  leBytes 4 r.seq ++ leBytes 2 r.ev.code ++ leBytes 1 ((evMeta r.ev.code).1 + 8 * (evMeta r.ev.code).2) ++
    leBytes 1 (b2n r.repeatSat + 2 * b2n r.deltaSat) ++ leBytes 8 r.ev.time ++ leBytes 8 (r.delta + r.repeats * 2 ^ 48) ++ leBytes 4 r.ev.src

/-- The bytes of a record after its CRC. -/
def evRecTail (r : EvRec) : Bytes := leBytes 8 r.ev.p0 ++ leBytes 8 r.ev.p1 ++ leBytes 8 r.ev.p2 ++ leBytes 8 r.ev.p3

section Bytes

variable (r : EvRec)

@[simp] theorem evRecHead_length : (evRecHead r).length = 28 := by simp [evRecHead]

@[simp] theorem evRecTail_length : (evRecTail r).length = 32 := by simp [evRecTail]

theorem evRecBody_eq (crc : Nat) : evRecBody r crc = evRecHead r ++ leBytes 4 crc ++ evRecTail r := by
  simp only [evRecBody, evRecHead, evRecTail, List.append_assoc]

/-- The CRC that a record carries: that of the record with zeros in its place (R11). -/
def evRecCrc (r : EvRec) : Nat := crcNat (evRecHead r ++ zeros 4 ++ evRecTail r)

theorem evRecBytes_eq : evRecBytes r = evRecHead r ++ leBytes 4 (evRecCrc r) ++ evRecTail r := by
  rw [evRecBytes, evRecBody_eq, evRecBody_eq, evRecCrc]
  rfl

theorem evRecBytes_length : (evRecBytes r).length = 64 := by simp [evRecBytes_eq]

/-- The CRC of a record verifies. -/
theorem fieldAt_evRecBytes_crc : fieldAt (evRecBytes r) 28 4 = crcNat (overlay (evRecBytes r) 28 (zeros 4)) := by
  have hlt : evRecCrc r < 256 ^ 4 := (crc32c _).isLt
  have hover := overlay_mid (evRecHead r) (leBytes 4 (evRecCrc r)) (evRecTail r) (zeros 4) (by simp [zeros_length])
  have hcrc := fieldAt_mid (evRecHead r) (evRecTail r) 4 (evRecCrc r)
  rw [evRecHead_length] at hover hcrc
  rw [evRecBytes_eq, hover, hcrc, Nat.mod_eq_of_lt hlt, evRecCrc]

/-- A number before the CRC is read from the head. -/
theorem fieldAt_evRecBytes_head {o n : Nat} (h : o + n ≤ 28) : fieldAt (evRecBytes r) o n = fieldAt (evRecHead r) o n := by
  rw [evRecBytes_eq, List.append_assoc, fieldAt_append_left _ (by rwa [evRecHead_length])]

/-- A number after the CRC is read from the tail. -/
theorem fieldAt_evRecBytes_tail (o n : Nat) : fieldAt (evRecBytes r) (32 + o) n = fieldAt (evRecTail r) o n := by
  rw [evRecBytes_eq, fieldAt_append_of_le _ _ (by simp)]
  simp

/-- The numbers before the CRC but for the shared word, each cut to the width of its field. -/
theorem evRecHead_fields :
    fieldAt (evRecHead r) 0 4 = r.seq % 2 ^ 32 ∧ fieldAt (evRecHead r) 4 2 = r.ev.code % 2 ^ 16 ∧
      fieldAt (evRecHead r) 6 1 = ((evMeta r.ev.code).1 + 8 * (evMeta r.ev.code).2) % 2 ^ 8 ∧
      fieldAt (evRecHead r) 7 1 = (b2n r.repeatSat + 2 * b2n r.deltaSat) % 2 ^ 8 ∧ fieldAt (evRecHead r) 8 8 = r.ev.time % 2 ^ 64 ∧
      fieldAt (evRecHead r) 24 4 = r.ev.src % 2 ^ 32 := by
  simp [evRecHead, fieldAt_append_of_le, fieldAt_leBytes_append, fieldAt_leBytes]

/-- The last delta is the low 48 bits of its word, the repeat count the high 16. -/
theorem evRecHead_delta_repeats (hdelta : r.delta < 2 ^ 48) (hrepeats : r.repeats < 2 ^ 16) :
    fieldAt (evRecHead r) 16 6 = r.delta ∧ fieldAt (evRecHead r) 22 2 = r.repeats := by
  have hword := leBytes_add 6 2 (r.delta + r.repeats * 2 ^ 48)
  have hlow : (r.delta + r.repeats * 2 ^ 48) % 256 ^ 6 = r.delta := by omega
  have hhigh : (r.delta + r.repeats * 2 ^ 48) / 256 ^ 6 % 256 ^ 2 = r.repeats := by omega
  rw [evRecHead, hword]
  constructor
  · simpa [fieldAt_append_of_le, fieldAt_leBytes_append] using hlow
  · simpa [fieldAt_append_of_le, fieldAt_leBytes_append] using hhigh

theorem evRecTail_fields :
    fieldAt (evRecTail r) 0 8 = r.ev.p0 % 2 ^ 64 ∧ fieldAt (evRecTail r) 8 8 = r.ev.p1 % 2 ^ 64 ∧
      fieldAt (evRecTail r) 16 8 = r.ev.p2 % 2 ^ 64 ∧ fieldAt (evRecTail r) 24 8 = r.ev.p3 % 2 ^ 64 := by
  simp [evRecTail, fieldAt_append_of_le, fieldAt_leBytes_append, fieldAt_leBytes]

end Bytes

/-- Severity and class of every event code fit the byte they share (R563, R570). -/
theorem evMeta_lt (code : Nat) : (evMeta code).1 + 8 * (evMeta code).2 < 2 ^ 8 := by
  unfold evMeta
  split
  · decide
  · split <;> decide

theorem satFlags_lt (a b : Bool) : b2n a + 2 * b2n b < 2 ^ 8 := by cases a <;> cases b <;> decide

/-- Settles O21: the CRC lies between a head and a tail of fixed length, in which each number is read at the place it was written to. -/
theorem eventRecordBytes : Obligations.EventRecordBytes := by
  intro r hseq hcode htime hsrc hdelta hrepeats hp0 hp1 hp2 hp3 b
  have hhead {o n : Nat} (h : o + n ≤ 28) : fieldAt b o n = fieldAt (evRecHead r) o n := fieldAt_evRecBytes_head r h
  have htail (o n : Nat) : fieldAt b (32 + o) n = fieldAt (evRecTail r) o n := fieldAt_evRecBytes_tail r o n
  obtain ⟨gseq, gcode, gmeta, gflags, gtime, gsrc⟩ := evRecHead_fields r
  obtain ⟨gdelta, grepeats⟩ := evRecHead_delta_repeats r hdelta hrepeats
  obtain ⟨g0, g1, g2, g3⟩ := evRecTail_fields r
  rw [Nat.mod_eq_of_lt (by assumption)] at gseq gcode gtime gsrc g0 g1 g2 g3
  rw [Nat.mod_eq_of_lt (evMeta_lt _)] at gmeta
  rw [Nat.mod_eq_of_lt (satFlags_lt ..)] at gflags
  exact ⟨evRecBytes_length r, (hhead (by decide)).trans gseq, (hhead (by decide)).trans gcode, (hhead (by decide)).trans gmeta,
    (hhead (by decide)).trans gflags, (hhead (by decide)).trans gtime, (hhead (by decide)).trans gdelta,
    (hhead (by decide)).trans grepeats, (hhead (by decide)).trans gsrc, fieldAt_evRecBytes_crc r, (htail 0 8).trans g0,
    (htail 8 8).trans g1, (htail 16 8).trans g2, (htail 24 8).trans g3⟩

end Sys2Proof.Machine
end

section
/-! Proofs: the test port (O23, O24), and what it and the SMBus port leave alone (O25). -/

namespace Sys2Proof.Machine

/-! ## The instructions of the test port (R593) -/

section Jtag

variable {d : Dev}

theorem jtagBypass_good (h : d.hth.pwrGood = true) : jtagBypass d = jtagSelect d .bypass .mission false := if_pos h

theorem jtagBypass_unpowered (h : d.hth.pwrGood = false) : jtagBypass d = d := by simp [jtagBypass, h]

theorem jtagIdcode_good (h : d.hth.pwrGood = true) :
    jtagIdcode d = (jtagSelect d .idcode .mission false).emit (.jtag (idcodeValue d)) := if_pos h

theorem jtagIdcode_unpowered (h : d.hth.pwrGood = false) : jtagIdcode d = d := by simp [jtagIdcode, h]

theorem jtagSample_good (pins cells : List (Nat × Bool)) (h : d.hth.pwrGood = true) :
    jtagSample pins cells d = { d.emit (.jtag (pins.foldl (fun n p => n + b2n p.2 * 2 ^ p.1) 0)) with
      jtag := { d.jtag with instr := .samplePreload, drive := .mission, serdesTest := false, shift := pins, update := cells } } := by
  simp [jtagSample, jtagSelect, Dev.emit, h]

theorem jtagSample_unpowered (pins cells : List (Nat × Bool)) (h : d.hth.pwrGood = false) : jtagSample pins cells d = d := by
  simp [jtagSample, h]

section Guarded

variable (i : JtagInstr) (b : BallDrive) (serdes : Bool)

theorem jtagGuarded_reset (h : d.hth.pwrGood = true) (hreset : d.hth.sysResetL = false) :
    jtagGuarded i b serdes d = jtagSelect d i b serdes := by simp [jtagGuarded, h, hreset]

theorem jtagGuarded_running (h : d.hth.pwrGood = true) (hrun : d.hth.sysResetL = true) :
    jtagGuarded i b serdes d = jtagSelect d .bypass .mission false := by simp [jtagGuarded, h, hrun]

end Guarded

end Jtag

/-- Settles O23: the supply is the only guard of the three instructions, and the reset of the TAP has none. -/
theorem jtagAlwaysAccepted : Obligations.JtagAlwaysAccepted := by
  intro s pins cells j
  refine ⟨fun hgood => ⟨?_, ?_, ?_⟩, fun hdown => ⟨?_, ?_, ?_⟩, answers_of_effect rfl⟩
  · exact answers_synced (jtagBypass_good hgood) rfl
  · exact answers_synced (jtagSample_good pins cells hgood) rfl
  · exact answers_synced (jtagIdcode_good hgood) rfl
  · exact answers_synced (jtagBypass_unpowered hdown) rfl
  · exact answers_synced (jtagSample_unpowered pins cells hdown) rfl
  · exact answers_synced (jtagIdcode_unpowered hdown) rfl

/-- Settles O24: the five instructions share one guard, which SYS_RESET_L decides once the supply is good. -/
theorem jtagGuarded_instructions : Obligations.JtagGuarded := by
  intro s hgood go
  refine ⟨fun hreset => ?_, fun hrun => ?_⟩
  · have hacts := fun i b t => jtagGuarded_reset i b t hgood hreset
    exact ⟨answers_synced (hacts _ _ _) rfl, answers_synced (hacts _ _ _) rfl, answers_synced (hacts _ _ _) rfl,
      answers_synced (hacts _ _ _) rfl, answers_synced (hacts _ _ _) rfl⟩
  · have hbypass := fun i b t => jtagGuarded_running i b t hgood hrun
    exact ⟨answers_synced (hbypass _ _ _) rfl, answers_synced (hbypass _ _ _) rfl, answers_synced (hbypass _ _ _) rfl,
      answers_synced (hbypass _ _ _) rfl, answers_synced (hbypass _ _ _) rfl⟩

/-! ## The frame of the two ports (R577, R593) -/

/-- Between two heads at most the TAP, the SMBus pointer and the end of the log of outputs differ. -/
def PortsOnly (d e : Dev) : Prop :=
  e = { d with jtag := e.jtag, out := e.out, evt := { d.evt with ptr := e.evt.ptr } } ∧ ∃ more, e.out = d.out ++ more

theorem PortsOnly.refl (d : Dev) : PortsOnly d d := ⟨rfl, [], (List.append_nil _).symm⟩

/-- No level is shown in or made from what the ports change. -/
theorem PortsOnly.levels {d e : Dev} (h : PortsOnly d e) (hshown : levelsShown d) (hsettled : levelsSettled d) : syncLevels e = e := by
  obtain ⟨heq, -⟩ := h
  have hshown' : levelsShown e := by rw [heq]; exact hshown
  have hsettled' : levelsSettled e := by rw [heq]; exact hsettled
  exact syncLevels_of_shown hshown' hsettled'

section Ports

variable (d : Dev)

theorem portsOnly_jtag (j : JtagState) : PortsOnly d { d with jtag := j } := ⟨rfl, [], (List.append_nil _).symm⟩

theorem portsOnly_emit (o : Out) : PortsOnly d (d.emit o) := ⟨rfl, [o], rfl⟩

theorem portsOnly_ptr (p : Nat) : PortsOnly d { d with evt := { d.evt with ptr := p } } := ⟨rfl, [], (List.append_nil _).symm⟩

variable {d} in
theorem PortsOnly.trans {e f : Dev} (h : PortsOnly d e) (k : PortsOnly e f) : PortsOnly d f := by
  obtain ⟨he, m, hm⟩ := h
  obtain ⟨hf, n, hn⟩ := k
  refine ⟨?_, m ++ n, by rw [hn, hm, List.append_assoc]⟩
  rw [he] at hf
  exact hf

theorem portsOnly_jtagSelect (i : JtagInstr) (b : BallDrive) (t : Bool) : PortsOnly d (jtagSelect d i b t) := portsOnly_jtag d _

theorem portsOnly_jtagGuarded (i : JtagInstr) (b : BallDrive) (t : Bool) : PortsOnly d (jtagGuarded i b t d) := by
  unfold jtagGuarded
  split
  · exact .refl d
  · split <;> exact portsOnly_jtagSelect d _ _ _

theorem portsOnly_jtagBypass : PortsOnly d (jtagBypass d) := by
  unfold jtagBypass
  split
  · exact portsOnly_jtagSelect d _ _ _
  · exact .refl d

theorem portsOnly_jtagIdcode : PortsOnly d (jtagIdcode d) := by
  unfold jtagIdcode
  split
  · exact (portsOnly_jtagSelect d _ _ _).trans (portsOnly_emit _ _)
  · exact .refl d

theorem portsOnly_jtagSample (pins cells : List (Nat × Bool)) : PortsOnly d (jtagSample pins cells d) := by
  unfold jtagSample
  split
  · exact .refl d
  · exact (portsOnly_emit d _).trans (portsOnly_jtag _ _)

theorem portsOnly_smbSetPtr {b : Bytes} (h : b.length = 4) : PortsOnly d (smbSetPtr false b d) := by
  rw [smbSetPtr_block h]
  exact portsOnly_ptr d _

theorem portsOnly_smbReadRec : PortsOnly d (smbReadRec false d) := (portsOnly_emit d _).trans (portsOnly_ptr _ _)

end Ports

/-- The work of a port command, with a good PEC, is within the ports; after it only the levels are shown. -/
theorem effect_portCommand {pins cells : List (Nat × Bool)} {b : Bytes} (hb : b.length = 4) (d : Dev) :
    ∀ c ∈ [Instr.bypass, .idcode, .jtagTrst, .extest, .extestPulse, .extestTrain, .clamp, .highz, .samplePreload pins cells, .info false,
      .setPtr false b, .readRec false], ∃ e, effect c d = syncLevels e ∧ PortsOnly d e := by
  simp only [List.forall_mem_cons]
  exact ⟨⟨_, rfl, portsOnly_jtagBypass d⟩, ⟨_, rfl, portsOnly_jtagIdcode d⟩, ⟨_, rfl, portsOnly_jtagSelect d _ _ _⟩,
    ⟨_, rfl, portsOnly_jtagGuarded d _ _ _⟩, ⟨_, rfl, portsOnly_jtagGuarded d _ _ _⟩, ⟨_, rfl, portsOnly_jtagGuarded d _ _ _⟩,
    ⟨_, rfl, portsOnly_jtagGuarded d _ _ _⟩, ⟨_, rfl, portsOnly_jtagGuarded d _ _ _⟩, ⟨_, rfl, portsOnly_jtagSample d pins cells⟩,
    ⟨_, rfl, portsOnly_emit d _⟩, ⟨_, rfl, portsOnly_smbSetPtr d hb⟩, ⟨_, rfl, portsOnly_smbReadRec d⟩, fun _ h => nomatch h⟩

/-- Settles O25: each command works within the ports, which no level looks at, so showing the levels adds nothing. -/
theorem boundaryScanFrame : Obligations.BoundaryScanFrame := by
  intro s t c pins cells b hshown hsettled hb hc hnext
  obtain ⟨e, heffect, hports⟩ := effect_portCommand hb s.dev c hc
  have hanswer : Answers c s e := answers_of_effect (heffect.trans (hports.levels hshown hsettled))
  obtain rfl := Host.Outcome.next.inj (hanswer.symm.trans hnext)
  obtain ⟨hframe, hout⟩ := hports
  exact ⟨hframe, hout, rfl⟩

end Sys2Proof.Machine
end

section
/-! Proofs: the orders of the host endpoint, one equation for each branch of a command (O59). -/

namespace Sys2Proof.Machine

section Endpoint

variable {d : Dev}

/-! ## MSI-X (R530, R531) -/

theorem msix_pending {v : Nat} {pasid : Option Nat}
    (h : d.getB R.HEP_FUNC_MSIX_EN = false ∨ d.hep.funcMask = true ∨ (d.vector v).masked = true) :
    d.msix v pasid = { d with hep := { d.hep with pba := tabSet false d.hep.pba v true } } := by
  rcases h with hoff | hfunc | hvector
  · simp [Dev.msix, hoff]
  · simp [Dev.msix, hfunc]
  · simp [Dev.msix, hvector]

theorem msix_sent {v : Nat} {pasid : Option Nat} (hen : d.getB R.HEP_FUNC_MSIX_EN = true) (hfunc : d.hep.funcMask = false)
    (hvector : (d.vector v).masked = false) (hdma : d.dmaOn = true) :
    d.msix v pasid = (d.emit (.msix (d.vector v).addr (d.vector v).data pasid)).stat R.HEP_MSIX_SENT 1 := by
  simp [Dev.msix, hen, hfunc, hvector, hdma]

theorem msixUnmask_beyond {v : Nat} (h : 2048 ≤ v) : msixUnmask v d = d := if_pos h

theorem msixHoldoffExpiry_notRunning {sl : Nat} (h : (tabGet ⟨false, 0⟩ d.hep.slices sl).holdoff = false) :
    msixHoldoffExpiry sl d = d := by simp [msixHoldoffExpiry, h]

/-! ## Completions of DMA reads (R532, R533, R535) -/

section Reads

variable {tag : Nat}

theorem dmaReadCompletion_unknown {st : Nat} {hdr b : Bytes} (h : d.hep.reads.find? (fun x => x.tag == tag) = none) :
    dmaReadCompletion tag st hdr b d = aerReport .unexpectedCompletion hdr d := by simp [dmaReadCompletion, h]

theorem completionTimeout_unknown (h : d.hep.reads.find? (fun x => x.tag == tag) = none) : completionTimeout tag d = d := by
  simp [completionTimeout, h]

variable {r : DmaRd} (h : d.hep.reads.find? (fun x => x.tag == tag) = some r) (hdiscard : r.discard = true)

include h hdiscard

theorem dmaReadCompletion_discarded {hdr b : Bytes} :
    dmaReadCompletion tag 0 hdr b d = ((freeTag tag d).stat R.HEP_DMA_RD_BYTES b.length).stat R.HEP_DISCARDED_CPL 1 := by
  simp [dmaReadCompletion, h, hdiscard]

theorem completionTimeout_discarded :
    completionTimeout tag d = freeTag tag (aerReport .completionTimeout [] (d.err R.E_HEP_CPL_TIMEOUT)) := by
  simp [completionTimeout, h, hdiscard]

end Reads

/-! ## Host DMA stops and goes on (R517, R535, R536) -/

theorem busMasterDisable_clear (h : d.dmaOn = true) : busMasterDisable false d = stopDma (d.setB R.HEP_FUNC_BME false) := if_pos h

theorem busMasterDisable_d3hot (h : d.dmaOn = true) : busMasterDisable true d = stopDma (d.setB R.HEP_FUNC_D3HOT true) := if_pos h

theorem busMasterDisable_stopped (h : d.dmaOn = false) : busMasterDisable false d = d.setB R.HEP_FUNC_BME false := by
  simp [busMasterDisable, h]

theorem busMasterEnable_set (h : d.getB R.HEP_FUNC_BME = true) : busMasterEnable d = d := if_pos h

theorem busMasterEnable_clear (h : d.getB R.HEP_FUNC_BME = false) : busMasterEnable d = resumeDma (d.setB R.HEP_FUNC_BME true) := by
  simp [busMasterEnable, h]

theorem d3hotExit_notInD3hot (h : d.getB R.HEP_FUNC_D3HOT = false) : d3hotExit d = d := by simp [d3hotExit, h]

/-! ## Resets of the endpoint and its link (R517, R537, R538) -/

theorem endpointReady_notResetting (h : d.getB R.HEP_FUNC_RESETTING = false) : endpointReady d = d := by simp [endpointReady, h]

section Link

variable {speed width : Nat} {flit : Bool}

theorem pcieLinkUp_refused
    (h : d.hep.training = false ∨ d.hep.linkHeld = true ∨ speed < 1 ∨ 6 < speed ∨ width ∉ [1, 2, 4, 8]) :
    pcieLinkUp speed width flit d = d := by
  have hguard : (!d.hep.training || d.hep.linkHeld || speed < 1 || speed > 6 || !([1, 2, 4, 8].contains width)) = true := by
    simpa [or_assoc] using h
  exact if_pos hguard

theorem pcieLinkUp_trained (htraining : d.hep.training = true) (hheld : d.hep.linkHeld = false) (hlow : 1 ≤ speed) (hhigh : speed ≤ 6)
    (hwidth : width ∈ [1, 2, 4, 8]) :
    let u := (((d.setF R.HEP_LINK_SPEED speed).setF R.HEP_LINK_WIDTH width).setB R.HEP_LINK_FLIT (flit || speed == 6)).setB R.HEP_LINK_UP true
    pcieLinkUp speed width flit d = { u with hep := { u.hep with training := false } } := by
  have hguard : ¬ (!d.hep.training || d.hep.linkHeld || speed < 1 || speed > 6 || !([1, 2, 4, 8].contains width)) = true := by
    have hcontains : [1, 2, 4, 8].contains width = true := List.contains_iff_mem.2 hwidth
    rw [htraining, hheld, hcontains, decide_eq_false (Nat.not_lt.2 hlow), decide_eq_false (Nat.not_lt.2 hhigh)]
    decide
  exact if_neg hguard

end Link

end Endpoint

/-- Settles O59: the masks and the state of host DMA, the tag's read, and the state of the function and of the link decide which branch of
each command acts. -/
theorem endpointOrders : Obligations.EndpointOrders := by
  intro s v tag st speed width sl pasid hdr b flit r
  refine ⟨msix_pending, msix_sent, fun hbeyond => ?_, fun hidle => ?_, fun hnone => ⟨?_, ?_⟩, fun hread hdiscard => ⟨?_, ?_⟩,
    fun hon => ⟨?_, ?_⟩, fun hoff => ?_, fun hset => ?_, fun hclear => ?_, fun hawake => ?_, fun hready => ?_, fun hrefused => ?_,
    fun htraining hheld hlow hhigh hwidth => ?_⟩
  · exact answers_settled (msixUnmask_beyond hbeyond) rfl
  · exact answers_settled (msixHoldoffExpiry_notRunning hidle) rfl
  · exact answers_settled (dmaReadCompletion_unknown hnone) rfl
  · exact answers_settled (completionTimeout_unknown hnone) rfl
  · exact answers_settled (dmaReadCompletion_discarded hread hdiscard) rfl
  · exact answers_settled (completionTimeout_discarded hread hdiscard) rfl
  · exact answers_settled (busMasterDisable_clear hon) rfl
  · exact answers_settled (busMasterDisable_d3hot hon) rfl
  · exact answers_settled (busMasterDisable_stopped hoff) rfl
  · exact answers_settled (busMasterEnable_set hset) rfl
  · exact answers_settled (busMasterEnable_clear hclear) rfl
  · exact answers_settled (d3hotExit_notInD3hot hawake) rfl
  · exact answers_settled (endpointReady_notResetting hready) rfl
  · exact answers_settled (pcieLinkUp_refused hrefused) rfl
  · exact answers_settled (pcieLinkUp_trained htraining hheld hlow hhigh hwidth) rfl

end Sys2Proof.Machine
end

section
/-! Proofs: power, reset, restart and calibration orders, one equation for each branch of a command (O60). -/

namespace Sys2Proof.Machine

section Hearth

variable {d : Dev}

/-! ## With the supplies down (R549) -/

section Unpowered

variable (h : d.hth.pwrGood = false)

include h

theorem powerFail_unpowered : powerFail d = d := by simp [powerFail, h]

theorem powerRestored_unpowered : powerRestored d = d := by simp [powerRestored, h]

theorem hearthFault_unpowered : hearthFault d = d := by simp [hearthFault, h]

theorem pwrGoodFall_unpowered : pwrGoodFall d = d := by simp [pwrGoodFall, h]

end Unpowered

theorem powerOn_good (h : d.hth.pwrGood = true) : powerOn d = d := if_pos h

/-! ## Power loss and return (R547, R553 to R556) -/

/-- The head that has seen PWR_FAIL_L fall or rise. -/
abbrev pwrFailSeen (h : HthState) (fail : Bool) (d : Dev) : Dev := ({ d with hth := h } : Dev).setB R.HTH_STATE_PWR_FAIL fail

/-- The level of PWR_FAIL_L is shown beside the head's state. -/
theorem pwrFailSeen_state (h : HthState) (fail : Bool) : (pwrFailSeen h fail d).getF R.HTH_STATE_STATE = d.getF R.HTH_STATE_STATE :=
  getF_setF_other _ R.HTH_STATE_PWR_FAIL R.HTH_STATE_STATE _ (by decide) (.inr (.inl (by decide)))

theorem powerFail_serving (hgood : d.hth.pwrGood = true) (hlevel : d.hth.pwrFailL = true) (hstate : d.getF R.HTH_STATE_STATE = 2) :
    let f := pwrFailSeen { d.hth with pwrFailL := false, flushStart := d.now } true d
    let g := traysForFlush (cancelPrograms (stopApply (setHeadState 3 f)))
    powerFail d = plaStart { g with per := { g.per with mirrorOpen := false } } := by
  have hserving := (pwrFailSeen_state { d.hth with pwrFailL := false, flushStart := d.now } true).trans hstate
  have hguard : ¬ (!d.hth.pwrGood || !d.hth.pwrFailL) = true := by rw [hgood, hlevel]; decide
  exact (if_neg hguard).trans (if_pos (.inl hserving))

theorem powerRestored_halted (hgood : d.hth.pwrGood = true) (hstate : d.getF R.HTH_STATE_STATE = 4) :
    powerRestored d = warmRestart 5 (pwrFailSeen { d.hth with pwrFailL := true } false d) := by
  have hhalted := (pwrFailSeen_state { d.hth with pwrFailL := true } false).trans hstate
  have hguard : ¬ (!d.hth.pwrGood) = true := by rw [hgood]; decide
  exact (if_neg hguard).trans (if_pos hhalted)

/-! ## Pins and holds (R538, R541, R549) -/

theorem sysReset_low (h : d.hth.sysResetL = false) : sysReset d = d := by simp [sysReset, h]

theorem sysResetRelease_high (h : d.hth.sysResetL = true) : sysResetRelease d = d := if_pos h

theorem perstRelease_high (h : d.hth.perstL = true) : perstRelease d = d := if_pos h

theorem resetHoldEnd_notHeld (h : d.hth.resetHold = false) : resetHoldEnd d = d := by simp [resetHoldEnd, h]

/-! ## Restarts of a fenced head (R559) -/

theorem hostRestart_notFenced (h : d.fenced = false) : hostRestart d = d := by simp [hostRestart, h]

theorem fenceRestart_notFenced (h : d.fenced = false) : fenceRestart d = d := by simp [fenceRestart, h]

theorem hostRestart_fenced (h : d.fenced = true) (hcause : d.hth.fenceCause ≠ 2) : hostRestart d = warmRestart 6 d := by
  simp [hostRestart, h, hcause]

theorem fenceRestart_fenced (h : d.fenced = true) (hcause : d.hth.fenceCause ≠ 2) (hfree : d.getB R.HTH_STATE_LOCKOUT = false) :
    fenceRestart d = warmRestart 4 d := by simp [fenceRestart, h, hcause, hfree]

/-! ## Calibration (R560) -/

theorem calibrationRequest_noKind {k i : Nat} (h : k = 0 ∨ 4 < k) : calibrationRequest k i true d = d := by
  have hguard : k < 1 ∨ k > 4 := by omega
  exact if_pos (.inr hguard)

theorem calibrationRequest_noGo {k i : Nat} : calibrationRequest k i false d = d := if_pos (.inl rfl)

theorem calibrationRequest_pcie {i : Nat} : calibrationRequest 4 i true d = d.setF R.CLK_CAL_STATUS_RESULT 4 := by
  simp [calibrationRequest]

theorem calibrationRequest_busy {k i : Nat} (hlow : 1 ≤ k) (hhigh : k ≤ 3) (h : d.hth.cal.phase ≠ 0) :
    calibrationRequest k i true d = d.setF R.CLK_CAL_STATUS_RESULT 3 := by
  have hguard : ¬ ((!true) = true ∨ k < 1 ∨ k > 4) := by
    simp only [Bool.not_true, Bool.false_eq_true, false_or]
    omega
  have hlink : ¬ k = 4 := by omega
  exact (if_neg hguard).trans ((if_neg hlink).trans (if_pos h))

theorem calibrationDrainEnd_notDraining (h : d.hth.cal.phase ≠ 1) : calibrationDrainEnd d = d := if_pos h

theorem calibrationDone_notRunning {ok : Bool} (h : d.hth.cal.phase ≠ 2) : calibrationDone ok d = d := if_pos h

/-! ## The core voltage and the stewards (R548, R586) -/

theorem avsResponse_notBusy {ok : Bool} (h : d.hth.avsBusy = none) : avsResponse ok d = d := by simp [avsResponse, h]

theorem stewardFailure_noSteward {stw : Nat} {ok : Bool} (h : stw = 0 ∨ 0x14 < stw) : stewardFailure stw ok d = d :=
  if_pos (h.imp_right .inl)

end Hearth

/-- Settles O60: the pins, the state of the head and of its fence, and the calibration that runs decide which branch of each command acts; an
access to a register drops the latches, which none of them looks at. -/
theorem hearthOrders : Obligations.HearthOrders := by
  intro s k i stw ok d
  refine ⟨fun hdown => ⟨?_, ?_, ?_, ?_⟩, fun hgood => ?_, fun hgood hlevel hstate => ?_, fun hgood hstate => ?_, fun hlow => ?_,
    fun hhigh => ?_, fun hhigh => ?_, fun hfree => ?_, fun hfence => ⟨?_, ?_⟩, fun hfence hcause => ⟨?_, fun hfree => ?_⟩, fun hkind => ?_,
    ?_, ?_, fun hlow hhigh hbusy => ?_, fun hphase => ?_, fun hphase => ?_, fun hidle => ?_, fun hnone => ?_⟩
  · exact answers_settled (powerFail_unpowered hdown) rfl
  · exact answers_settled (powerRestored_unpowered hdown) rfl
  · exact answers_settled (hearthFault_unpowered hdown) rfl
  · exact answers_settled (pwrGoodFall_unpowered hdown) rfl
  · exact answers_settled (powerOn_good hgood) rfl
  · exact answers_settled (powerFail_serving hgood hlevel hstate) rfl
  · exact answers_settled (powerRestored_halted hgood hstate) rfl
  · exact answers_settled (sysReset_low hlow) rfl
  · exact answers_settled (sysResetRelease_high hhigh) rfl
  · exact answers_settled (perstRelease_high hhigh) rfl
  · exact answers_settled (resetHoldEnd_notHeld hfree) rfl
  · exact answers_settled (hostRestart_notFenced (d := d) hfence) rfl
  · exact answers_settled (fenceRestart_notFenced hfence) rfl
  · exact answers_settled (hostRestart_fenced (d := d) hfence hcause) rfl
  · exact answers_settled (fenceRestart_fenced hfence hcause hfree) rfl
  · exact answers_settled (calibrationRequest_noKind (d := d) hkind) rfl
  · exact answers_settled (calibrationRequest_noGo (d := d)) rfl
  · exact answers_settled (calibrationRequest_pcie (d := d)) rfl
  · exact answers_settled (calibrationRequest_busy (d := d) hlow hhigh hbusy) rfl
  · exact answers_settled (calibrationDrainEnd_notDraining hphase) rfl
  · exact answers_settled (calibrationDone_notRunning hphase) rfl
  · exact answers_settled (avsResponse_notBusy hidle) rfl
  · exact answers_settled (stewardFailure_noSteward hnone) rfl

end Sys2Proof.Machine
end
